-- ==== Sys2Proof/Word.lean ====
section
/-!
DEFINITION. The plainest types of the KA2 model: bytes, register words, sparse tables.

Every format of the manual is little-endian (R9); a byte string lists the byte at the lowest
address first.
-/
namespace Sys2Proof

/-- One byte of memory or of a message. -/
abbrev Byte := BitVec 8

/-- A byte string, lowest address first (R9). -/
abbrev Bytes := List Byte

/-- A 64-bit register or general-purpose value (R12, R298). -/
abbrev Word := BitVec 64

/-- A table of like things by number (a register file, a table of windows): it lists, in rising
order of the number, only those that have left their reset value. -/
abbrev Tab (α : Type) := List (Nat × α)

end Sys2Proof
end

