-- ==== Sys2Proof/Config.lean ====
section
/-!
DEFINITION. What the manual leaves open: the free values, what fuses and board parts hold, and the
algorithms of external standards that the manual names without restating. Each constant has no body,
so a statement about the model holds whatever it is.
-/
namespace Sys2Proof.Config

/-- The n-th value that the manual leaves open: a TRNG or DRBG output, an undefined byte, a window
generation, a timing figure. The model draws a fresh n each time (State.draw). [log 5 DESIGN CHOICE, 146 DESIGN CHOICE] -/
opaque freeValue : Nat → BitVec 512

/-- GLOBAL_ID.DEVICE_ID, from fuses (R563). [log 198 DESIGN CHOICE] -/
opaque deviceId : BitVec 64

/-- The MAC address that fuses give channel k (R373). [log 5 DESIGN CHOICE] -/
opaque fuseMac : Nat → BitVec 48

/-- The output of stage 1 to 6 of the refresh macro's microcode variant 0x0001, which the device firmware
fixes (R261): from the parameter block, the refresh descriptor, the keys that the stage streams and the stage's input. [log 86 DEDUCED] -/
opaque refreshStage : Nat → List Bytes → Bytes

/-- The domain-separation byte of the TurboSHAKE128 of a share refresh, which R213 does not give. [log 65 DESIGN CHOICE] -/
opaque shrefDomain : BitVec 7

/-- The sign and payload of a NaN that an FP32 operation on these two operands delivers, which IEEE 754
leaves to the implementation (R281). [log 98 DESIGN CHOICE] -/
opaque nanOf : Nat → Nat → BitVec 32

/-- SESSION of the device with a NODE, as a receiver of its sealed messages knows it; the manual does not say
how a receiver learns it (R390). [log 146 DESIGN CHOICE] -/
opaque peerSession : Nat → BitVec 16

/-- The row of its pseudo-channel that a Cellar line (device address divided by 64) lies in; the manual gives no row
geometry (R434). [log 178 DESIGN CHOICE] -/
opaque cellarRow : Nat → Nat

/-- The bank, below 32, of a row of a pseudo-channel (R434). [log 178 DESIGN CHOICE] -/
opaque cellarBank : Nat → Nat

/-- What the fuses hold as manufactured: the life-cycle code (R463). [log 5 DESIGN CHOICE, 198 DESIGN CHOICE] -/
opaque fuseLcs : Nat
/-- The SVN bits blown as manufactured (R473). [log 198 DESIGN CHOICE] -/
opaque fuseSvn : Nat
/-- The mask of key indices revoked as manufactured (R473). [log 198 DESIGN CHOICE] -/
opaque fuseRevoked : Nat
/-- The card-only fuse (R3). [log 198 DESIGN CHOICE] -/
opaque fuseCardOnly : Bool
/-- The silicon stepping, which every Revision ID reads too (R401, R565). [log 198 DESIGN CHOICE] -/
opaque fuseStepping : Nat

/-- Life-cycle transitions still possible, by life-cycle code (R495 LCS_LEFT). [log 198 DESIGN CHOICE] -/
opaque lcsLeft : Nat → Nat

/-- The device root that OTP holds as manufactured, if any (R468). [log 198 DESIGN CHOICE] -/
opaque fuseRoot : Option Bytes

/-- The physical bays that the fuse map marks as faulty (R27). [log 198 DESIGN CHOICE] -/
opaque fuseFaulty : Nat → Bool

/-- The voltage in mV of the fused V/F curve at operating point i (R498). [log 215 DESIGN CHOICE] -/
opaque oppMv : Nat → Nat

/-- The eye baseline of lane l in mV, as OTP holds it (R558). [log 256 DESIGN CHOICE] -/
opaque laneBase : Nat → Nat

/-- What an open debug port drives on DBG_DOUT at a time (R580). [log 274 DESIGN CHOICE] -/
opaque dbgOut : Nat → Bool

/-- The Subsystem Vendor ID and Subsystem ID that every function reads, from fuses (R401). [log 198 DESIGN CHOICE] -/
opaque subsystemId : BitVec 32

/-- The island ROM's digest (R486). [log 198 DESIGN CHOICE] -/
opaque romDigest : Bytes
/-- The island ROM's digest of the firmware key pair of an index (R472). [log 198 DESIGN CHOICE] -/
opaque romKeyDigest : Nat → Bytes

/-- The ML-DSA-87 public key of the firmware key pair of an index (R465). [log 201 DESIGN CHOICE] -/
opaque fwMlPub : Nat → Bytes
/-- The P-384 public key of the firmware key pair of an index (R465). [log 201 DESIGN CHOICE] -/
opaque fwEcPub : Nat → Bytes

/-- What board flash holds in image slot n before this device has written it (R582). [log 5 DESIGN CHOICE, 198 DESIGN CHOICE] -/
opaque bootFlash : Nat → Bytes

/-- Which slot board flash names as primary before this device has written it (R582). [log 198 DESIGN CHOICE] -/
opaque bootPrimary : Nat

/-- The device-identity certificate chain in board flash, if any (R582). [log 198 DESIGN CHOICE] -/
opaque bootCert : Option Bytes

/-- The public key that a certificate chain's device certificate carries (X.509), if it can be read. [log 198 DESIGN CHOICE] -/
opaque certKey : Bytes → Option Bytes

/-- The X.509 alias certificate of R470, from the P-384 attestation public key, FW_DIGEST, the digest of the ML-DSA-65
attestation public key, and the device-identity private key. [log 9 DEDUCED, 198 DESIGN CHOICE] -/
opaque aliasCert : List Bytes → Bytes

/-- The CHEST_ATTR word of device slot 0-12; the manual gives none (R470). [log 201 DESIGN CHOICE] -/
opaque deviceAttr : Nat → BitVec 64

/-- The answer of the SPDM responder to a request, from what was exchanged before, newest first (DMTF DSP0274). [log 9 DEDUCED, 162 PRESUMED] -/
opaque spdmAnswer : List Bytes → Bytes

/-- The SPDM message that carries measurement blocks, without its signature (DMTF DSP0274). [log 163 DESIGN CHOICE] -/
opaque spdmMeasurements : List Bytes → Bytes

/-- The IDE_KM response (PCIe 6.0): to QUERY, of the Link and Selective streams; to KEY_PROG, K_SET_GO and K_SET_STOP, of the
stream, key set, sub-stream, direction and status. [log 163 DESIGN CHOICE] -/
opaque ideKmResponse : List Nat → Bytes

/-- The TDISP response (PCIe 6.0) to LOCK, START and STOP_INTERFACE_REQUEST: of the request, the shelf and whether it is
an error. [log 163 DESIGN CHOICE] -/
opaque tdispResponse : List Nat → Bytes

/-- The TDISP device interface report that carries the given ranges and digest (PCIe 6.0). [log 163 DESIGN CHOICE] -/
opaque tdispReport : List Bytes → Bytes

/-- Whether Announce message a is better than b in the default data-set comparison (IEEE 1588-2019). [log 9 DEDUCED, 228 DESIGN CHOICE] -/
opaque ptpBetter : List Bytes → Bool

/-- The PTP Delay_Req message of a sequence number (IEEE 1588-2019). [log 228 DESIGN CHOICE] -/
opaque ptpDelayReq : Nat → Bytes

end Sys2Proof.Config
end

