-- ==== Sys2Proof/Syntax.lean ====
section
/-!
DEFINITION. The commands of the KA2: one constructor for each row of the opcode table, with the row's operands, and the types of the
operands. The table gives the rows no bits.
-/
namespace Sys2Proof
/-! ### Operand types of the sequencer instructions (R301, R302) -/

/-- The qualifying predicate: QP and QN. -/
structure Pred where
  qp : BitVec 3
  qn : Bool
  deriving DecidableEq, Repr

/-- A compare condition, in the order of its MINOR (R303). -/
inductive Cond where
  | eq | ne | lt | ge | ltu | geu
  deriving DecidableEq, Repr

/-! ### What a start finds (R529) -/

/-- The outcomes of a start's physical tests and link training, which no other state determines: the level of PROFILE_SEL (low: card), the ROM self-test, the TRNG's
first and extended health tests, the root's unwrap, the island, the PLLs; bond groups with one failing pad and Loft
rows and columns to steer, as (slice, number); slices that cannot be repaired, as (slice, bond group or row, whether a
bank lacks spares); sequencers and pipelines that fail, as (physical bay, number), and bays that fail; the CEL_STATUS.RATE code that each stack needs, and channels
(stack × 32 + channel) that fail at every rate; lanes (port × 4 + lane, spare of group g 64 + g) that fail training; the
host link's FLIT mode, rate code and width; whether the journal's and the health history's mirrors pass their CRC; the measurements and the attestation
keys; and the time from the start's beginning to each step's end, in nanoseconds. [log 232 DESIGN CHOICE] -/
structure Finds where
  card     : Bool
  romOk    : Bool
  trngOk   : Bool
  trngExtOk : Bool
  rootOk   : Bool
  islandOk : Bool
  pllOk    : Bool
  bonds    : List (Nat × Nat)
  rows     : List (Nat × Nat)
  cols     : List (Nat × Nat)
  slices   : List (Nat × Nat × Bool)
  seqs     : List (Nat × Nat)
  pipes    : List (Nat × Nat)
  bays     : List Nat
  rates    : List Nat
  channels : List Nat
  lanes    : List Nat
  flit     : Bool
  rate     : Nat
  width    : Nat
  mirrorOk : Bool
  healthOk : Bool
  measureOk : Bool
  attestOk : Bool
  times    : List Nat
  deriving DecidableEq, Repr

/-- What a fabric lane reports for 1 ms (R345, R373): whether it has lock, and the codewords that it corrected and could not correct. -/
structure LaneReport where
  lane        : BitVec 6
  lock        : Bool
  corrected   : BitVec 16
  uncorrected : BitVec 16
  deriving DecidableEq, Repr

/-- An entry of a function's MSI-X table in BAR4 as host software writes it: vector, address, data and Mask bit (R404, R408). -/
structure MsixEntry where
  vector  : BitVec 8
  address : BitVec 64
  data    : BitVec 32
  masked  : Bool
  deriving DecidableEq, Repr

/-- The reference clocks of R574: REFCLK_SYS, REFCLK_SDg, REFCLK_PCIE, XTAL32K. -/
inductive RefClk where
  | sys
  | sd (g : BitVec 2)
  | pcie
  | xtal
  deriving DecidableEq, Repr

/-- A field of a function's PCIe configuration space that the manual names, with the value written (R402-R404, R415):
VF Enable, NumVFs, the VF page size and ARI hierarchy of the PF, MSI-X Enable, Memory Space, Bus Master Enable, the address of a BAR,
the size of BAR2 as a power of two in GiB, the power state, and Max Payload Size and Max Read Request Size as powers of two over
128 bytes. -/
inductive CfgField where
  | vfEnable (on : Bool)
  | numVfs (n : BitVec 4)
  | msixEnable (on : Bool)
  | memorySpace (on : Bool)
  | busMaster (on : Bool)
  | bar (n : BitVec 3) (addr : BitVec 64)
  | bar2Size (gib : BitVec 4)
  | d3hot (on : Bool)
  | vfPage (is64k : Bool)
  | ari (on : Bool)
  | maxPayload (code : BitVec 3)
  | readRequest (code : BitVec 3)
  deriving DecidableEq, Repr

/-- The key operation that a tamper alarm meets (R491): none, a mailbox request of a function, a queue's head command, or a
model load of a shelf. -/
inductive KeyOp where
  | none
  | mailbox (f : BitVec 4)
  | command (q n : Nat)
  | load (k : Nat)
  deriving DecidableEq, Repr

/-! ### The commands -/

/-- A command, in the order of the opcode table. A sequencer instruction or queue command carries the device-wide number q of its sequencer
(R16) and, for a queue command, the QSEL n of the queue; a shelf command the shelf k; a bay command the logical bay b. -/
inductive Instr where
  /-- POWER_ON (R536). -/
  | powerOn (x : Finds)
  /-- PERST_L_ASSERT (R579). -/
  | perstLAssert
  /-- GLOBAL_RESET_COLD (R536). -/
  | globalResetCold (x : Finds)
  /-- GLOBAL_RESET_WARM (R536). -/
  | globalResetWarm (x : Finds)
  /-- ISLAND_WATCHDOG_RESET (R536). -/
  | islandWatchdogReset (x : Finds)
  /-- REFCLK_LOSS (R574). -/
  | refclkLoss (c : RefClk) (x : Finds)
  /-- PWRGD_IN_FALL (R572). -/
  | pwrgdInFall (sleep : Bool)
  /-- LOCK_WAIT_TIMEOUT (R522). -/
  | lockWaitTimeout
  /-- JOURNAL_MIRROR (R535). -/
  | journalMirror (ok : Bool)
  /-- TAMPER_ALARM (R491). -/
  | tamperAlarm (n : BitVec 3) (op : KeyOp)
  /-- ROOT_REMASK (R469). -/
  | rootRemask
  /-- THERMAL_THROTTLE_STEP (R507). -/
  | thermalThrottleStep
  /-- THERMAL_TRIP (R507). -/
  | thermalTrip
  /-- PACE_PREDICT_TICK (R506). -/
  | pacePredictTick (l d avg uj : Nat) (tj : Int) (sensor : Nat) (temps : List Int)
  /-- OPP_STEP (R499). -/
  | oppStep (n : BitVec 5)
  /-- DROOP_DETECT (R501). -/
  | droopDetect (n : BitVec 5) (ramp : Option (BitVec 10))
  /-- STRETCH_END (R501). -/
  | stretchEnd (n : BitVec 5)
  /-- OPP_STEP_RESUME (R500). -/
  | oppStepResume (n : BitVec 5)
  /-- EDP_LIMIT (R505). -/
  | edpLimit (w : Nat)
  /-- CURRENT_SLOPE_TICK (R503). -/
  | currentSlopeTick (a : Nat)
  /-- LATTICE_GATE (R497). -/
  | latticeGate (n : BitVec 5)
  /-- LATTICE_WAKE (R497). -/
  | latticeWake (n : BitVec 5)
  /-- PWR_CAP_WRITE (R505). -/
  | pwrCapWrite (v : Word)
  /-- PACE_HEARTBEAT_SEND (R511). -/
  | paceHeartbeatSend
  /-- CEILING_RAISE_HOLD (R512). -/
  | ceilingRaiseHold
  /-- PACE_PACKET_RECEIVE (R511). -/
  | pacePacketReceive (chan : Nat) (fcs : Bool) (f : Bytes)
  /-- PACE_CEILING_EFFECTIVE (R514). -/
  | paceCeilingEffective (m : BitVec 6)
  /-- PACE_MEMBER_STALE (R511). -/
  | paceMemberStale (m : BitVec 6)
  /-- QUIET_DWELL_EXPIRY (R459). -/
  | quietDwellExpiry (k : Nat)
  /-- PPS_EDGE (R519). -/
  | ppsEdge (rising : Bool)
  /-- PTP_MESSAGE (R518). -/
  | ptpMessage (chan : Nat) (fcs : Bool) (f : Bytes)
  /-- TIME_SOURCE_LOSS (R520). -/
  | timeSourceLoss
  /-- HOLDOVER_STEP (R520). -/
  | holdoverStep
  /-- EPOCH_SET_WRITE (R521). -/
  | epochSetWrite (v : Word)
  /-- COARSE_COUNT_RELOAD (R522). -/
  | coarseCountReload
  /-- SCHED_MARK_FIRE (R526). -/
  | schedMarkFire (k : Nat) (e : BitVec 8)
  /-- REFRESH_WINDOW_OPEN (R268). -/
  | refreshWindowOpen (k : Nat) (e : BitVec 8)
  /-- REFRESH_WINDOW_CLOSE (R268). -/
  | refreshWindowClose (k : Nat) (e : BitVec 8)
  /-- SCHED_KEY_RETIRE (R526). -/
  | schedKeyRetire (k : Nat) (e : BitVec 8)
  /-- SCHED_KEY_RETIRE_RETRY (R526). -/
  | schedKeyRetireRetry (k : Nat) (e : BitVec 8)
  /-- SCHED_DOORBELL (R526). -/
  | schedDoorbell (k : Nat) (e : BitVec 8)
  /-- WAYPOINT_CUT (R161). -/
  | waypointCut (k : Nat)
  /-- WAYPOINT_COMPLETE (R538). -/
  | waypointComplete (k : Nat)
  /-- BUDDY_ACK (R395). -/
  | buddyAck (k : Nat)
  /-- ROUND_START (R49). -/
  | roundStart (k : Nat) (v : Word)
  /-- ROUND_CANCEL (R77). -/
  | roundCancel (k : Nat) (v : Word)
  /-- OPEN_BEGIN (R54). -/
  | openBegin (k : Nat)
  /-- PHASE_COMPLETE (R55). -/
  | phaseComplete (k : Nat)
  /-- RELEASE_SIGNATURES_DONE (R287). -/
  | releaseSignaturesDone (k : Nat)
  /-- DRBG_RESEED (R271). -/
  | drbgReseed (b : BitVec 4) (first retry : Bool)
  /-- CUT_OFF (R61). -/
  | cutOff (k : Nat)
  /-- FREEZE (R61). -/
  | freeze (k : Nat)
  /-- COHORT_DIGEST_RECEIVE (R67). -/
  | cohortDigestReceive (k : Nat)
  /-- EXCHANGE_DEADLINE (R160). -/
  | exchangeDeadline (k : Nat)
  /-- ROUND_DEADLINE (R57). -/
  | roundDeadline (k : Nat)
  /-- RELEASE_FLIP (R290). -/
  | releaseFlip (k : Nat)
  /-- REL_ACK_WRITE (R289). -/
  | relAckWrite (k : Nat) (v : Word)
  /-- RING_CREATE (R89). -/
  | ringCreate (k : Nat) (ring : BitVec 6) (addr : BitVec 42)
  /-- RING_DESTROY (R89). -/
  | ringDestroy (k : Nat) (ring : BitVec 6)
  /-- REJLOG_CFG_WRITE (R100). -/
  | rejlogCfgWrite (k : Nat) (v : Word)
  /-- CLOG_CFG_WRITE (R594). -/
  | clogCfgWrite (k : Nat) (v : Word)
  /-- RECORD_DELIVER (R102). -/
  | recordDeliver (k r : Nat)
  /-- CRATE_SETTLE (R155). -/
  | crateSettle (k seq : Nat)
  /-- CASK_ENABLE (R115). -/
  | caskEnable (b ci : Nat) (v : Word)
  /-- CASK_DISABLE (R115). -/
  | caskDisable (b ci : Nat)
  /-- KEG_INIT_DONE (R115). -/
  | kegInitDone (b ci : Nat)
  /-- CASK_SCRUB_DONE (R115). -/
  | caskScrubDone (b ci : Nat)
  /-- KEG_SEL_WRITE (R139). -/
  | kegSelWrite (b ci : Nat) (v : Word)
  /-- HELD_COMMAND_RELEASE (R128). -/
  | heldCommandRelease (b : BitVec 4) (n : BitVec 3)
  /-- SEGMENT_RETRACTION (R156). -/
  | segmentRetraction (b : Nat)
  /-- COMMAND_COMPLETE (R329). -/
  | commandComplete (q n : Nat)
  /-- FOLD_A (R124). -/
  | foldA (q n : Nat)
  /-- FOLD_O (R124). -/
  | foldO (q n : Nat)
  /-- FOLD_P (R149). -/
  | foldP (q n : Nat)
  /-- SPILL (R132). -/
  | spill (q n : Nat)
  /-- DRAIN_W (R136). -/
  | drainW (q n : Nat)
  /-- DRAIN_K (R137). -/
  | drainK (q n : Nat)
  /-- XSTREAM_M (R176). -/
  | xstreamM (q n : Nat)
  /-- SHAKE_M (R176). -/
  | shakeM (q n : Nat)
  /-- NOISE (R274). -/
  | noise (q n : Nat)
  /-- SEAL (R284). -/
  | seal (q n : Nat)
  /-- PCOMB (R248). -/
  | pcomb (q n : Nat)
  /-- COMMIT (R153). -/
  | commit (q n : Nat)
  /-- RETRACT (R153). -/
  | retract (q n : Nat)
  /-- SIGV (R177). -/
  | sigv (q n : Nat)
  /-- FLPV (R197). -/
  | flpv (q n : Nat)
  /-- LAGR_IN (R182). -/
  | lagrIn (q n : Nat)
  /-- LAGR (R184). -/
  | lagr (q n : Nat)
  /-- ECDH (R178). -/
  | ecdh (q n : Nat)
  /-- XSTREAM (R175). -/
  | xstream (q n : Nat)
  /-- SHAKE (R175). -/
  | shake (q n : Nat)
  /-- DIGEST (R175). -/
  | digest (q n : Nat)
  /-- NTT (R231). -/
  | ntt (q n : Nat)
  /-- INTT (R231). -/
  | intt (q n : Nat)
  /-- MODMUL (R232). -/
  | modmul (q n : Nat)
  /-- KEYSW (R233). -/
  | keysw (q n : Nat)
  /-- PDEC (R244). -/
  | pdec (q n : Nat)
  /-- REFRESH (R259). -/
  | refresh (q n : Nat)
  /-- REFRESH_RESUME (R264). -/
  | refreshResume (q n : Nat)
  /-- REFRESH_STAGE_DONE (R262). -/
  | refreshStageDone (k j : Nat)
  /-- REFRESH_SLOT_FREE (R269). -/
  | refreshSlotFree (k : Nat) (slot : BitVec 3)
  /-- OPTSTEP (R282). -/
  | optstep (q n : Nat)
  /-- RMA_WR (R381). -/
  | rmaWr (q n : Nat)
  /-- RMA_RD (R382). -/
  | rmaRd (q n : Nat)
  /-- TSEND (R385). -/
  | tsend (q n : Nat)
  /-- POSTRECV (R384). -/
  | postrecv (q n : Nat)
  /-- WAITQ (R337). -/
  | waitq (q n : Nat)
  /-- FENCE (R338). -/
  | fence (q n : Nat)
  /-- QUEUE_NOP (R335). -/
  | queueNop (q n : Nat)
  /-- QREC_WRITE (R342). -/
  | qrecWrite (q : Nat) (v : Word)
  /-- VERIFIER_BATCH_SEND (R204). -/
  | verifierBatchSend (k j : Nat)
  /-- VERIFIER_FLUSH (R204). -/
  | verifierFlush (k j : Nat)
  /-- GROUP_ENVELOPE_RECEIVE (R209). -/
  | groupEnvelopeReceive (k : Nat)
  /-- RELAY_TAIL_WRITE (R206). -/
  | relayTailWrite (k : Nat) (v : Word)
  /-- SHARE_REFRESH_START (R212). -/
  | shareRefreshStart (k : Nat) (slot : BitVec 8)
  /-- SHARE_REFRESH_REVERT (R214). -/
  | shareRefreshRevert (k : Nat) (slot : BitVec 8)
  /-- SHARE_REFRESH_ABORT (R214). -/
  | shareRefreshAbort (k : Nat) (slot : BitVec 8)
  /-- SHARE_REFRESH_DEADLINE (R214). -/
  | shareRefreshDeadline (k : Nat)
  /-- PSET_LOAD (R218). -/
  | psetLoad (k : Nat) (entry : BitVec 4) (addr : BitVec 42)
  /-- PSET_UNLOAD (R252). -/
  | psetUnload (k : Nat) (entry : BitVec 4)
  /-- KSET_LOAD (R228). -/
  | ksetLoad (k : Nat) (entry : BitVec 4) (addr : BitVec 42)
  /-- KSET_UNLOAD (R228). -/
  | ksetUnload (k : Nat) (entry : BitVec 4)
  /-- PROG_LOAD (R321). -/
  | progLoad (k : Nat) (addr : BitVec 42)
  /-- SERVICE_RUN_START (R297). -/
  | serviceRunStart (k : Nat) (addr : BitVec 42)
  /-- SERVICE_RUN_STOP (R322). -/
  | serviceRunStop (k : Nat) (addr : BitVec 42)
  /-- ADD (R304). -/
  | add (q : Nat) (p : Pred) (d a b : BitVec 5)
  /-- SUB (R304). -/
  | sub (q : Nat) (p : Pred) (d a b : BitVec 5)
  /-- AND (R303). -/
  | and (q : Nat) (p : Pred) (d a b : BitVec 5)
  /-- OR (R303). -/
  | or (q : Nat) (p : Pred) (d a b : BitVec 5)
  /-- XOR (R303). -/
  | xor (q : Nat) (p : Pred) (d a b : BitVec 5)
  /-- SLL (R304). -/
  | sll (q : Nat) (p : Pred) (d a b : BitVec 5)
  /-- SRL (R304). -/
  | srl (q : Nat) (p : Pred) (d a b : BitVec 5)
  /-- SRA (R304). -/
  | sra (q : Nat) (p : Pred) (d a b : BitVec 5)
  /-- MUL (R304). -/
  | mul (q : Nat) (p : Pred) (d a b : BitVec 5)
  /-- MULHU (R304). -/
  | mulhu (q : Nat) (p : Pred) (d a b : BitVec 5)
  /-- DIVU (R304). -/
  | divu (q : Nat) (p : Pred) (d a b : BitVec 5)
  /-- REMU (R304). -/
  | remu (q : Nat) (p : Pred) (d a b : BitVec 5)
  /-- MIN (R303). -/
  | min (q : Nat) (p : Pred) (d a b : BitVec 5)
  /-- MAX (R303). -/
  | max (q : Nat) (p : Pred) (d a b : BitVec 5)
  /-- MINU (R303). -/
  | minu (q : Nat) (p : Pred) (d a b : BitVec 5)
  /-- MAXU (R303). -/
  | maxu (q : Nat) (p : Pred) (d a b : BitVec 5)
  /-- CLZ (R304). -/
  | clz (q : Nat) (p : Pred) (d a : BitVec 5)
  /-- POPC (R303). -/
  | popc (q : Nat) (p : Pred) (d a : BitVec 5)
  /-- ADDI (R303). -/
  | addi (q : Nat) (p : Pred) (d a : BitVec 5) (imm : BitVec 32)
  /-- ANDI (R304). -/
  | andi (q : Nat) (p : Pred) (d a : BitVec 5) (imm : BitVec 32)
  /-- ORI (R304). -/
  | ori (q : Nat) (p : Pred) (d a : BitVec 5) (imm : BitVec 32)
  /-- XORI (R304). -/
  | xori (q : Nat) (p : Pred) (d a : BitVec 5) (imm : BitVec 32)
  /-- SLLI (R304). -/
  | slli (q : Nat) (p : Pred) (d a : BitVec 5) (imm : BitVec 32)
  /-- SRLI (R304). -/
  | srli (q : Nat) (p : Pred) (d a : BitVec 5) (imm : BitVec 32)
  /-- SRAI (R304). -/
  | srai (q : Nat) (p : Pred) (d a : BitVec 5) (imm : BitVec 32)
  /-- MULI (R303). -/
  | muli (q : Nat) (p : Pred) (d a : BitVec 5) (imm : BitVec 32)
  /-- MOVI (R303). -/
  | movi (q : Nat) (p : Pred) (d : BitVec 5) (imm : BitVec 32)
  /-- MOVK (R303). -/
  | movk (q : Nat) (p : Pred) (k : BitVec 2) (d : BitVec 5) (imm : BitVec 16)
  /-- CMP (R303). -/
  | cmp (q : Nat) (p : Pred) (c : Cond) (d a b : BitVec 5)
  /-- CMPI (R303). -/
  | cmpi (q : Nat) (p : Pred) (c : Cond) (d a : BitVec 5) (imm : BitVec 32)
  /-- PAND (R303). -/
  | pand (q : Nat) (p : Pred) (d a b : BitVec 5)
  /-- POR (R303). -/
  | por (q : Nat) (p : Pred) (d a b : BitVec 5)
  /-- PXOR (R303). -/
  | pxor (q : Nat) (p : Pred) (d a b : BitVec 5)
  /-- PNOT (R303). -/
  | pnot (q : Nat) (p : Pred) (d a : BitVec 5)
  /-- PSET (R303). -/
  | pset (q : Nat) (p : Pred) (d : BitVec 5) (v : Bool)
  /-- PMOV (R303). -/
  | pmov (q : Nat) (p : Pred) (d : BitVec 5)
  /-- PLD (R303). -/
  | pld (q : Nat) (p : Pred) (a : BitVec 5)
  /-- LD (R305). -/
  | ld (q : Nat) (p : Pred) (size : BitVec 2) (sx : Bool) (d a : BitVec 5) (imm : BitVec 32)
  /-- LOAD_RETURN (R305). -/
  | loadReturn (q : Nat)
  /-- ST (R305). -/
  | st (q : Nat) (p : Pred) (size : BitVec 2) (d a : BitVec 5) (imm : BitVec 32)
  /-- AMO_ADD (R307). -/
  | amoAdd (q : Nat) (p : Pred) (d a b : BitVec 5)
  /-- AMO_CAS (R307). -/
  | amoCas (q : Nat) (p : Pred) (d a b : BitVec 5)
  /-- SYNC (R306). -/
  | sync (q : Nat) (p : Pred)
  /-- SYNC_RETIRE (R306). -/
  | syncRetire (q : Nat)
  /-- B (R309). -/
  | b (q : Nat) (p : Pred) (imm : BitVec 32)
  /-- CALL (R303). -/
  | call (q : Nat) (p : Pred) (imm : BitVec 32)
  /-- BRR (R309). -/
  | brr (q : Nat) (p : Pred) (a : BitVec 5)
  /-- CALLR (R303). -/
  | callr (q : Nat) (p : Pred) (a : BitVec 5)
  /-- DLD (R299). -/
  | dld (q : Nat) (p : Pred) (d a : BitVec 5) (imm : BitVec 32)
  /-- DSV (R299). -/
  | dsv (q : Nat) (p : Pred) (d a : BitVec 5) (imm : BitVec 32)
  /-- DGET (R308). -/
  | dget (q : Nat) (p : Pred) (d a : BitVec 5) (f : BitVec 4)
  /-- DSET (R308). -/
  | dset (q : Nat) (p : Pred) (d a : BitVec 5) (f : BitVec 4)
  /-- DADV (R308). -/
  | dadv (q : Nat) (p : Pred) (d a : BitVec 5)
  /-- DCPY (R303). -/
  | dcpy (q : Nat) (p : Pred) (d a : BitVec 5)
  /-- CRD (R300). -/
  | crd (q : Nat) (p : Pred) (d : BitVec 5) (j : BitVec 8)
  /-- CWR (R300). -/
  | cwr (q : Nat) (p : Pred) (a : BitVec 5) (j : BitVec 8)
  /-- TAKE (R310). -/
  | take (q : Nat) (p : Pred) (d a : BitVec 5)
  /-- TAKE_W (R310). -/
  | takeW (q : Nat) (p : Pred) (d a b : BitVec 5)
  /-- TAKE_W_WAKE (R310). -/
  | takeWWake (q : Nat)
  /-- ISSUE (R311). -/
  | issue (q : Nat) (p : Pred) (n : BitVec 4) (a : BitVec 5) (imm : BitVec 32)
  /-- ISSUE_QUEUE_ROOM (R340). -/
  | issueQueueRoom (q : Nat)
  /-- CREAD (R312). -/
  | cread (q : Nat) (p : Pred) (d : BitVec 5) (n : BitVec 4)
  /-- CWAIT (R312). -/
  | cwait (q : Nat) (p : Pred) (n : BitVec 4) (d a b : BitVec 5)
  /-- CWAIT_WAKE (R312). -/
  | cwaitWake (q : Nat)
  /-- EPOCH (R314). -/
  | epoch (q : Nat) (p : Pred) (d : BitVec 5)
  /-- EPOCHWAIT (R314). -/
  | epochwait (q : Nat) (p : Pred) (a : BitVec 5)
  /-- EPOCHWAIT_S (R314). -/
  | epochwaitS (q : Nat) (p : Pred) (e : BitVec 8)
  /-- EPOCHWAIT_WAKE (R314). -/
  | epochwaitWake (q : Nat)
  /-- SCHED (R314). -/
  | sched (q : Nat) (p : Pred) (d : BitVec 5) (e : BitVec 8)
  /-- WAYPOINT (R315). -/
  | waypoint (q : Nat) (p : Pred) (d : BitVec 5)
  /-- WAYPOINT_WAKE (R315). -/
  | waypointWake (q : Nat)
  /-- WAYPOINT_C (R315). -/
  | waypointC (q : Nat) (p : Pred) (d : BitVec 5)
  /-- NOP (R303). -/
  | nop (q : Nat) (p : Pred)
  /-- PEND (R296). -/
  | pend (q : Nat) (p : Pred)
  /-- TRAP (R317). -/
  | trap (q : Nat) (p : Pred) (code : BitVec 16)
  /-- ERET (R318). -/
  | eret (q : Nat) (p : Pred)
  /-- NOTE (R313). -/
  | note (q : Nat) (p : Pred) (a : BitVec 5)
  /-- PORT_MODE_WRITE (R344). -/
  | portModeWrite (n : BitVec 4) (v : Word)
  /-- CHANNEL_TRAINED (R345). -/
  | channelTrained (c : BitVec 6)
  /-- LANE_FAILURE (R345). -/
  | laneFailure (l : LaneReport)
  /-- CHANNEL_DOWN (R372). -/
  | channelDown (c : BitVec 6)
  /-- FRAME_DISCARD (R346). -/
  | frameDiscard (chan : Nat) (fcs : Bool) (f : Bytes)
  /-- NEIGHBOR_SOLICITATION (R346). -/
  | neighborSolicitation (chan : Nat) (fcs : Bool) (f : Bytes)
  /-- DATA_PACKET_RECEIVE (R357). -/
  | dataPacketReceive (chan : Nat) (fcs : Bool) (f : Bytes)
  /-- DATA_PACKET_SEND (R371). -/
  | dataPacketSend (key : Nat)
  /-- ACK_RECEIVE (R359). -/
  | ackReceive (chan : Nat) (fcs : Bool) (f : Bytes)
  /-- ACK_DELAY_EXPIRY (R358). -/
  | ackDelayExpiry (snode seq : Nat)
  /-- RETRANSMIT_TIMEOUT (R359). -/
  | retransmitTimeout (key : Nat)
  /-- PATH_SUSPECT_END (R354). -/
  | pathSuspectEnd (node path : Nat)
  /-- RATE_PERIOD (R370). -/
  | ratePeriod
  /-- LINGER_EXPIRY (R366). -/
  | lingerExpiry (snode seq : Nat)
  /-- RECEIVE_ABANDON (R366). -/
  | receiveAbandon (snode seq : Nat)
  /-- TP_TIMER_WRITE (R367). -/
  | tpTimerWrite (v : Word)
  /-- TP_RATE_WRITE (R367). -/
  | tpRateWrite (v : Word)
  /-- DEST_CFG_WRITE (R376). -/
  | destCfgWrite (j : BitVec 12) (v : Word)
  /-- WIN_REGISTER (R379). -/
  | winRegister (k : Nat) (addr : BitVec 42)
  /-- WIN_REVOKE (R383). -/
  | winRevoke (k : Nat) (addr : BitVec 42)
  /-- WIN_QUERY (R398). -/
  | winQuery (k : Nat) (addr : BitVec 42)
  /-- BIN_CANCEL (R387). -/
  | binCancel (k : Nat) (j : BitVec 16)
  /-- BIN_QUERY (R398). -/
  | binQuery (k : Nat) (j : BitVec 16)
  /-- UNEXPECTED_AGE_EXPIRY (R386). -/
  | unexpectedAgeExpiry (k id : Nat)
  /-- EVT_TAIL_WRITE (R389). -/
  | evtTailWrite (k : Nat) (v : Word)
  /-- DOORBELL_WRITE (R407). -/
  | doorbellWrite (f : BitVec 4) (k : BitVec 3) (d : BitVec 8) (v : Word) (t : Option (BitVec 3))
  /-- BAR2_READ (R437). -/
  | bar2Read (f : BitVec 4) (x : Nat) (n : BitVec 13) (t : Option (BitVec 3))
  /-- BAR2_WRITE (R437). -/
  | bar2Write (f : BitVec 4) (x : Nat) (b : Bytes) (t : Option (BitVec 3))
  /-- REGISTER_WRITE (R13). -/
  | registerWrite (f : BitVec 4) (off : BitVec 26) (n : BitVec 7) (v : Word) (t : Option (BitVec 3))
  /-- INFO (R411). -/
  | info (f : BitVec 4)
  /-- ECHO (R411). -/
  | echo (f : BitVec 4)
  /-- KEY_GENERATE (R479). -/
  | keyGenerate (f : BitVec 4)
  /-- KEY_LOAD (R479). -/
  | keyLoad (f : BitVec 4)
  /-- KEY_RETIRE (R481). -/
  | keyRetire (f : BitVec 4)
  /-- KEY_CLEAR (R481). -/
  | keyClear (f : BitVec 4)
  /-- KEY_QUERY (R493). -/
  | keyQuery (f : BitVec 4)
  /-- PUBKEY_GET (R493). -/
  | pubkeyGet (f : BitVec 4)
  /-- ATTEST (R487). -/
  | attest (f : BitVec 4)
  /-- ATTEST_LAST (R487). -/
  | attestLast (f : BitVec 4)
  /-- KEY_RELEASE (R489). -/
  | keyRelease (f : BitVec 4)
  /-- CERT_GET (R493). -/
  | certGet (f : BitVec 4)
  /-- MODEL_LOAD (R484). -/
  | modelLoad (f : BitVec 4)
  /-- MODEL_PAGE_ARRIVE (R484). -/
  | modelPageArrive (k j : Nat) (ok : Bool) (page : Bytes)
  /-- MODEL_FREE (R485). -/
  | modelFree (f : BitVec 4)
  /-- FW_UPDATE (R473). -/
  | fwUpdate (f : BitVec 4)
  /-- FW_COMMIT_SVN (R473). -/
  | fwCommitSvn (f : BitVec 4)
  /-- LCS_NONCE (R465). -/
  | lcsNonce (f : BitVec 4)
  /-- LCS_ADVANCE (R464). -/
  | lcsAdvance (f : BitVec 4)
  /-- DEBUG_SET (R466). -/
  | debugSet (f : BitVec 4)
  /-- CERT_INSTALL (R493). -/
  | certInstall (f : BitVec 4)
  /-- FW_KEY_REVOKE (R473). -/
  | fwKeyRevoke (f : BitVec 4)
  /-- SHELF_DEFINE (R444). -/
  | shelfDefine (f : BitVec 4)
  /-- SHELF_QUERY (R445). -/
  | shelfQuery (f : BitVec 4)
  /-- TENANT_SWITCH (R451). -/
  | tenantSwitch (f : BitVec 4)
  /-- QUIET_SET (R445). -/
  | quietSet (f : BitVec 4)
  /-- MAILBOX_FIXED_RELEASE (R461). -/
  | mailboxFixedRelease (f : BitVec 4)
  /-- SPDM_REQUEST (R413). -/
  | spdmRequest (b : Bytes)
  /-- GET_MEASUREMENTS (R488). -/
  | getMeasurements (index : BitVec 8) (nonce : Bytes)
  /-- IDE_KM_KEY_PROG (R413). -/
  | ideKmKeyProg (n : BitVec 4) (set_ : BitVec 1) (sub : BitVec 2) (rx : Bool) (key : Bytes)
  /-- IDE_KM_K_SET_GO (R413). -/
  | ideKmKSetGo (n : BitVec 4) (set_ : BitVec 1) (sub : BitVec 2) (rx : Bool)
  /-- IDE_KM_K_SET_STOP (R413). -/
  | ideKmKSetStop (n : BitVec 4) (set_ : BitVec 1) (sub : BitVec 2) (rx : Bool)
  /-- IDE_KM_QUERY (R413). -/
  | ideKmQuery
  /-- IDE_INTEGRITY_FAILURE (R413). -/
  | ideIntegrityFailure (n : BitVec 4)
  /-- LOCK_INTERFACE_REQUEST (R414). -/
  | lockInterfaceRequest (k : Nat) (stream : BitVec 3) (msix : Bool)
  /-- START_INTERFACE_REQUEST (R414). -/
  | startInterfaceRequest (k : Nat)
  /-- STOP_INTERFACE_REQUEST (R416). -/
  | stopInterfaceRequest (k : Nat)
  /-- GET_DEVICE_INTERFACE_REPORT (R415). -/
  | getDeviceInterfaceReport (k : Nat)
  /-- LOCKED_CONFIG_WRITE (R415). -/
  | lockedConfigWrite (f : BitVec 4) (c : CfgField)
  /-- FLR_VF (R418). -/
  | flrVf (f : BitVec 4)
  /-- FLR_PF (R418). -/
  | flrPf
  /-- LINK_DOWN (R417). -/
  | linkDown
  /-- PATROL_SCRUB_LINE (R432). -/
  | patrolScrubLine (line : Nat)
  /-- CEL_RETRY_FULL (R428). -/
  | celRetryFull (k : BitVec 3)
  /-- CONTEXT_SWITCH (R449). -/
  | contextSwitch (k : Nat) (target : BitVec 4)
  /-- CONTEXT_DELETE (R450). -/
  | contextDelete (k : Nat) (target : BitVec 4)
  /-- BAY_FAULT (R542). -/
  | bayFault (b : BitVec 4) (bist : Bool)
  /-- SHELF_RESTORE (R543). -/
  | shelfRestore (k : Nat)
  /-- WARM_RESTORE (R544). -/
  | warmRestore (k : Nat)
  /-- TAKEOVER (R546). -/
  | takeover (k : Nat) (v : Word) (status : BitVec 8) (image : Bytes)
  /-- WEAR_SAMPLE (R552). -/
  | wearSample (m : BitVec 3) (unit : BitVec 7) (v : Rat) (group : BitVec 16)
  /-- HEALTH_DAY_CLOSE (R553). -/
  | healthDayClose
  /-- HEALTH_HOURLY_EVAL (R557). -/
  | healthHourlyEval
  /-- I3C_DYNAMIC_ADDRESS (R584). -/
  | i3cDynamicAddress (a : BitVec 7)
  /-- I3C_PRIVATE_WRITE (R585). -/
  | i3cPrivateWrite (b : Bytes)
  /-- I3C_PRIVATE_READ (R585). -/
  | i3cPrivateRead (n : BitVec 8)
  /-- I3C_ENEC (R586). -/
  | i3cEnec
  /-- PERST_L_RELEASE (R571). -/
  | perstLRelease (x : Finds)
  /-- PCIE_LINK_UP (R400). -/
  | pcieLinkUp (flit : Bool) (rate : BitVec 4) (width : BitVec 5)
  /-- CONFIG_SPACE_WRITE (R403). -/
  | configSpaceWrite (f : BitVec 4) (c : CfgField)
  /-- MSIX_VECTOR_UNMASK (R404, R408): host software writes an entry of function f in BAR4. -/
  | msixVectorUnmask (f : BitVec 4) (v : MsixEntry)
  /-- INSTRUCTION_FETCH_FAULT (R317). -/
  | instructionFetchFault (q : Nat)
  /-- REGISTER_READ (R13). -/
  | registerRead (f : BitVec 4) (off : BitVec 26) (n : BitVec 7) (t : Option (BitVec 3))
  /-- CELLAR_CHANNEL_LOST (R435). -/
  | cellarChannelLost (k : BitVec 3) (c : BitVec 5)
  deriving DecidableEq, Repr

end Sys2Proof
end

