-- ==== Sys2Proof/Decode.lean ====
section
/-!
DEFINITION. The decoder of the opcode table's words. The table gives no row of this block any bits, so no word spells a command.
-/
namespace Sys2Proof

/-- The command that a word of nbits bits spells by the table's bits: none, since the table gives its rows none. [log 2 DESIGN CHOICE] -/
def decodeTableWord (_nbits _w : Nat) : Option Instr := none

end Sys2Proof
end

