-- ==== Sys2Proof/Machine/State.lean ====
section
/-!
DEFINITION. The state of the KA2 as plain data, and the state after reset.
-/
namespace Sys2Proof.Machine

/-! ### Common -/

/-- The eighteen status codes of R21; no other value is ever produced (R22). -/
inductive Status where
  | ok | provisional | windowRevoked | retryExhausted | remoteFault | noBin | keysetMismatch
  | noiseExhausted | paramUnsupported | verdictReject | lateCrate | specRefused | uncorrectable
  | poisoned | deniedAttribute | tamperAbort | keyRetired | shelfFenced
  deriving DecidableEq, Repr

/-- What a memory line holds that is not plain good data: an error that ECC corrects, one beyond correction, or the
poisoned marker (R422, R430). [log 35 DESIGN CHOICE, 178 DESIGN CHOICE] -/
inductive LineMark where
  | corrected | uncorrectable | poisoned
  deriving DecidableEq, Repr

/-! ### Sequencers (11_sequencer_isa.md) -/

/-- A vector descriptor register d0-d15: the fields of the 32-byte image of R299. -/
structure VDesc where
  base   : BitVec 48 := 0
  len    : BitVec 32 := 0
  rows   : BitVec 32 := 0
  stride : BitVec 32 := 0
  off    : BitVec 32 := 0
  etype  : BitVec 8 := 0
  scaleE : BitVec 8 := 0
  ring   : BitVec 6 := 0
  rsrc   : Bool := false
  deriving DecidableEq, Repr

/-- SEQ_STATE.RUN (R322). -/
inductive Run where
  | idle | running | waiting | stopped
  deriving DecidableEq, Repr

/-- What a waiting sequencer waits for, with what its instruction does when the wait ends
(SEQ_STATE.WAIT, R322). -/
inductive Wait where
  | none
  | load (d : BitVec 5) (bytes : Nat) (signed : Bool) (addr : Nat)
  | loadDesc (d : BitVec 5) (addr : Nat)
  | queueFull (q : Nat) (desc : Bytes)
  | counter (pd : BitVec 5) (q : Nat) (target : BitVec 32) (deadline : Word)
  | epoch (t : Word)
  | take (pd : BitVec 5) (addr : Nat) (deadline : Word)
  | waypoint (d : BitVec 5) (after : Nat)
  | sync
  deriving DecidableEq, Repr

/-- A store that has retired into the store buffer and is not yet performed (R305). -/
structure PendingStore where
  addr : Nat
  data : Bytes
  deriving DecidableEq, Repr

/-- The 64-byte crate record that intake delivers (R101). -/
structure CrateRecord where
  logSeq      : Nat
  time        : Nat
  client      : Nat
  kind        : Nat
  sigScheme   : Nat
  ring        : Nat
  entryOffset : Nat
  payloadLen  : Nat
  proofLen    : Nat
  trailerLen  : Nat
  elemCount   : Nat
  coordOffset : Nat
  deriving DecidableEq, Repr

/-- One sequencer (R298, R300, R322). Registers g1-g31 and d0-d15 not listed are zero. [log 10 DESIGN CHOICE] -/
structure Seq where
  g        : Tab Word := []
  p        : BitVec 8 := 1
  d        : Tab VDesc := []
  pc       : Nat := 0
  hmode    : Bool := false
  epc      : Word := 0
  ecause   : Word := 0
  eaddr    : Word := 0
  evec     : Word := 0
  scratch  : Tab Word := []
  retired  : Nat := 0
  cycle    : Nat := 0
  run      : Run := .idle
  pended   : Bool := false
  wait     : Wait := .none
  note     : Word := 0
  noteUnread : Bool := false
  noteLost : Bool := false
  stores   : List PendingStore := []
  inbox    : List CrateRecord := []
  deriving DecidableEq, Repr

/-! ### Queues (12_engine_queues.md) -/

/-- A queue entry: the 64 descriptor bytes, whether a word of it is uncorrectable (R325) or was
corrected, and, for a FENCE, the write pointers recorded at its ISSUE as counts of commands placed
(R338). [log 36 DEDUCED, 122 DEDUCED] -/
structure QEntry where
  desc   : Bytes
  bad    : Bool := false
  fixed  : Nat := 0
  marks  : List Nat := []
  deriving DecidableEq, Repr

/-- A command that a unit has accepted and the queue has not yet counted (R327, R329). `result` is
its status once it has finished. -/
structure InFlight where
  desc    : Bytes
  kind    : Nat
  result  : Option Status := Option.none
  detail  : Nat := 0
  skipped : Bool := false
  marks   : List Nat := []
  deriving DecidableEq, Repr

/-- One of a sequencer's twelve queues (R323, R324, R329, R342). -/
structure Queue where
  entries  : List QEntry := []
  wp       : Nat := 0
  rp       : Nat := 0
  inflight : List InFlight := []
  count    : BitVec 32 := 0
  placed   : Nat := 0
  counted  : Nat := 0
  recent   : List Status := []
  halted   : Bool := false
  haltStatus : Status := .ok
  corr     : Nat := 0
  deriving DecidableEq, Repr

/-- Per sequencer: QREC and QERR (R342). -/
structure QErr where
  qrec     : Word := 0
  first    : Nat := 0
  cfgErr   : Bool := false
  nonok    : Nat := 0
  recLost  : Nat := 0
  uncorr   : Nat := 0
  deriving DecidableEq, Repr

/-! ### Fold units (04_folding.md) -/

/-- A Cask descriptor with its Cask words and Keg elements (R112, R113, R141). `cfg`, `area` and
`keg` are the registers; `live` lists the rows that are not fresh, `bad` the poisoned Cask rows,
`kegBad` the poisoned 512-byte Keg rows. Elements not listed hold the identity of the Cask's
arithmetic (R118), a Keg element likewise in Keg form. `old` keeps the words that a fresh row still stores from an
earlier use (R142); a fresh row without them stores what its bytes of the bay store hold. `scrubArea` and `scrubKeg` are the
areas that SCRUB zeroises (R115). `plain` says the Cask holds sealed-mode plaintext (R249). -/
structure Cask where
  cfg     : Word := 0
  area    : Word := 0
  keg     : Word := 0
  kegInit : Bool := false
  wrIgnored : Bool := false
  cfgErr  : Bool := false
  scrub   : Bool := false
  spills  : Nat := 0
  folds   : Nat := 0
  inexact : Nat := 0
  sat     : Nat := 0
  nan     : Nat := 0
  live    : List Nat := []
  bad     : List Nat := []
  words   : Tab Nat := []
  kegs    : Tab Nat := []
  kegBad  : List Nat := []
  old     : Tab Nat := []
  scrubArea : Nat × Nat := (0, 0)
  scrubKeg  : Nat × Nat := (0, 0)
  plain   : Bool := false
  deriving DecidableEq, Repr

/-- A command in the hold station (R128): its sequencer and queue, its bay's Cask and range, and
the pending ledger entries it waits for are found from the ledger. `ended` says that the round in which
it was accepted has ended. -/
structure Held where
  seq   : Nat
  queue : Nat
  ended : Bool := false
  deriving DecidableEq, Repr

/-- A retraction command sent to a fold unit by the ledger (R156). -/
structure Retraction where
  shelf  : Nat
  logSeq : Nat
  seg    : Nat
  deriving DecidableEq, Repr

/-! ### The ledger (05_provisional_folding.md) -/

/-- VERDICT of a ledger entry record (R162). -/
inductive Verdict where
  | pending | commit | retract
  deriving DecidableEq, Repr

/-- A segment record (R162); `retired` says its retraction has retired (R155), `cut` how many waypoint
cuts came before its acceptance (R157). -/
structure Segment where
  bay      : Nat
  cask     : Nat
  seg      : Nat
  neg      : Bool
  etype    : Nat
  scaleE   : Nat
  coff     : Nat
  count    : Nat
  srcOff   : Nat
  tile     : Nat
  retractAcc : Bool := false
  retired  : Bool := false
  cut      : Nat := 0
  deriving DecidableEq, Repr

/-- A ledger entry (R146, R162). -/
structure LedgerEntry where
  logSeq  : Nat
  client  : Nat
  plan    : Nat
  verdict : Verdict := .pending
  reason  : Nat := 0
  forced  : Bool := false
  unreadable : Bool := false
  segs    : List Segment := []
  deriving DecidableEq, Repr

/-- The ledger slice and registers of a shelf (R145, R166). `rowBad` says that an SRAM row of the slice holds an error beyond
correction that the ledger has not read yet, `steered` that such a row waits for its spare (R164). [log 48 DEDUCED] -/
structure Ledger where
  entries  : List LedgerEntry := []
  rowBad   : Bool := false
  steered  : Bool := false
  highOpen : Nat := 0
  retractSegs : Nat := 0
  noopSegs : Nat := 0
  stalls   : Nat := 0
  forced   : Nat := 0
  fault    : Bool := false
  rollback : Bool := false
  status   : Nat := 0
  faultSeq : Nat := 0
  deriving DecidableEq, Repr

/-! ### Intake (03_crates_and_intake.md) -/

/-- A ring entry (R91): where it starts in the ring's space, how many bytes the ring took before it, the message's bytes as placed, the
ranges that an error beyond ECC covers and the SRAM words with an error that ECC corrects (R94), and whether its crate is settled (R93). The
first `head` bytes are in the head or read from it, those from there to `mid` in the middle, and the rest in the tail. [log 25 DEDUCED, 36 DEDUCED] -/
structure RingEntry where
  offset  : Nat
  len     : Nat
  logSeq  : Nat
  data    : Bytes := []
  bad     : List (Nat × Nat) := []
  fixed   : List Nat := []
  pos     : Nat := 0
  head    : Nat := 0
  mid     : Nat := 0
  settled : Bool := false
  deriving DecidableEq, Repr

/-- An intake ring (R90, R94, R102). `reserve` are the ranges of the slice that its head and tail take (R42); `total` counts the bytes
allocated. `next` is the sequencer of SEQ_MASK that the rotation offers
the next record to; `waiting` are the records not yet delivered, oldest first. -/
structure Ring where
  middleBase : Nat
  middleSize : Nat
  bay        : Nat
  seqMask    : Nat
  highWater  : Nat
  reserve    : List (Nat × Nat) := []
  full       : Bool := false
  high       : Bool := false
  corrected  : Nat := 0
  uncorrected : Nat := 0
  head       : Nat := 0
  total      : Nat := 0
  entries    : List RingEntry := []
  next       : Nat := 0
  waiting    : List CrateRecord := []
  deriving DecidableEq, Repr

/-- STATE of a crate-log entry (R106). -/
inductive LogState where
  | arriving | admitted | committed | retracted | refused | share
  deriving DecidableEq, Repr

/-- A crate-log entry (R106, R107). `offset` is its place in the log region; `covered` counts the
waypoints completed since it settled; `settledAt` is the number of waypoint cuts taken before that; `body` is the length of its payload and
proof material, `scheme` its SIG_SCHEME. -/
structure LogEntry where
  logSeq  : Nat
  offset  : Nat
  len     : Nat
  state   : LogState := .arriving
  time    : Nat := 0
  roundId : Nat := 0
  client  : Nat := 0
  ring    : Nat := 0
  kind    : Nat := 0
  entryOffset : Nat := 0
  body    : Nat := 0
  scheme  : Nat := 0
  key     : Bytes := []
  covered : Nat := 0
  settledAt : Nat := 0
  taken   : Bool := false
  deriving DecidableEq, Repr

/-- Intake state of a shelf (R88-R109). -/
structure Intake where
  rings      : Tab Ring := []
  log        : List LogEntry := []
  nextSeq    : Nat := 0
  logHead    : Nat := 0
  clogFull   : Bool := false
  coveredSeq : Word := 0xFFFFFFFFFFFFFFFF
  rejNext    : Nat := 0
  rejLost    : Nat := 0
  rejWritten : Nat := 0
  ringResult : Nat := 0
  ringCmd    : Word := 0
  shareSenders : List Nat := []
  deriving DecidableEq, Repr

/-! ### Rounds (02_rounds.md) -/

/-- The phases of R52, in code order. -/
inductive Phase where
  | idle | open_ | collect | recover | unmask | noise | step | seal | release
  deriving DecidableEq, Repr

/-- The outcomes of R53. -/
inductive RoundOutcome where
  | none_ | released | refusedDescriptor | refusedCohort | abandoned | expired | cancelled
  | faulted | diverged
  deriving DecidableEq, Repr

/-- The fields of the round descriptor (R48), as read once at START (R47). -/
structure RoundDesc where
  raw        : Bytes := []
  magic      : Nat := 0
  version    : Nat := 0
  mode       : Nat := 0
  flags      : Nat := 0
  roundId    : Nat := 0
  cohortId   : Nat := 0
  clientBase : Nat := 0
  clientCount : Nat := 0
  minCohort  : Nat := 0
  elemType   : Nat := 0
  foldOp     : Nat := 0
  scaleE     : Nat := 0
  sigSchemes : Nat := 0
  elemCount  : Nat := 0
  coordOffset : Nat := 0
  modulus    : Nat := 0
  degree     : Nat := 0
  threshold  : Nat := 0
  groupSize  : Nat := 0
  groupIndex : Nat := 0
  inst       : Nat := 0
  tOpen      : Nat := 0
  tCut       : Nat := 0
  tExchange  : Nat := 0
  tRelease   : Nat := 0
  tDeadline  : Nat := 0
  waypointMs : Nat := 0
  graphSeed  : Bytes := []
  keysetId   : Nat := 0
  modelAddr  : Nat := 0
  releaseAddr : Nat := 0
  noiseAddr  : Nat := 0
  optAddr    : Nat := 0
  ringMask   : Nat := 0
  signSlot   : Nat := 0
  sealSlot   : Nat := 0
  peerSlot   : Nat := 0
  programDigest : Bytes := []
  deriving DecidableEq, Repr

/-- The round controller of a shelf and its registers (R44-R78). `tableSent` says that the one-bit table has
been sent (R67); `lo` is ROUND_LO; `sum` is the sum area of a sealed round (R243). [log 13 DEDUCED] -/
structure Round where
  active    : Bool := false
  phase     : Phase := .idle
  holdover  : Bool := false
  startRefused : Bool := false
  outcome   : RoundOutcome := .none_
  detail    : Status := .ok
  badField  : Nat := 0
  desc      : RoundDesc := {}
  descDigest : Bytes := []
  highId    : Option Nat := Option.none
  lo        : Nat := 0
  committed : Nat := 0
  rejected  : Nat := 0
  late      : Nat := 0
  duplicate : Nat := 0
  dropped   : Nat := 0
  divergent : Nat := 0
  begun     : Bool := false
  cutPassed : Bool := false
  exchPassed : Bool := false
  frozen    : Bool := false
  restart   : Bool := false
  ownDigest : Bytes := []
  peerDigests : Tab Bytes := []
  peerTables : Tab Bytes := []
  tableSent : Bool := false
  sealDone  : Bool := false
  sum       : Nat × Nat := (0, 0)
  deriving DecidableEq, Repr

/-- The loaded round program of a shelf (R320-R322). `text` holds the 64-bit words, `badText` the
(bay, word index) pairs whose stored word is beyond correction (R294), `fixText` those whose stored word the SECDED code corrects; `stopping` says that host software has stopped the service run; `addr` is the address of the last load (R543). -/
structure Prog where
  loaded   : Bool := false
  bays     : Nat := 0
  text     : List Word := []
  data     : Bytes := []
  dataOff  : Nat := 0
  entries  : List Nat := []
  digest   : Bytes := []
  result   : Nat := 0
  service  : Bool := false
  stopping : Bool := false
  badText  : List (Nat × Nat) := []
  fixText  : List (Nat × Nat) := []
  addr     : Nat := 0
  deriving DecidableEq, Repr

/-! ### Shelves (17_shelves_and_contexts.md) -/

/-- The shelf descriptor in force (R443); `raw` is its 1,152 bytes. -/
structure ShelfDesc where
  raw       : Bytes := []
  flags     : Nat := 0
  bayPairs  : Nat := 0
  weight    : Nat := 0
  seqView   : Nat := 0
  contexts  : Nat := 0
  ledger256 : Nat := 0
  seg4k     : Nat := 0
  win256    : Nat := 0
  bin256    : Nat := 0
  flightA   : Nat := 0
  flightB   : Nat := 0
  half      : Nat := 0
  quietMhz  : Nat := 0
  quietW    : Nat := 0
  portsOwn  : Nat := 0
  portsShared : Nat := 0
  slots     : List Nat := []
  pcs       : List Nat := []
  deriving DecidableEq, Repr

/-- SHELF_STATUS.STATE (R462). -/
inductive ShelfState where
  | ready | switching | fenced
  deriving DecidableEq, Repr

/-! ### Recovery (06_masks_and_recovery.md) -/

/-- One stored share (R180, R181): its three limbs. -/
structure Share where
  l0 : Nat
  l1 : Nat
  l2 : Nat
  deriving DecidableEq, Repr

/-- Recovery state of a shelf (R183-R188). `shares` is keyed by target × (k + 1) + holder position,
the target counted from CLIENT_BASE; `secrets`, `selfKeys` by client from CLIENT_BASE; `pairs` by
pair-table slot; `folded` counts mask elements folded by bay × 64 + Cask. [log 50 DEDUCED] -/
structure Recov where
  checked   : Bool := false
  short     : Bool := false
  checkFail : Bool := false
  complete  : Bool := false
  firstBad  : Nat := 0
  accepted  : Nat := 0
  wrongKind : Nat := 0
  invalid   : Nat := 0
  unused    : Nat := 0
  secretsN  : Nat := 0
  pairsN    : Nat := 0
  digest    : Bytes := []
  shares    : Tab Share := []
  secrets   : Tab Bytes := []
  selfKeys  : Tab Bytes := []
  pairs     : Tab Bytes := []
  folded    : Tab Nat := []
  deriving DecidableEq, Repr

/-! ### Shared mode and group messages (07_shared_mode.md) -/

/-- A share refresh in progress (R212-R214): the seeds by peer, whether this device's share is written
(step 4), the bodies of step 5 by peer as they came, and whose digests agree (step 5). -/
structure ShRefresh where
  busy   : Bool := false
  result : Status := .ok
  id     : Nat := 0
  obj    : Nat := 0
  limit  : Nat := 0
  slot   : Nat := 0
  seeds  : Tab Bytes := []
  wrote  : Bool := false
  bodies : Tab Bytes := []
  agreed : List Nat := []
  deriving DecidableEq, Repr

/-- Shared-mode and group-message state of a shelf (R197-R215). `queued` holds the records waiting
for each peer with the time each was queued; `txSeq` and `rxSeen` the SEQ state by
peer × 256 + kind; `held` the envelopes that wait for relay-ring space (peer, tag, bytes); `flpv` the
LOG_SEQs whose FLPV has been accepted, with the client and the crate's public share, `flpvOk` those that completed OK; `rejectSent` and
`rejectFrom` the clients for which a REJECT went out or ended the FLPV. -/
structure Verif where
  accepted    : Nat := 0
  rejectJoint : Nat := 0
  rejectLocal : Nat := 0
  rejectPeer  : Nat := 0
  bad         : Nat := 0
  lost        : Nat := 0
  orphans     : Nat := 0
  lateReject  : Nat := 0
  sent        : Nat := 0
  peerBad     : Nat := 0
  queued      : Tab (List (Nat × Bytes)) := []
  txSeq       : Tab Nat := []
  rxSeen      : Tab (List Nat) := []
  head        : Nat := 0
  held        : List (Nat × Nat × Bytes) := []
  flpv        : Tab (Nat × Bytes) := []
  flpvOk      : List Nat := []
  rejectSent  : List Nat := []
  rejectFrom  : List Nat := []
  shref       : ShRefresh := {}
  deriving DecidableEq, Repr

/-! ### Transport (13_basdo_transport.md) -/

/-- A fabric port (R344, R345, R373): bit masks by channel and lane, and its counters. `failed` is the mask of lanes
that failed with no spare free. -/
structure Port where
  up        : Nat := 0
  training  : Nat := 0
  laneOk    : Nat := 0
  spareHere : Bool := false
  spareLane : Nat := 0
  degraded  : Bool := false
  failed    : Nat := 0
  retrains  : Nat := 0
  fecCorr   : Nat := 0
  fecUncorr : Nat := 0
  fcs       : Nat := 0
  other     : Nat := 0
  pause     : Nat := 0
  vlan      : Nat := 0
  deriving DecidableEq, Repr

/-- Where the bytes of a message lie at its sender: bytes held by the device, or blocks of shelf
memory as (address, length). -/
inductive TxSource where
  | held (b : Bytes)
  | blocks (l : List (Nat × Nat))
  deriving DecidableEq, Repr

/-- What a message was sent for, and so what its end does: a queue's command, by its place in the order of
the queue's commands; a group envelope; a part of a waypoint; a read response; a waypoint acknowledgement,
retried until a limit. -/
inductive TxUse where
  | command (q : Nat) (n : Nat) (id : Nat)
  | envelope (shelf : Nat) (peer : Nat) (kind : Nat) (records : Nat)
  | buddy (shelf : Nat) (cut : Nat)
  | response (shelf : Nat) (window : Nat)
  | wptAck (shelf : Nat) (limit : Nat)
  deriving DecidableEq, Repr

/-- States of a message at its sender (R365). -/
inductive TxState where
  | wait | send | drain
  deriving DecidableEq, Repr

/-- A message at its sender (R349, R353-R365), keyed by MSG_SEQ. `sent` gives, by packet, the path of
its last transmission; `acked` the packets acknowledged; `timer` when the retransmit timer was last
started. For an RMA.RD, `place` is its destination and `placed` the bytes placed. -/
structure TxMsg where
  shelf   : Nat
  use     : TxUse
  op      : Nat
  flow    : Nat
  prev    : Nat := 0
  len     : Nat
  source  : TxSource
  index   : Nat := 0
  keyTag  : Nat := 0
  roff    : Nat := 0
  tshelf  : Nat := 0
  dest    : Nat := 0
  node    : Nat := 0
  addr    : Nat := 0
  paths   : Nat := 1
  chan    : Nat := 0
  alt     : Nat := 0
  sealed  : Bool := false
  place   : List (Nat × Nat) := []
  placed  : Nat := 0
  state   : TxState := .wait
  sent    : Tab Nat := []
  onChan  : Tab Nat := []
  acked   : List Nat := []
  cum     : Nat := 0
  tries   : Nat := 0
  timer   : Nat := 0
  ce      : Nat := 0
  order   : Nat := 0
  flowRec : Bool := false
  deriving DecidableEq, Repr

/-- States of a message at its receiver (R366); a refusal lingers too. -/
inductive RxState where
  | placing | held | linger | refused
  deriving DecidableEq, Repr

/-- Where an admitted message is placed. -/
inductive RxTarget where
  | none
  | window (w : Nat)
  | ring (r : Nat) (logSeq : Nat)
  | bin (b : Nat)
  | group (b : Nat) (off : Nat)
  | unex (id : Nat)
  | read (seq : Nat)
  deriving DecidableEq, Repr

/-- A message at its receiver (R356-R366), keyed by SNODE × 2^32 + MSG_SEQ. `cause` is the channel of
the last packet, `srcAddr`, `sport` and `flowLabel` what its frame carried; `tag` holds the GCM tag of a sealed message; `waiting` says that
its delivery waits for space in the event ring (R389). -/
structure RxMsg where
  sshelf  : Nat
  tshelf  : Nat
  flow    : Nat
  op      : Nat
  len     : Nat
  index   : Nat
  keyTag  : Nat
  roff    : Nat
  mss     : Nat
  prev    : Nat
  target  : RxTarget
  state   : RxState := .placing
  status  : Status := .ok
  packets : List Nat := []
  ce      : Nat := 0
  marked  : List Nat := []
  lastAt  : Nat := 0
  endAt   : Nat := 0
  sinceAck : Nat := 0
  firstAt : Nat := 0
  cause   : Nat := 0
  srcAddr : Nat := 0
  sport   : Nat := 0
  flowLabel : Nat := 0
  path    : Nat := 0
  echo    : Nat := 0
  waiting : Bool := false
  sealed  : Bool := false
  tag     : Bytes := []
  deriving DecidableEq, Repr

/-- A rate record (R370), keyed by channel × 65536 + NODE: the rate in Mb/s, α, and the counts of the
period. `used` orders the records by use. -/
structure Rate where
  r      : Nat
  alpha  : Rat := 0
  inc    : Nat := 0
  acked  : Nat := 0
  marked : Nat := 0
  used   : Nat := 0
  deriving DecidableEq, Repr

/-- A path of a destination (R354): retransmit timeouts in a row, and until when it is skipped. -/
structure PathState where
  timeouts : Nat := 0
  suspect  : Bool := false
  since    : Nat := 0
  deriving DecidableEq, Repr

/-- The transport (R343-R375). `wire` lists the frames sent, newest first, as (channel, bytes). -/
structure Transport where
  seq      : Nat := 0
  order    : Nat := 0
  tx       : Tab TxMsg := []
  rx       : Tab RxMsg := []
  rates    : Tab Rate := []
  pathTab  : Tab PathState := []
  wire     : List (Nat × Bytes) := []
  finish   : Tab Nat := []
  served   : Nat := 0
  stamps   : Tab Nat := []
  cfgErr   : Bool := false
  retx     : Nat := 0
  timeouts : Nat := 0
  exhausted : Nat := 0
  refusedRx : Nat := 0
  abandoned : Nat := 0
  silent   : Nat := 0
  badHdr   : Nat := 0
  checksum : Nat := 0
  outOfWindow : Nat := 0
  duplicate : Nat := 0
  deriving DecidableEq, Repr

/-! ### Windows, bins and events (14_remote_access.md) -/

/-- Window states (R377). -/
inductive WinState where
  | free | open_ | draining
  deriving DecidableEq, Repr

/-- A window: its state, its in-flight count and the fields of its descriptor (R378). -/
structure Window where
  state    : WinState := .free
  inflight : Nat := 0
  kind     : Nat := 0
  attr     : Nat := 0
  base     : Nat := 0
  len      : Nat := 0
  key32    : Nat := 0
  ring     : Nat := 0
  notify   : Nat := 0
  allow    : Nat := 0
  deriving DecidableEq, Repr

/-- Bin states (R384, R387). -/
inductive BinState where
  | free | posted | bound
  deriving DecidableEq, Repr

/-- A bin (R384). `order` is its place in the posting order; `blocks` the buffer as (address, length);
`base` and `size` a group bin's region, `used` its allocations as (offset, length). -/
structure Bin where
  state   : BinState := .free
  kind    : Nat := 0
  tag     : Nat := 0
  mask    : Nat := 0
  seal_   : Bool := false
  notifyEn : Bool := false
  notify  : Nat := 0
  order   : Nat := 0
  ring    : Nat := 0
  blocks  : List (Nat × Nat) := []
  base    : Nat := 0
  size    : Nat := 0
  used    : List (Nat × Nat) := []
  deriving DecidableEq, Repr

/-- An unexpected message (R386). `bin` is the bin it was matched to, if any; `aged` says that it has waited AGE_MS and its
event waits for space. -/
structure Unex where
  id       : Nat
  off      : Nat
  len      : Nat
  snode    : Nat
  sshelf   : Nat
  tag      : Nat
  msgSeq   : Nat
  delivered : Bool := false
  at_      : Nat := 0
  bin      : Option Nat := Option.none
  gone     : Bool := false
  aged     : Bool := false
  deriving DecidableEq, Repr

/-- Remote-access state of a shelf (R377-R398). `evtQueue` holds the event entries that wait for space
(R389); `group` the delivered envelopes that wait for the round controller, as (tag, bin, address, length). -/
structure Remote where
  winOp     : Nat := 0
  winResult : Nat := 0
  winState  : Nat := 0
  winInflight : Nat := 0
  winGen    : Nat := 0
  binResult : Nat := 0
  binState  : Nat := 0
  evtHead   : Nat := 0
  evtTail   : Nat := 0
  evtQueue  : List Bytes := []
  postOrder : Nat := 0
  unex      : List Unex := []
  unexId    : Nat := 0
  unexHead  : Nat := 0
  group     : List (Nat × Nat × Nat × Nat) := []
  buddyFail : Bool := false
  buddyStatus : Nat := 0
  refused   : Nat := 0
  noBin     : Nat := 0
  sealFail  : Nat := 0
  unexAged  : Nat := 0
  tpsRetx   : Nat := 0
  tpsExhausted : Nat := 0
  tpsSilent : Nat := 0
  deriving DecidableEq, Repr

/-! ### Sealed mode (08_sealed_mode.md) and the refresh macro (09_refresh.md) -/

/-- A loaded parameter-set entry: the 1,024 bytes as read (R217, R218). -/
structure PSet where
  block : Bytes
  deriving DecidableEq, Repr

/-- A resident key-set entry: where its image lies, its size in units of 64 KiB, its parameter-set
entry and header bytes 0x0000-0x10FF (R224, R228). -/
structure KSet where
  base   : Nat
  units  : Nat
  pset   : Nat
  header : Bytes
  deriving DecidableEq, Repr

/-- States of a refresh slot (R258). -/
inductive RState where
  | free | gather | running | paused | suspended | done
  deriving DecidableEq, Repr

/-- A refresh slot: its identity (R259, R262), the parts accepted as (PART, bay), the last valid
marker, the status of the last refresh that ended in it, and whether it has restarted under R266.
`zeroBudget` says that a MARK source was exhausted (R263), `inRound` that it was issued in a round
(R267, R268), `resume` that its parts are those of a REFRESH.RESUME. -/
structure RSlot where
  state    : RState := .free
  partsN   : Nat := 0
  parts    : List (Nat × Nat) := []
  kset     : Nat := 0
  last     : Nat := 0
  status   : Status := .ok
  src      : Nat := 0
  dst      : Nat := 0
  keysetId : Nat := 0
  paramFp  : Nat := 0
  digest   : Bytes := []
  head     : Bytes := []
  outLen   : Nat := 0
  zeroBudget : Bool := false
  restarted  : Bool := false
  inRound    : Bool := false
  resume     : Bool := false
  deriving DecidableEq, Repr

/-- Lattice state of a shelf (R252, R269). -/
structure Lattice where
  psets    : Tab PSet := []
  ksets    : Tab KSet := []
  psetCmd  : Word := 0
  psetResult : Nat := 0
  ksetCmd  : Word := 0
  ksetResult : Nat := 0
  mismatch : Nat := 0
  exhausted : Nat := 0
  autoN    : Nat := 0
  marked   : Nat := 0
  slots    : Tab RSlot := []
  refCtl   : Word := 0
  refResult : Nat := 0
  window   : Bool := false
  deriving DecidableEq, Repr

/-- State of a sealed round (R243-R250, R252). `drained` lists the byte ranges of the sum area drained
since freeze, as (offset, length); `stored` the holders whose slot of the partial region holds a
partial; `waiting` those whose digests are not yet checked; `passed` the peers whose partials
passed, in the order of their checks. -/
structure SealSt where
  sumHdr    : Bool := false
  sumReady  : Bool := false
  pdecDone  : Bool := false
  combined  : Bool := false
  keysetDiscard : Bool := false
  sumBudget : Nat := 0
  sumDigest : Bytes := []
  drained   : List (Nat × Nat) := []
  pdecObjs  : List Nat := []
  combObjs  : List Nat := []
  stored    : List Nat := []
  waiting   : List Nat := []
  passed    : List Nat := []
  set_      : List Nat := []
  unreliable : Bool := false
  surplus   : Nat := 0
  badPartial : Nat := 0
  resent    : Nat := 0
  deriving DecidableEq, Repr

/-! ### Release (10_release.md) -/

/-- Release state of a shelf (R270-R292). The blocks are as read at START; `groups` lists the NOISED
groups by bay × 64 + Cask, each as tile × 65536 + group; `steps` and `gather` the shard elements
stepped and the payload elements gathered, `stepBad` and
`gatherBad` those that a poisoned Keg row kept out; `writing` says the inactive buffer is being written, `copy`
that the shard copy exists; `key` is the
sealing key bound for the pass and `sigs` the two signatures being made. -/
structure Rel where
  noised   : Bool := false
  stepped  : Bool := false
  gathered : Bool := false
  signed   : Bool := false
  waitAck  : Bool := false
  reseedFail : Bool := false
  witness  : Bool := false
  nonfinite : Nat := 0
  pages    : Nat := 0
  noise    : Bytes := []
  opt      : Bytes := []
  shard    : Bytes := []
  relDesc  : Bytes := []
  groups   : Tab (List Nat) := []
  steps    : List Nat := []
  gather   : List Nat := []
  stepBad  : List Nat := []
  gatherBad : List Nat := []
  copy     : Bool := false
  writing  : Bool := false
  modelDigest : Bytes := []
  keyGen   : Nat := 0
  salt     : Nat := 0
  record   : Bytes := []
  key      : Bytes := []
  sigs     : Bytes := []
  deriving DecidableEq, Repr

/-- A bay's noise sampler (R271, R272, R292). -/
structure Sampler where
  inst      : Bool := false
  reseeding : Bool := false
  fail      : Bool := false
  fill      : Nat := 0
  requests  : Nat := 0
  deriving DecidableEq, Repr

/-! ### Epoch time (19_power_clocks_time.md) -/

/-- TIME_STATUS.STATE (R520). -/
inductive TimeState where
  | free | acquiring | locked | holdover
  deriving DecidableEq, Repr

/-- What the PTP slave clock holds (R518): the data set of the master it follows (its Announce without the header's
varying fields) and its port identity, the last Sync's sequence number with its arrival time and correction, a
two-step Sync waiting for its Follow_Up, the last Sync's two times, the Delay_Req sent with its sequence number and
sending time, and the path delay, in nanoseconds. -/
structure Ptp where
  master   : Option Bytes := Option.none
  port     : Bytes := []
  announced : Nat := 0
  syncSeq  : Nat := 0
  syncAt   : Int := 0
  syncCorr : Int := 0
  awaiting : Bool := false
  t1       : Int := 0
  t2       : Int := 0
  reqSeq   : Nat := 0
  reqAt    : Option Int := Option.none
  delay    : Int := 0
  measured : Bool := false
  deriving DecidableEq, Repr

/-- Epoch time: `base` is epoch time at clk 0 of the present count, so epoch time now is base + clk
(R517); `fromFree` says that no time has been known since FREE (R523). `good` and `badRow` count updates in a row
(R520); `lastPps` and `lastSync` are the clk of the last accepted edge and Sync, `stepBy` the step that waits,
`slew` what slewing has still to remove, in nanoseconds; `coarse` is the always-on count as (epoch time, clk) of its
last reload. -/
structure Tim where
  base  : Int := 0
  state : TimeState := .free
  fromFree : Bool := true
  source  : Nat := 0
  stepBy  : Option Int := Option.none
  setRefused : Bool := false
  offset  : Int := 0
  holdAt  : Nat := 0
  good    : Nat := 0
  badRow  : Nat := 0
  lastPps : Option Nat := Option.none
  lastSync : Option Nat := Option.none
  secondsKnown : Bool := false
  slew    : Int := 0
  slewAt  : Nat := 0
  coarse  : Option (Nat × Nat) := Option.none
  ppsMissed : Nat := 0
  ptpDiscards : Nat := 0
  rejected : Nat := 0
  holdovers : Nat := 0
  ptp     : Ptp := {}
  deriving DecidableEq, Repr

/-! ### Power and pace groups (R496-R516) -/

/-- A bay's clock (BAY_CLK, R499-R501), by physical bay: its frequency and voltage now, the frequency and voltage of
a step that a droop holds, when a detector last fired, and whether the clock is stretched. -/
structure BayClk where
  mhz     : Nat := 0
  mv      : Nat := 0
  toMhz   : Nat := 0
  toMv    : Nat := 0
  stepping : Bool := false
  droopAt : Option Nat := Option.none
  stretched : Bool := false
  stretches : Nat := 0
  latGated : Bool := false
  deriving DecidableEq, Repr

/-- What is known of another member of the pace group, by its PACE_MEMBER entry (R511-R514): the last accepted
packet's SEQ, when it came, the ceiling in force and those that wait for their EFFECTIVE time, and the budget it cedes. -/
structure Member where
  seq     : Option Nat := Option.none
  heardAt : Nat := 0
  live    : Bool := false
  favoured : Bool := false
  ceiling : Option Nat := Option.none
  next    : List (Nat × Nat) := []
  ceded   : Nat := 0
  deriving DecidableEq, Repr

/-- The pace controller's power state (R496-R516). `raise` is a higher ceiling that has held since a clk; `effAt` is
the EFFECTIVE of the ceiling announced last; `temps` are the bays' junction temperatures by physical bay; `slopeHold` says that steps are delayed and ballast
held. -/
structure Pow where
  ceiling : Nat := 0
  group   : Nat := 0
  capped  : Bool := false
  thermal : Bool := false
  thermalCap : Option Nat := Option.none
  throttleAt : Nat := 0
  edpAt   : Option Nat := Option.none
  edpOn   : Bool := false
  cfgErr  : Bool := false
  draw_   : Nat := 0
  effCap  : Nat := 0
  ceded   : Nat := 0
  energy  : Nat := 0
  wakes   : Nat := 0
  tj      : Int := 0
  sensor  : Nat := 0
  temps   : List Int := []
  trip    : Bool := false
  current : Nat := 0
  slopeHold : Bool := false
  bays    : Tab BayClk := []
  members : Tab Member := []
  seqNo   : Nat := 0
  raise   : Option (Nat × Nat) := Option.none
  effAt   : Nat := 0
  lost    : Nat := 0
  bad     : Nat := 0
  steps   : Nat := 0
  deriving DecidableEq, Repr

/-! ### The chest (18_security_and_keys.md) -/

/-- One half of a chest slot: the key and its CHEST_ATTR word (R475). -/
structure Half where
  key  : Bytes
  attr : Word
  deriving DecidableEq, Repr

/-- A chest slot (R478, R481). -/
structure Slot where
  cur       : Option Half := Option.none
  prev      : Option Half := Option.none
  retired   : Nat := 0
  curPages  : Nat := 0
  prevPages : Nat := 0
  deriving DecidableEq, Repr

/-! ### Schedule entries (R525, R526, R528) -/

/-- One entry of a shelf's schedule table: SCHED_TIME and the fields of SCHED_CTL; `retry` is the epoch time at which a KEY_RETIRE
is tried again. -/
structure SchedEntry where
  time   : Word := 0
  kind   : Nat := 0
  arg    : Nat := 0
  result : Nat := 0
  fired  : Bool := false
  armed  : Bool := false
  period : Nat := 0
  retry  : Option Nat := Option.none
  deriving DecidableEq, Repr

/-! ### Waypoints (20_start_reset_recovery.md) -/

/-- What a waypoint holds beside the regions of memory that its sections copy (R540): the round, the schedule, the ledger, the mode's and
the release's state, each sequencer as it started the phase (R319), FOLD_MOD with the Casks of each bay of the shelf, the clients whose share crates had settled, and COVERED
with COVER_TIME (R541). [log 244 DESIGN CHOICE] -/
structure WptSave where
  round   : Round
  sched   : Tab SchedEntry
  ledger  : Ledger
  recov   : Recov
  verif   : Verif
  sealSt  : SealSt
  rel     : Rel
  seqs    : Tab Seq
  bays    : List (Tab Word × Tab Cask)
  senders : List Nat
  cover   : Nat × Nat
  deriving DecidableEq, Repr

/-- Waypoint state of a shelf: the cuts taken so far are numbered from 1; `doneCut` is the number of
the last complete waypoint's cut and `doneTime` its cut time, `ackTime` that of the last that the buddy has
acknowledged, and `ends` the cuts of the round, with their times, whose waypoints are complete and, with BUDDY, acknowledged (R315, R395, R538). `startCut` counts the cuts taken before the round, `header` is the header of the
waypoint being written, with its length and CUT_TIME and what it saves, `done` what the last complete one saved; `due` says that a phase's end
asks for one, `covered` is the COVERED and COVER_TIME of the cut, and `below` how many crates had settled by it from the oldest on (R108); `seqs` holds the sequencers as the phase started; `buddy` gives,
by cut, the messages of a transfer to the buddy not yet ended, its CUT_TIME, COVERED, COVER_TIME and `below`; `bound` is the epoch time of
the last boundary reached (R524). -/
structure Wpt where
  cuts     : Nat := 0
  startCut : Nat := 0
  doneCut  : Nat := 0
  doneTime : Nat := 0
  ackTime  : Nat := 0
  due      : Bool := false
  header   : Option Bytes := Option.none
  length   : Nat := 0
  cutTime  : Nat := 0
  save     : Option WptSave := Option.none
  done     : Option WptSave := Option.none
  covered  : Nat × Nat := (0, 0)
  below    : Nat := 0
  ends     : List (Nat × Nat) := []
  slot     : Nat := 0
  overflow : Nat := 0
  passed   : Nat := 0
  bound    : Nat := 0
  count    : Nat := 0
  buddy    : Tab (Nat × Nat × Nat × Nat × Nat) := []
  seqs     : Tab Seq := []
  deriving DecidableEq, Repr

/-- RCV_STATUS.STATE (R551). -/
inductive RcvState where
  | none | fenced | wait | restoring | replaying
  deriving DecidableEq, Repr

/-- Restore state of a shelf (R542-R551). `orphans` are the PENDING records of a takeover by client: LOG_SEQ and ROOT
(R547). -/
structure Rcv where
  state    : RcvState := .none
  cause    : Nat := 0
  bay      : Nat := 0
  restores : Nat := 0
  replayed : Nat := 0
  result   : Nat := 0
  cmd      : Word := 0
  fault    : Bool := false
  orphans  : Tab (Nat × Bytes) := []
  deriving DecidableEq, Repr

/-! ### Contexts (R447-R450) -/

/-- Context state of a shelf: CTX_CMD's fields, the slots that hold an image, and a switch that waits (`waiting`) or is
PENDING. -/
structure Ctx where
  current : Nat := 0
  target  : Nat := 0
  result  : Nat := 0
  pending : Bool := false
  waiting : Bool := false
  held    : List Nat := []
  deriving DecidableEq, Repr

/-! ### Model loads (R483-R485) -/

/-- A MODEL_LOAD in progress: the function that asked, TAG, the slot, the list, destination and length, the pages arrived as
(index), and each page's generation, read from the list when the load began. -/
structure ModelLoad where
  fn    : Nat
  tag   : Nat
  slot  : Nat
  dst   : Nat
  len   : Nat
  gens  : List Nat
  addrs : List Nat
  read  : List Nat := []
  deriving DecidableEq, Repr

/-! ### Start, journal and pins (20_start_reset_recovery.md, 23_package.md) -/

/-- KIND of a start (R532). -/
inductive StartKind where
  | powerOn | cold | warm
  deriving DecidableEq, Repr

/-- An entry of a start record (R532, R533). -/
structure JEntry where
  outcome : Nat := 0
  cause   : Nat := 0
  detail  : Nat := 0
  ticks   : Nat := 0
  deriving DecidableEq, Repr

/-- A start record (R532). -/
structure JRec where
  count   : Nat
  kind    : StartKind
  last    : Nat := 0
  result  : Nat := 3
  flags   : Nat := 0
  ready   : Nat := 0
  entries : Tab JEntry := []
  deriving DecidableEq, Repr

/-- The repair records (R534): bond groups, Loft rows and columns by (slice, number), faulty bays, sequencers and
pipelines by physical bay, the training rate of each stack as a CEL_STATUS.RATE code, pseudo-channels to retire as
stack × 64 + pseudo-channel, the Cellar repair list as (pseudo-channel, row), and lanes (port × 4 + lane) on their
group's spare. -/
structure Repairs where
  bonds : List (Nat × Nat) := []
  rows  : List (Nat × Nat) := []
  cols  : List (Nat × Nat) := []
  slices : List Nat := []
  bays  : List Nat := []
  seqs  : List (Nat × Nat) := []
  pipes : List (Nat × Nat) := []
  rates : Tab Nat := []
  pcs   : List Nat := []
  ppr   : List (Nat × Nat) := []
  lanes : List Nat := []
  deriving DecidableEq, Repr

/-- A mirror image of the journal sector in board flash (R535). -/
structure Mirror where
  recs    : List JRec
  repairs : Repairs
  count   : Nat
  deriving DecidableEq, Repr

/-- What the device latches at start, the pins, the journal and the always-on register file (R529-R537). `phys` gives
the physical bay of each logical bay, `seqMap` the physical sequencer of each logical one by physical bay, `spare` the
spare bay; `held` is a start that waits for PERST_L and PWRGD_IN, `atLock` the finds of a start that waits at S12 and
`step` its step; `started` is the clk at the start's beginning; `retryFull` lists stacks that train at full rate next
time; `newRecord` says the mirror lacks a repair record, and `dbgOpen` that the debug port
is open (R580). `recs` has the newest record first. [log 10 DESIGN CHOICE] -/
structure Dev where
  card     : Bool := false
  mismatch : Bool := false
  latched  : Bool := false
  pwrgd    : Bool := false
  perst    : Bool := false
  vaon     : Bool := false
  held     : Option StartKind := Option.none
  atLock   : Option Finds := Option.none
  kind     : StartKind := .powerOn
  step     : Nat := 0
  ready    : Bool := false
  halted   : Bool := false
  degraded : Bool := false
  started  : Nat := 0
  xtalLost : Bool := false
  recs     : List JRec := []
  jrnlSel  : Nat := 0
  repairs  : Repairs := {}
  newRecord : Bool := false
  mirror   : Option Mirror := Option.none
  mirrorBad : Bool := false
  phys     : List Nat := []
  seqMap   : Tab (List Nat) := []
  spare    : Option Nat := Option.none
  events   : Nat := 0
  retryFull : List Nat := []
  wptNum   : Nat := 0
  thermTrip : Bool := false
  dbgOpen  : Bool := false
  deriving DecidableEq, Repr

/-! ### The security island (18_security_and_keys.md) -/

/-- A session key's use (R489): the NONCE of its report, its expiry, and whether it has been used. -/
structure Session where
  key    : Bytes
  nonce  : Bytes
  expiry : Nat
  deriving DecidableEq, Repr

/-- The island: fuses that have blown since manufacture (`none` and [] where they are as fused), the masked root shares
(R469), the life-cycle and debug state, tamper state (R495), the running image's header with FW_SLOT and its flash slot, and what board flash holds of images and
certificates as far as written by this device. `slots` are keyed by function. [log 10 DESIGN CHOICE] -/
structure Island where
  lcsFuse  : Option Nat := Option.none
  svnFuse  : Option Nat := Option.none
  revoked  : List Nat := []
  rootOtp  : Option Bytes := Option.none
  rootGone : Bool := false
  shares   : Option (Bytes × Bytes) := Option.none
  debug    : Bool := false
  debugReq : Bool := false
  lockdown : Bool := false
  alarm    : Bool := false
  sensor   : Nat := 0
  when_    : Nat := 0
  alarmStep : Nat := 0
  nonce    : Option (Bytes × Nat) := Option.none
  flash    : Tab Bytes := []
  primary  : Option Nat := Option.none
  fwSlot   : Nat := 0
  fwFlash  : Nat := 0
  fwImage  : Bytes := []
  fellBack : Bool := false
  lastPass : Option Nat := Option.none
  cert     : Option Bytes := Option.none
  alias_   : Bytes := []
  sessions : Tab Session := []
  baseOtp  : Tab Nat := []
  deriving DecidableEq, Repr

/-! ### Loft slices and Cellar stacks (16_loft_and_cellar.md) -/

/-- A physical Loft slice's counters and repair state (R424, R439). `errs` are the corrected errors of the last hour as
(clk, row). -/
structure Slice where
  retired : Bool := false
  bonds   : Nat := 0
  rowsUsed : Nat := 0
  colsUsed : Nat := 0
  corr    : Nat := 0
  uncorr  : Nat := 0
  poison  : Nat := 0
  errs    : List (Nat × Nat) := []
  deriving DecidableEq, Repr

/-- A memory error that a Cellar controller remembers (R434, R435, R557): when, which line, and whether it was beyond
correction. -/
structure CelErr where
  at_  : Nat
  line : Nat
  bad  : Bool
  deriving DecidableEq, Repr

/-- A pseudo-channel's counters (CEL_PC). `used` are the hard-repair spares used, by bank. -/
structure Pc where
  corr   : Nat := 0
  uncorr : Nat := 0
  used   : Tab Nat := []
  deriving DecidableEq, Repr

/-- A Cellar stack (R428-R438). The masks are by pseudo-channel. -/
structure Stack where
  trained : Bool := false
  rate    : Nat := 0
  hot     : Bool := false
  retired : Nat := 0
  fenced  : Nat := 0
  retiredAcc : Nat := 0
  corr    : Nat := 0
  uncorr  : Nat := 0
  poison  : Nat := 0
  listFull : Bool := false
  applied : Nat := 0
  passes  : Nat := 0
  pcs     : Tab Pc := []
  errs    : List CelErr := []
  deriving DecidableEq, Repr

/-! ### Health and wear (21_health.md) -/

/-- A prediction (R554): weeks, its band, and the daily values it rests on. -/
structure Predict where
  weeks : Nat := 0xFFFF
  low   : Nat := 0xFFFF
  high  : Nat := 0xFFFF
  unit  : Nat := 0
  days  : Nat := 0
  deriving DecidableEq, Repr

/-- The health hub (R552-R559). Units are keyed by mechanism × 256 + unit; `hist` holds their daily values by day, `today`
the day's samples, `last` the last value; `group` the worst bond group by slice; the counts are by physical bay. [log 260 DESIGN CHOICE] -/
structure Health where
  alert   : Nat := 0
  unit    : Nat := 0
  eolMech : Nat := 0
  eol     : Predict := {}
  mechs   : Tab Predict := []
  hist    : Tab (List (Nat × Rat)) := []
  today   : Tab (List Rat) := []
  last    : Tab Rat := []
  group   : Tab Nat := []
  day     : Nat := 0
  mirrored : Option (Tab (List (Nat × Rat))) := Option.none
  size    : Nat := 0
  gate    : Nat := 0
  view    : Nat := 0
  psCorr  : Tab Nat := []
  psUncorr : Tab Nat := []
  deriving DecidableEq, Repr

/-! ### The management port (R584-R586) -/

/-- The I3C target port: its dynamic address, whether interrupts are enabled, those that wait, the offset set, the bytes
that the last read returned, and the interrupts sent, newest first. -/
structure I3c where
  dyn     : Option Nat := Option.none
  enec    : Bool := false
  waiting : List Nat := []
  off     : Nat := 0
  read    : Bytes := []
  sent    : List Nat := []
  deriving DecidableEq, Repr

/-! ### The machine -/

/-- HOSTS_CNT and MEMS_CNT of a shelf, its HLTH_SHELF counts, and its latched views (R419, R440, R460, R462, R559). -/
structure Counts where
  bar2Disc : Nat := 0
  bar2Zero : Nat := 0
  nonTee   : Nat := 0
  dbDisc   : Nat := 0
  corr     : Nat := 0
  uncorr   : Nat := 0
  poison   : Nat := 0
  psCorr   : Nat := 0
  psUncorr : Nat := 0
  access   : Nat := 0
  quietMhz : Nat := 0
  quietDrops : Nat := 0
  quietAt  : Nat := 0
  deriving DecidableEq, Repr

/-- One shelf: its descriptor, its registers with RW fields by block offset, and the state of the
units that serve it. -/
structure Shelf where
  desc    : Option ShelfDesc := Option.none
  state   : ShelfState := .ready
  cfg     : Tab Word := []
  round   : Round := {}
  prog    : Prog := {}
  intake  : Intake := {}
  ledger  : Ledger := {}
  sched   : Tab SchedEntry := []
  wpt     : Wpt := {}
  recov   : Recov := {}
  verif   : Verif := {}
  remote  : Remote := {}
  lat     : Lattice := {}
  sealSt  : SealSt := {}
  rel     : Rel := {}
  model   : Option (Nat × Nat) := Option.none
  load    : Option ModelLoad := Option.none
  modelDigest : Bytes := []
  attest  : Bytes := []
  rcv     : Rcv := {}
  ctx     : Ctx := {}
  counts  : Counts := {}
  deriving DecidableEq, Repr

/-- One bay by its device-logical number (R17): fold unit and noise sampler. `turns` holds, for unit u of the bay, the sequencer that
it served last at 8 u and the queue of sequencer i that it served last at 8 u + 1 + i (R128, R328). -/
structure Bay where
  mods    : Tab Word := []
  casks   : Tab Cask := []
  eccCorr : Nat := 0
  eccUncorr : Nat := 0
  hold    : List Held := []
  retr    : List Retraction := []
  sampler : Sampler := {}
  turns   : Tab Nat := []
  deriving DecidableEq, Repr

/-- TDI states (R414). -/
inductive TdiState where
  | unlocked | locked | run | error
  deriving DecidableEq, Repr

/-- The TDI of a shelf (R414-R416): HOST_TDI, whether its MSI-X table is locked, and the digest of the report signed at the
lock. -/
structure Tdi where
  state  : TdiState := .unlocked
  stream : Nat := 0
  cause  : Nat := 0
  msixLocked : Bool := false
  digest : Bytes := []
  deriving DecidableEq, Repr

/-- A function's mailbox (R409, R461): `goAt` is the clk of GO, `held` a response that FIXED_MBX keeps back. -/
structure Mbx where
  req     : Bytes := []
  resp    : Bytes := []
  irqEn   : Bool := false
  busy    : Bool := false
  done    : Bool := false
  overrun : Bool := false
  last    : Nat := 0
  goAt    : Nat := 0
  held    : Option Bytes := Option.none
  deriving DecidableEq, Repr

/-- A function's MSI-X state (R408), its mailbox, and what its configuration space holds that the manual names (R402, R404,
R415): Memory Space, Bus Master Enable, the power state D3hot, its BAR addresses, the size of BAR2 in bytes, and Max Payload Size and
Max Read Request Size as powers of two over 128 bytes. `table` gives the address and data of the MSI-X entries written. -/
structure Fn where
  msixEn   : Bool := false
  unmasked : List Nat := []
  waiting  : List Nat := []
  mbx      : Mbx := {}
  memSpace : Bool := false
  master   : Bool := false
  d3hot    : Bool := false
  bars     : Tab Nat := []
  bar2Size : Nat := 0x10_0000_0000
  table    : Tab (Nat × Nat) := []
  payload  : Nat := 0
  readReq  : Nat := 2
  deriving DecidableEq, Repr

/-- An IDE stream (R413): the keys programmed and those in use, by key set × 6 + sub-stream × 2 + direction, and whether an integrity
failure has made it Insecure. -/
structure Ide where
  keys     : Tab Bytes := []
  going    : List Nat := []
  insecure : Bool := false
  deriving DecidableEq, Repr

/-- The host port (15_host_interface.md). `vfPage64` says that the VF page size is 64 KiB. `sent` lists the MSI-X messages signalled, newest first,
as (function, vector), function 0 the PF and k the VF k. IDE stream n below 8 is Selective stream n and stream 8 the Link
stream. `doe` lists the SPDM responses, newest first, and `session` says that a secured session is up; `reads` lists what
the accesses of the functions returned, newest first, with the EP bit (R430). -/
structure HostPort where
  fns      : Tab Fn := []
  vfEnable : Bool := false
  numVfs   : Nat := 0
  vfPage64 : Bool := false
  ari      : Bool := false
  tdis     : Tab Tdi := []
  sent     : List (Nat × Nat) := []
  rate     : Nat := 0
  width    : Nat := 0
  flit     : Bool := false
  noflit   : Bool := false
  uncor    : Nat := 0
  ide      : Tab Ide := []
  session  : Bool := false
  doe      : List Bytes := []
  reads    : List (Bytes × Bool) := []
  deriving DecidableEq, Repr

/-- What is latched at epoch times that are multiples of 10 ms (R460, R462): the number of the present 10 ms, by physical bay the MHz × ns
run in it so far and the mean clock of the one before, the bays' junction temperatures, and the counters of each confidential shelf,
keyed by register offset × 64 + lowest bit. -/
structure Latch where
  slot   : Nat := 0
  acc    : List Nat := []
  mhz    : List Nat := []
  temps  : List Int := []
  counts : Tab (Tab Nat) := []
  deriving DecidableEq, Repr

/-- The whole machine as plain data. `pending` is the queue of commands that wait, first in first
out; `clk` the nanoseconds since reset; `draw` numbers the free values drawn so far. `cfg` holds the
RW registers outside the shelf blocks and bay blocks, by BAR0 offset; `windows` and `bins` are keyed by
shelf × 65536 + INDEX, `genBase` numbers the free values that are the windows' first generations, and
`gens` holds the generations that revocations have changed (R379). [log 6 DESIGN CHOICE] -/
structure State where
  pending : List Instr := []
  clk     : Nat := 0
  draw    : Nat := 0
  mem     : List Host.Cell := []
  marks   : List (Nat × LineMark) := []
  cfg     : Tab Word := []
  dev     : Dev := {}
  host    : HostPort := {}
  tim     : Tim := {}
  bays    : Tab Bay := []
  seqs    : Tab Seq := []
  qerrs   : Tab QErr := []
  queues  : Tab Queue := []
  shelves : Tab Shelf := []
  ports   : Tab Port := []
  tp      : Transport := {}
  windows : Tab Window := []
  genBase : Nat := 0
  gens    : Tab Nat := []
  bins    : Tab Bin := []
  chest   : Tab Slot := []
  lcs     : Nat := 0
  startCount : Nat := 0
  isl     : Island := {}
  pow     : Pow := {}
  slices  : Tab Slice := []
  stackTab  : Tab Stack := []
  health  : Health := {}
  i3c     : I3c := {}
  latch   : Latch := {}
  deriving DecidableEq, Repr

/-- What can stop the machine with a fault. [log 7 DEDUCED] -/
inductive Fault where
  /-- Raised by nothing: every command of the block answers a next state; safe. -/
  | none_
  deriving DecidableEq, Repr

/-- Why the machine has no meaning for a command. [log 7 DEDUCED] -/
inductive Refusal where
  /-- Raised by exec's arm for a command that the model gives no meaning yet; safe. -/
  | notModelled (mnemonic : String)
  deriving DecidableEq, Repr

/-- The machine right after reset (R15, R560): every table empty, so every register at its Reset
value. [log 2 DESIGN CHOICE, 6 DESIGN CHOICE, 10 DESIGN CHOICE] -/
def State.reset : State := {}

end Sys2Proof.Machine
end

