-- ==== Sys2Proof/Machine/Ops.lean ====
section
/-!
DEFINITION. The named operations over the state: sparse tables, byte strings, register bits, the
free values, device memory with its line marks, and the accessors of shelves, bays, sequencers and
queues. Every meaning reads and writes the state through these.
-/
namespace Sys2Proof.Machine

/-! ### Sparse tables -/

/-- Entry k of a table, or the reset value d where it is not listed. -/
def tget {α : Type} (d : α) : Tab α → Nat → α
  | [], _ => d
  | (i, v) :: r, k => if i = k then v else tget d r k

/-- Whether entry k is listed. -/
def tmem {α : Type} (t : Tab α) (k : Nat) : Bool := t.any (fun e => e.1 == k)

/-- Set entry k, keeping the keys in rising order. -/
def tput {α : Type} : Tab α → Nat → α → Tab α
  | [], k, v => [(k, v)]
  | (i, w) :: r, k, v =>
    if k < i then (k, v) :: (i, w) :: r
    else if k = i then (k, v) :: r
    else (i, w) :: tput r k v

/-- Remove entry k: it reads as its reset value again. -/
def tdel {α : Type} (t : Tab α) (k : Nat) : Tab α := t.filter (fun e => !(e.1 == k))

/-- Change entry k by f. -/
def tupd {α : Type} (d : α) (t : Tab α) (k : Nat) (f : α → α) : Tab α := tput t k (f (tget d t k))

/-! ### Numbers, bits and bytes -/

/-- Bits hi down to lo of a register word, as a number (R8). -/
def bits (w : Word) (hi lo : Nat) : Nat := (w.toNat >>> lo) % 2 ^ (hi + 1 - lo)

/-- Bit n of a register word. -/
def bit (w : Word) (n : Nat) : Bool := w.getLsbD n

/-- Bits hi down to lo of a number. -/
def nbits (w hi lo : Nat) : Nat := (w >>> lo) % 2 ^ (hi + 1 - lo)

/-- Bit n of a number. -/
def nbit (w n : Nat) : Bool := w.testBit n

/-- 1 for true. -/
def b2n (b : Bool) : Nat := if b then 1 else 0

/-- A register word packed from its fields, lowest first: (width, value) pairs (R8, R14). -/
def pack : List (Nat × Nat) → Nat
  | [] => 0
  | (w, v) :: r => v % 2 ^ w + 2 ^ w * pack r

/-- The packed fields as a 64-bit register value. -/
def packW (l : List (Nat × Nat)) : Word := BitVec.ofNat 64 (pack l)

/-- A saturating counter of w bits counts n more (R562). -/
def sat (w n v : Nat) : Nat := min (v + n) (2 ^ w - 1)

/-- The integer that w bits hold in two's complement. -/
def sext (w n : Nat) : Int := let m := n % 2 ^ w; if 2 * m < 2 ^ w then (m : Int) else (m : Int) - (2 : Int) ^ w

/-- The low w bits of an integer in two's complement. -/
def wrap (w : Nat) (i : Int) : Nat := (i % ((2 : Int) ^ w)).toNat

/-- The number that a little-endian byte string holds (R9). -/
def leNat : Bytes → Nat
  | [] => 0
  | b :: r => b.toNat + 256 * leNat r

/-- n bytes of a number, little-endian (R9). -/
def toLe : Nat → Nat → Bytes
  | 0, _ => []
  | n + 1, v => BitVec.ofNat 8 v :: toLe n (v / 256)

/-- n bytes of a number, most significant first. -/
def toBe (n v : Nat) : Bytes := (toLe n v).reverse

/-- The number of a byte string, most significant byte first. -/
def beNat (b : Bytes) : Nat := leNat b.reverse

/-- n bytes from offset off. -/
def slice (b : Bytes) (off n : Nat) : Bytes := (b.drop off).take n

/-- The little-endian number in n bytes from offset off. -/
def field (b : Bytes) (off n : Nat) : Nat := leNat (slice b off n)

/-- Whether n bytes from offset off are all zero. -/
def zeroAt (b : Bytes) (off n : Nat) : Bool := (slice b off n).all (· == 0)

/-- n zero bytes. -/
def zeros (n : Nat) : Bytes := List.replicate n 0

/-- v rounded up to a multiple of m. -/
def roundUp (v m : Nat) : Nat := (v + m - 1) / m * m

/-- Two ranges (first, length) overlap. -/
def overlap (a n b m : Nat) : Bool := decide (a < b + m) && decide (b < a + n) && decide (0 < n) && decide (0 < m)

/-- The first range lies in the second. -/
def within (a n b m : Nat) : Bool := decide (b ≤ a) && decide (a + n ≤ b + m)

/-- Insert into a rising list without repeats. -/
def insSet (k : Nat) : List Nat → List Nat
  | [] => [k]
  | i :: r => if k < i then k :: i :: r else if k = i then i :: r else i :: insSet k r

/-- Change every element of a list that meets p. -/
def mapIf {α : Type} (p : α → Bool) (f : α → α) (l : List α) : List α := l.map (fun x => if p x then f x else x)

/-! ### Time and free values -/

/-- A fresh value that the manual leaves open, w bits wide, and the state that has drawn it. [log 5 DESIGN CHOICE] -/
def draw (w : Nat) (s : State) : Nat × State :=
  ((Config.freeValue s.draw).toNat % 2 ^ w, { s with draw := s.draw + 1 })

/-- n fresh open bytes. [log 5 DESIGN CHOICE, 166 DESIGN CHOICE, 172 DESIGN CHOICE, 199 DESIGN CHOICE] -/
def drawBytes : Nat → State → Bytes × State
  | 0, s => ([], s)
  | n + 1, s =>
    let (b, s) := draw 8 s
    let (r, s) := drawBytes n s
    (BitVec.ofNat 8 b :: r, s)

/-! ### Device memory -/

/-- The byte at a device address; a byte that nothing has written reads 0 (R425, R429, R433). [log 4 DESIGN CHOICE] -/
def memGet (m : List Host.Cell) (a : Nat) : Byte := tget 0 m a

/-- Write one byte, keeping the canonical form: a zero byte is not listed. -/
def memPut (m : List Host.Cell) (a : Nat) (v : Byte) : List Host.Cell := if v = 0 then tdel m a else tput m a v

/-- The canonical form: addresses strictly rising, no listed byte zero. [log 4 DESIGN CHOICE] -/
def memWf : List Host.Cell → Bool
  | [] => true
  | [(_, v)] => !(v == 0)
  | (a, v) :: (b, w) :: r => decide (a < b) && !(v == 0) && memWf ((b, w) :: r)

/-- n bytes from device address a. -/
def memRead (m : List Host.Cell) (a : Nat) : Nat → Bytes
  | 0 => []
  | n + 1 => memGet m a :: memRead m (a + 1) n

/-- Write a byte string at device address a. -/
def memWrite (m : List Host.Cell) (a : Nat) : Bytes → List Host.Cell
  | [] => m
  | b :: r => memWrite (memPut m a b) (a + 1) r

/-- The mark of the line of device address a, if any (R422, R430). [log 178 DESIGN CHOICE] -/
def markOf (s : State) (a : Nat) : Option LineMark :=
  (s.marks.find? (fun e => e.1 == a / 64)).map (·.2)

/-- Take the mark of a line away. [log 183 DEDUCED] -/
def unmark (l : Nat) (s : State) : State := { s with marks := tdel s.marks l }

/-- Mark a line. -/
def mark (l : Nat) (m : LineMark) (s : State) : State := { s with marks := tput s.marks l m }

/-- Zero the bytes of a device range and clear the marks of its lines (R425, R592). [log 4 DESIGN CHOICE, 184 DEDUCED] -/
def memZero (s : State) (a n : Nat) : State :=
  { s with
    mem := s.mem.filter (fun c => !(decide (a ≤ c.1) && decide (c.1 < a + n)))
    marks := s.marks.filter (fun e => !(decide (a / 64 ≤ e.1) && decide (e.1 * 64 < a + n))) }

/-! ### Accessors -/

/-- Shelf k. -/
def State.shelf (s : State) (k : Nat) : Shelf := tget {} s.shelves k

/-- Change shelf k. -/
def State.onShelf (s : State) (k : Nat) (f : Shelf → Shelf) : State := { s with shelves := tput s.shelves k (f (s.shelf k)) }

/-- The bay with device-logical number b. [log 8 DEDUCED] -/
def State.bay (s : State) (b : Nat) : Bay := tget {} s.bays b

/-- Change a bay. -/
def State.onBay (s : State) (b : Nat) (f : Bay → Bay) : State := { s with bays := tput s.bays b (f (s.bay b)) }

/-- The sequencer with device-wide logical number q = bay × 4 + sequencer (R16). [log 8 DEDUCED, 119 DESIGN CHOICE] -/
def State.seq (s : State) (q : Nat) : Seq := tget {} s.seqs q

/-- Change a sequencer. -/
def State.onSeq (s : State) (q : Nat) (f : Seq → Seq) : State := { s with seqs := tput s.seqs q (f (s.seq q)) }

/-- Queue QSEL n of sequencer q. [log 8 DEDUCED, 119 DESIGN CHOICE] -/
def State.queue (s : State) (q n : Nat) : Queue := tget {} s.queues (q * 16 + n)

/-- Change a queue. -/
def State.onQueue (s : State) (q n : Nat) (f : Queue → Queue) : State :=
  { s with queues := tput s.queues (q * 16 + n) (f (s.queue q n)) }

/-- QREC and QERR of sequencer q. -/
def State.qerr (s : State) (q : Nat) : QErr := tget {} s.qerrs q

/-- Change QREC and QERR of sequencer q. -/
def State.onQErr (s : State) (q : Nat) (f : QErr → QErr) : State := { s with qerrs := tput s.qerrs q (f (s.qerr q)) }

/-- Cask c of bay b. -/
def State.cask (s : State) (b c : Nat) : Cask := tget {} (s.bay b).casks c

/-- Change a Cask. -/
def State.onCask (s : State) (b c : Nat) (f : Cask → Cask) : State :=
  s.onBay b (fun y => { y with casks := tput y.casks c (f (tget {} y.casks c)) })

/-- Change the round of shelf k. -/
def State.onRound (s : State) (k : Nat) (f : Round → Round) : State := s.onShelf k (fun h => { h with round := f h.round })

/-- Change the intake state of shelf k. -/
def State.onIntake (s : State) (k : Nat) (f : Intake → Intake) : State := s.onShelf k (fun h => { h with intake := f h.intake })

/-- Change the ledger of shelf k. -/
def State.onLedger (s : State) (k : Nat) (f : Ledger → Ledger) : State := s.onShelf k (fun h => { h with ledger := f h.ledger })

/-- An RW register of a shelf's block by its offset, with its Reset value. [log 8 DEDUCED] -/
def Shelf.reg (h : Shelf) (off : Nat) (reset : Word := 0) : Word := tget reset h.cfg off

/-- Set an RW register of shelf k's block. [log 8 DEDUCED] -/
def State.setReg (s : State) (k off : Nat) (v : Word) : State := s.onShelf k (fun h => { h with cfg := tput h.cfg off v })

/-- A complete waypoint of the round exists (R551). -/
def Wpt.valid (w : Wpt) : Bool := decide (w.startCut < w.doneCut)

end Sys2Proof.Machine
end

