-- ==== Sys2Proof/Machine/Flags.lean ====
section
/-!
DEFINITION. Status codes, phase and outcome codes, interrupts and the saturating event counters
that several chapters share.
-/
namespace Sys2Proof.Machine

/-- The 8-bit code of a status (R21). -/
def Status.code : Status → Nat
  | .ok => 0x00 | .provisional => 0x01 | .windowRevoked => 0x10 | .retryExhausted => 0x11
  | .remoteFault => 0x12 | .noBin => 0x13 | .keysetMismatch => 0x20 | .noiseExhausted => 0x21
  | .paramUnsupported => 0x22 | .verdictReject => 0x30 | .lateCrate => 0x31 | .specRefused => 0x32
  | .uncorrectable => 0x40 | .poisoned => 0x41 | .deniedAttribute => 0x50 | .tamperAbort => 0x51
  | .keyRetired => 0x52 | .shelfFenced => 0x60

/-- Whether a completion counts as neither OK nor PROVISIONAL (R339, R342). -/
def Status.bad : Status → Bool
  | .ok => false | .provisional => false
  | .windowRevoked => true | .retryExhausted => true | .remoteFault => true | .noBin => true
  | .keysetMismatch => true | .noiseExhausted => true | .paramUnsupported => true
  | .verdictReject => true | .lateCrate => true | .specRefused => true | .uncorrectable => true
  | .poisoned => true | .deniedAttribute => true | .tamperAbort => true | .keyRetired => true
  | .shelfFenced => true

/-- The phase codes of R52. -/
def Phase.code : Phase → Nat
  | .idle => 0 | .open_ => 1 | .collect => 2 | .recover => 3 | .unmask => 4 | .noise => 5
  | .step => 6 | .seal => 7 | .release => 8

/-- The outcome codes of R53. -/
def RoundOutcome.code : RoundOutcome → Nat
  | .none_ => 0 | .released => 1 | .refusedDescriptor => 2 | .refusedCohort => 3 | .abandoned => 4
  | .expired => 5 | .cancelled => 6 | .faulted => 7 | .diverged => 8

/-- What slewing at 200 ppm has removed from epoch time by clk c (R520). -/
def Tim.slewed (t : Tim) (c : Nat) : Int :=
  let d : Int := (((c - t.slewAt) / 5000 : Nat) : Int)
  if t.slew < 0 then -(min (-t.slew) d) else min t.slew d

/-- Epoch time now, in TAI nanoseconds modulo 2^64 (R10, R517). -/
def State.epoch (s : State) : Nat := wrap 64 (s.tim.base + (s.clk : Int) - s.tim.slewed s.clk)

/-! ### Interrupts (R408) -/

/-- Function f. -/
def State.fn (s : State) (f : Nat) : Fn := tget {} s.host.fns f

/-- Change function f. -/
def State.onFn (s : State) (f : Nat) (g : Fn → Fn) : State :=
  { s with host := { s.host with fns := tput s.host.fns f (g (s.fn f)) } }

/-- Signal vector v of function f: an MSI-X message, or the pending bit while the vector is masked
or MSI-X is disabled. [log 6 DESIGN CHOICE] -/
def signal (f v : Nat) (s : State) : State :=
  if (s.fn f).msixEn && (s.fn f).unmasked.contains v then
    { s with host := { s.host with sent := (f, v) :: s.host.sent } }
  else s.onFn f (fun x => { x with waiting := insSet v x.waiting })

/-- Whether shelf k's events go to its own VF (R408). -/
def toVf (s : State) (k : Nat) : Bool :=
  (s.host.vfEnable && decide (k < s.host.numVfs) && (s.fn (k + 1)).msixEn) ||
  (match (tget ({} : Tdi) s.host.tdis k).state with | .locked => true | .run => true | .unlocked => false | .error => false)

/-- Signal event e (1 round, 2 program, 3 fabric, 4 fence, scrub or TDI) of shelf k. -/
def signalShelf (k e : Nat) (s : State) : State :=
  if toVf s k then signal (k + 1) e s else signal 0 (16 + 8 * k + e) s

/-! ### Device events and alerts (R557, R566) -/

/-- Raise bit n of GLOBAL_EVENT; a bit that rises with its enable set signals vector v (R566). -/
def deviceEvent (n en v : Nat) (s : State) : State :=
  if nbit s.dev.events n then s
  else
    let s : State := { s with dev := { s.dev with events := s.dev.events + 2 ^ n } }
    if bit (tget 7 s.cfg 0x208) en then signal 0 v s else s

/-- A channel of port n went up or down, or the port became DEGRADED. -/
def portEvent (n : Nat) (s : State) : State := deviceEvent n 0 2 s

/-- A step was journalled other than passed, or a repair record was added. -/
def journalEvent (s : State) : State := deviceEvent 16 1 3 s

/-- TIME_STATUS.STATE changed. -/
def timeEvent (s : State) : State := deviceEvent 19 2 4 s

/-- Queue an in-band interrupt of the management port (R586). [log 272 DEDUCED] -/
def i3cEvent (b : Nat) (s : State) : State :=
  if s.i3c.enec then { s with i3c := { s.i3c with waiting := insSet b s.i3c.waiting } } else s

/-- An event of HLTH_ALERT bit n with its unit (R557). [log 258 DEDUCED] -/
def alertEvent (n unit : Nat) (s : State) : State :=
  let h := s.health
  let s : State := { s with health := { h with unit := unit % 256, alert := if nbit h.alert n then h.alert else h.alert + 2 ^ n } }
  if !nbit h.alert n && bit (tget 0xFF s.cfg 0xE0_0008) n then i3cEvent 4 (signal 0 1 s) else s

/-- Add a fault found at run time to the repair records (R534). -/
def addRepair (f : Repairs → Repairs) (s : State) : State :=
  journalEvent { s with dev := { s.dev with repairs := f s.dev.repairs, newRecord := true } }

/-- Put an element in a list of records that lacks it. -/
def addTo {α : Type} [BEq α] (x : α) (l : List α) : List α := if l.contains x then l else l ++ [x]

end Sys2Proof.Machine
end

