-- ==== Sys2Proof/Machine/Operands.lean ====
section
/-!
DEFINITION. Operand forms: the shelf-relative address space and its translation (R36-R40, R427),
the ranges that are closed to code, engines and windows (R38, R114 and the rules that refuse a
region), reads and writes through it with the line marks (R422, R423, R430), vector descriptor
images (R299, R334) and element types (R82).
-/
namespace Sys2Proof.Machine

/-! ### The address map (R36, R37) -/

def loftBase : Nat := 0x0100_0000_0000
def storeBase : Nat := 0x0110_0000_0000
def mmioBase : Nat := 0x0200_0000_0000
/-- One Loft slice. -/
def sliceSize : Nat := 0x300_0000
/-- The window of one bay store. -/
def storeStep : Nat := 0x100_0000
/-- The populated part of one bay store. -/
def storeSize : Nat := 0xC0_0000
/-- One pseudo-channel, 1.125 GiB (R426). -/
def pcSize : Nat := 0x4800_0000
/-- One stack, 72 GiB (R426). -/
def stackSize : Nat := 0x12_0000_0000

/-- The device address of Loft slice offset x of device bay b. -/
def loftAddr (b x : Nat) : Nat := loftBase + b * sliceSize + x

/-- The device address of bay-store offset x of device bay b. -/
def storeAddr (b x : Nat) : Nat := storeBase + b * storeStep + x

/-! ### A shelf's view (R40) -/

/-- The device-logical bays of a shelf, in the order of its own bay numbers (R443 BAY_PAIRS). -/
def Shelf.bays (h : Shelf) : List Nat :=
  match h.desc with
  | none => []
  | some d => (List.range 16).filter (fun b => nbit d.bayPairs (b / 2))

/-- The device-wide sequencers of a shelf, in the order of its own numbers (R16). -/
def Shelf.seqs (h : Shelf) : List Nat := h.bays.flatMap (fun b => [b * 4, b * 4 + 1, b * 4 + 2, b * 4 + 3])

/-- The device-logical bay of a shelf's bay i. -/
def Shelf.bayOf (h : Shelf) (i : Nat) : Option Nat := h.bays[i]?

/-- The shelf that owns a device-logical bay. -/
def shelfOf (s : State) (b : Nat) : Option Nat := (List.range 8).find? (fun k => (s.shelf k).bays.contains b)

/-- The shelf's own number of a device-logical bay. -/
def Shelf.bayIndex (h : Shelf) (b : Nat) : Nat := h.bays.findIdx (· == b)

/-- Whether the shelf is confidential (R443 FLAGS[0]). -/
def Shelf.conf (h : Shelf) : Bool := match h.desc with | none => false | some d => nbit d.flags 0

/-- The shelf is fenced (R462). -/
def Shelf.fenced (h : Shelf) : Bool := match h.state with | .fenced => true | .ready => false | .switching => false

/-- The regions of a shelf's Cellar range: all pseudo-channels together (SPREAD) or stack by stack
in order of first appearance (STACKED), each entry stack × 64 + pseudo-channel (R427). -/
def cellarRegions (d : ShelfDesc) : List (List Nat) :=
  if nbit d.flags 2 then
    let nums := d.pcs.foldl (fun l p => if l.contains (p / 64) then l else l ++ [p / 64]) []
    nums.map (fun k => d.pcs.filter (fun p => p / 64 == k))
  else [d.pcs]

/-- Bytes of a shelf's Cellar range. -/
def Shelf.cellarSize (h : Shelf) : Nat := match h.desc with | none => 0 | some d => d.pcs.length * pcSize

/-- The device address of line-local position pos of a pseudo-channel (R426). -/
def pcAddr (p pos : Nat) : Nat := p / 64 * stackSize + pos / 256 * 0x4000 + p % 64 * 256 + pos % 256

/-- The device address of a shelf's Cellar offset (R427). -/
def cellarXlate : List (List Nat) → Nat → Option Nat
  | [], _ => none
  | r :: rs, a =>
    if a < r.length * pcSize then
      (r[a / 256 % r.length]?).map (fun p => pcAddr p (a / 256 / r.length * 256 + a % 256))
    else cellarXlate rs (a - r.length * pcSize)

/-- The device memory address of a shelf-relative address; none for an unmapped address, a
bay-store hole, MMIO or an address outside the shelf (R38, R40). -/
def dev? (s : State) (k a : Nat) : Option Nat :=
  let h := s.shelf k
  match h.desc with
  | none => none
  | some d =>
    if a < loftBase then cellarXlate (cellarRegions d) a
    else if a < storeBase then (h.bayOf ((a - loftBase) / sliceSize)).map (fun b => loftAddr b ((a - loftBase) % sliceSize))
    else if a < mmioBase then
      if (a - storeBase) % storeStep < storeSize then
        (h.bayOf ((a - storeBase) / storeStep)).map (fun b => storeAddr b ((a - storeBase) % storeStep))
      else none
    else none

/-- The BAR0 offset of an MMIO address (R36). -/
def mmio? (a : Nat) : Option Nat := if mmioBase ≤ a ∧ a < mmioBase + 0x400_0000 then some (a - mmioBase) else none

/-- Whether n bytes at a lie in the shelf's Cellar range. -/
def inCellar (h : Shelf) (a n : Nat) : Bool := decide (a + n ≤ h.cellarSize)

/-- Whether n bytes at a lie in the shelf's Loft slices. -/
def inLoft (h : Shelf) (a n : Nat) : Bool := within a n loftBase (h.bays.length * sliceSize)

/-- Whether n bytes at a lie in the populated part of one bay store of the shelf. -/
def inStore (h : Shelf) (a n : Nat) : Bool :=
  decide (storeBase ≤ a) && decide ((a - storeBase) / storeStep < h.bays.length) &&
  decide ((a - storeBase) % storeStep + n ≤ storeSize)

/-- Whether n bytes at a are memory of the shelf (R38). -/
def inShelf (h : Shelf) (a n : Nat) : Bool := inCellar h a n || inLoft h a n || inStore h a n

/-! ### Reads and writes through the shelf's view -/

/-- The byte at a shelf-relative address. -/
def vbyte (s : State) (k a : Nat) : Byte := match dev? s k a with | some d => memGet s.mem d | none => 0

/-- n bytes at a shelf-relative address. -/
def vread (s : State) (k a : Nat) : Nat → Bytes
  | 0 => []
  | n + 1 => vbyte s k a :: vread s k (a + 1) n

/-! ### Memory errors (R422-R424, R430, R434, R435) -/

/-- The pseudo-channel, as stack × 64 + pseudo-channel, of a Cellar device address (R426). -/
def pcOf (d : Nat) : Nat := d / stackSize * 64 + d % stackSize / 256 % 64

/-- Stack k. -/
def State.stack (s : State) (k : Nat) : Stack := tget {} s.stackTab k

/-- Change a stack. -/
def State.onStack (s : State) (k : Nat) (f : Stack → Stack) : State := { s with stackTab := tput s.stackTab k (f (s.stack k)) }

/-- Physical Loft slice n. -/
def State.slice (s : State) (n : Nat) : Slice := tget {} s.slices n

/-- Change a physical slice. -/
def State.onSlice (s : State) (n : Nat) (f : Slice → Slice) : State := { s with slices := tput s.slices n (f (s.slice n)) }

/-- Change the counts of shelf k. -/
def State.onCounts (s : State) (k : Nat) (f : Counts → Counts) : State := s.onShelf k (fun h => { h with counts := f h.counts })

/-- The physical bay that serves a logical bay (R17). -/
def State.physOf (s : State) (b : Nat) : Nat := s.dev.phys.getD b b

/-- A device address lies in a fenced pseudo-channel. [log 180 DEDUCED] -/
def fencedAt (s : State) (d : Nat) : Bool := decide (d < loftBase) && nbit (s.stack (pcOf d / 64)).fenced (pcOf d % 64)

/-- What the line of a device address holds; a fenced pseudo-channel answers with an error beyond correction (R435). -/
def lineMark (s : State) (d : Nat) : Option LineMark := if fencedAt s d then some .uncorrectable else markOf s d

/-- The shelf that a pseudo-channel belongs to. -/
def pcOwner (s : State) (p : Nat) : Option Nat :=
  (List.range 8).find? (fun k => match (s.shelf k).desc with | none => false | some d => d.pcs.contains p)

/-- The shelf that the memory at a device address belongs to. -/
def ownerAt (s : State) (d : Nat) : Option Nat :=
  if d < loftBase then pcOwner s (pcOf d)
  else if d < storeBase then shelfOf s ((d - loftBase) / sliceSize)
  else shelfOf s ((d - storeBase) / storeStep)

/-- Change the counts of the shelf that owns a device address (R440). -/
def onOwner (d : Nat) (f : Counts → Counts) (s : State) : State :=
  match ownerAt s d with | none => s | some k => s.onCounts k f

/-- Rows on the repair list of stack k (R434). -/
def pprListed (s : State) (k : Nat) : Nat := (s.dev.repairs.ppr.filter (fun e => e.1 / 64 == k)).length

/-- Mark the row of a Cellar line for repair (R434). [log 178 DESIGN CHOICE] -/
def listRow (d : Nat) (s : State) : State :=
  let e := (pcOf d, Config.cellarRow (d / 64))
  if s.dev.repairs.ppr.contains e then s
  else if pprListed s (pcOf d / 64) < 256 then addRepair (fun r => { r with ppr := r.ppr ++ [e] }) s
  else
    let s := s.onStack (pcOf d / 64) (fun x => { x with listFull := true })
    alertEvent 3 (pcOf d / 64) s

/-- Fence the pseudo-channels of a mask of stack k (R435): the owning shelves are fenced for fault handling, and the
pseudo-channels are recorded for retirement. [log 181 DESIGN CHOICE, 258 DEDUCED] -/
def fencePcs (k mask : Nat) (s : State) : State :=
  let ps := (List.range 64).filter (fun p => nbit mask p && !nbit (s.stack k).fenced p)
  let s := ps.foldl (fun s p =>
    let s := s.onStack k (fun x => { x with fenced := x.fenced + 2 ^ p })
    let s := addRepair (fun r => { r with pcs := addTo (k * 64 + p) r.pcs }) s
    match pcOwner s (k * 64 + p) with
    | none => s
    | some i => s.onShelf i (fun h => { h with state := .fenced, rcv := { h.rcv with state := .fenced, fault := true } })) s
  if ps.isEmpty then s else alertEvent 7 k s

/-- Remember a Cellar error; rows are marked and pseudo-channels fenced by what the last day and second have shown
(R434, R435). [log 180 DEDUCED] -/
def celError (d : Nat) (bad : Bool) (s : State) : State :=
  let p := pcOf d
  let now := s.clk
  let s := s.onStack (p / 64) (fun x =>
    { x with errs := { at_ := now, line := d / 64, bad := bad } :: x.errs.filter (fun e => decide (now < e.at_ + 86_400_000_000_000)) })
  let es := ((s.stack (p / 64)).errs.filter (fun e => pcOf (e.line * 64) == p))
  let distinctLines (l : List CelErr) : Nat := (l.map (fun e => e.line)).eraseDups.length
  let s := if bad || decide (3 ≤ distinctLines (es.filter (fun e => !e.bad && Config.cellarRow e.line == Config.cellarRow (d / 64)))) then listRow d s else s
  if bad && decide (16 ≤ distinctLines (es.filter (fun e => e.bad && decide (now < e.at_ + 1_000_000_000)))) then fencePcs (p / 64) (2 ^ (p % 64)) s
  else s

/-- A Loft row with 8 corrected errors in an hour, or with any error beyond correction, is recorded (R424). [log 182 DEDUCED] -/
def loftError (d : Nat) (bad : Bool) (s : State) : State :=
  let n := s.physOf ((d - loftBase) / sliceSize)
  let row := (d - loftBase) % sliceSize / 512
  let now := s.clk
  let s := s.onSlice n (fun x => { x with errs := (now, row) :: x.errs.filter (fun e => decide (now < e.1 + 3_600_000_000_000)) })
  if bad || decide (8 ≤ ((s.slice n).errs.filter (fun e => e.2 == row)).length) then
    addRepair (fun r => { r with rows := addTo (n, row) r.rows }) s
  else s

/-- Count an error that was corrected and written back, at a device address. [log 183 DEDUCED] -/
def noteCorrected (d : Nat) (s : State) : State :=
  let s := onOwner d (fun c => { c with corr := sat 32 1 c.corr }) (unmark (d / 64) s)
  if d < loftBase then
    let p := pcOf d
    celError d false (s.onStack (p / 64) (fun x =>
      { x with corr := sat 32 1 x.corr, pcs := tupd {} x.pcs (p % 64) (fun c => { c with corr := sat 24 1 c.corr }) }))
  else if d < storeBase then loftError d false (s.onSlice (s.physOf ((d - loftBase) / sliceSize)) (fun x => { x with corr := sat 32 1 x.corr }))
  else s

/-- Count a line beyond correction. -/
def noteBad (d : Nat) (s : State) : State :=
  let s := onOwner d (fun c => { c with uncorr := sat 16 1 c.uncorr }) s
  if d < loftBase then
    let p := pcOf d
    celError d true (s.onStack (p / 64) (fun x =>
      { x with uncorr := sat 16 1 x.uncorr, pcs := tupd {} x.pcs (p % 64) (fun c => { c with uncorr := sat 16 1 c.uncorr }) }))
  else if d < storeBase then loftError d true (s.onSlice (s.physOf ((d - loftBase) / sliceSize)) (fun x => { x with uncorr := sat 16 1 x.uncorr }))
  else s

/-- Count a read of a poisoned line, or a discarded partial write (R423). -/
def notePoison (d : Nat) (s : State) : State :=
  let s := onOwner d (fun c => { c with poison := sat 16 1 c.poison }) s
  if d < loftBase then s.onStack (pcOf d / 64) (fun x => { x with poison := sat 16 1 x.poison })
  else if d < storeBase then s.onSlice (s.physOf ((d - loftBase) / sliceSize)) (fun x => { x with poison := sat 16 1 x.poison })
  else s

/-- Count what a read of the line at a device address meets. [log 35 DESIGN CHOICE, 178 DESIGN CHOICE] -/
def noteLine (d : Nat) (s : State) : State :=
  if fencedAt s d then s
  else match markOf s d with
    | none => s
    | some .corrected => noteCorrected d s
    | some .uncorrectable => noteBad d s
    | some .poisoned => notePoison d s

/-- The line addresses of a range. -/
def linesOf (a n : Nat) : List Nat := (List.range ((a + n + 63) / 64 - a / 64)).map (fun i => (a / 64 + i) * 64)

/-- A mark that stops a read. -/
def LineMark.stops : LineMark → Bool | .corrected => false | .uncorrectable => true | .poisoned => true

/-- Count what a read of n bytes at a shelf-relative address meets, up to the first line that stops it. [log 38 DEDUCED, 179 DEDUCED] -/
def noteRead (k a n : Nat) (s : State) : State :=
  let ds := (linesOf a n).filterMap (dev? s k)
  let stop (d : Nat) : Bool := match lineMark s d with | none => false | some m => m.stops
  let s' := (ds.takeWhile (fun d => !stop d)).foldl (fun s d => noteLine d s) s
  match ds.find? stop with
  | none => s'
  | some d => noteLine d s'

/-- The status of a read of n bytes: that of the first line that cannot be read (R422, R430). [log 38 DEDUCED, 179 DEDUCED] -/
def vstat (s : State) (k a n : Nat) : Status :=
  match ((linesOf a n).filterMap (fun x => (dev? s k x).bind (lineMark s))).find? LineMark.stops with
  | some .uncorrectable => .uncorrectable
  | some .poisoned => .poisoned
  | some .corrected => .ok
  | none => .ok

/-- Count what a read of several ranges meets. -/
def noteBlocks (k : Nat) (l : List (Nat × Nat)) (s : State) : State := l.foldl (fun s b => noteRead k b.1 b.2 s) s

/-- Part of one line written at device address d: a whole line clears the mark; part of a line that cannot be read is
discarded and the line takes the poisoned marker (R423). A fenced pseudo-channel takes no write (R435). [log 35 DESIGN CHOICE, 178 DESIGN CHOICE, 179 DEDUCED, 180 DEDUCED] -/
def putLine (d : Nat) (bs : Bytes) (s : State) : State :=
  if fencedAt s d then s
  else if bs.length = 64 then unmark (d / 64) { s with mem := memWrite s.mem d bs }
  else match markOf s d with
    | none => { s with mem := memWrite s.mem d bs }
    | some .corrected => let s := noteCorrected d s; { s with mem := memWrite s.mem d bs }
    | some .uncorrectable => mark (d / 64) .poisoned (notePoison d (noteBad d s))
    | some .poisoned => mark (d / 64) .poisoned (notePoison d s)

/-- Write a byte string at a device address, line by line (R423). -/
def dwriteAux : Nat → State → Nat → Bytes → State
  | 0, s, _, _ => s
  | f + 1, s, d, bs =>
    if bs.isEmpty then s
    else
      let m := min (64 - d % 64) bs.length
      dwriteAux f (putLine d (bs.take m) s) (d + m) (bs.drop m)

/-- Write a byte string at a device address. -/
def dwrite (s : State) (d : Nat) (bs : Bytes) : State := dwriteAux bs.length s d bs

/-- Write a byte string at a shelf-relative address, line by line (R423). -/
def vwriteAux : Nat → State → Nat → Nat → Bytes → State
  | 0, s, _, _, _ => s
  | f + 1, s, k, a, bs =>
    if bs.isEmpty then s
    else
      let m := min (64 - a % 64) bs.length
      let s := match dev? s k a with | some d => putLine d (bs.take m) s | none => s
      vwriteAux f s k (a + m) (bs.drop m)

/-- Write a byte string at a shelf-relative address. -/
def vwrite (s : State) (k a : Nat) (bs : Bytes) : State := vwriteAux bs.length s k a bs

/-- Write the poisoned marker over the lines of a shelf-relative range (R423). -/
def vpoison (s : State) (k a n : Nat) : State :=
  ((List.range ((a + n + 63) / 64 - a / 64)).map (fun i => (a / 64 + i) * 64)).foldl
    (fun s x => match dev? s k x with | some d => mark (d / 64) .poisoned s | none => s) s

/-- Zero a shelf-relative range and clear its marks, whole lines (R592). [log 184 DEDUCED] -/
def vzero (s : State) (k a n : Nat) : State :=
  ((List.range ((a + n + 63) / 64 - a / 64)).map (fun i => (a / 64 + i) * 64)).foldl
    (fun s x => match dev? s k x with | some d => memZero s d 64 | none => s) s

/-! ### Element types (R82, R117) -/

/-- Bytes per element; BIT and the RLWE object have none. -/
def etypeBytes : Nat → Option Nat
  | 0x01 => some 4 | 0x02 => some 8 | 0x03 => some 1 | 0x04 => some 2 | 0x05 => some 4
  | 0x06 => some 8 | 0x07 => some 8 | 0x08 => some 4 | 0x09 => some 2 | 0x0A => some 2
  | 0x10 => some 8 | 0x11 => some 16
  | _ => none

/-- Whether a code names an element type. -/
def etypeKnown (e : Nat) : Bool := (etypeBytes e).isSome || e == 0x0B || e == 0x20

/-! ### Vector descriptor images (R299) -/

/-- Intake stamps a request of so many bytes that it makes on behalf of shelf k (R454): the stamp, and the shelf's finish time, which
rises by the units of the request over its weight. Stamps are in 2^-16 of a unit; the request is served at once. [log 195 DESIGN CHOICE] -/
def stampReq (k bytes : Nat) (s : State) : State :=
  let w := match (s.shelf k).desc with | none => 1 | some d => max 1 d.weight
  let start := max (tget 0 s.tp.finish k) s.tp.served
  { s with tp := { s.tp with
    finish := tput s.tp.finish k (start + (bytes + 63) / 64 * 64 * 65536 / w), stamps := tput s.tp.stamps k start, served := start } }

/-- The descriptor that a 32-byte image holds; the bytes marked zero are ignored. -/
def imgParse (b : Bytes) : VDesc :=
  { base := BitVec.ofNat 48 (field b 0 6), len := BitVec.ofNat 32 (field b 8 4)
    rows := BitVec.ofNat 32 (field b 0xC 4), stride := BitVec.ofNat 32 (field b 0x10 4)
    off := BitVec.ofNat 32 (field b 0x14 4), etype := BitVec.ofNat 8 (field b 0x18 1)
    scaleE := BitVec.ofNat 8 (field b 0x19 1), ring := BitVec.ofNat 6 (field b 0x1A 1)
    rsrc := nbit (field b 0x1B 1) 0 }

/-- The image of a descriptor, the bytes marked zero written as zero. -/
def imgBytes (d : VDesc) : Bytes :=
  toLe 8 d.base.toNat ++ toLe 4 d.len.toNat ++ toLe 4 d.rows.toNat ++ toLe 4 d.stride.toNat ++
  toLe 4 d.off.toNat ++ toLe 1 d.etype.toNat ++ toLe 1 d.scaleE.toNat ++ toLe 1 d.ring.toNat ++
  toLe 1 (b2n d.rsrc) ++ zeros 4

/-- Whether the bits that R299 marks zero are zero, as a command checks (R332, R334). -/
def imgClean (b : Bytes) : Bool :=
  zeroAt b 6 2 && field b 0x1A 1 < 64 && field b 0x1B 1 < 2 && zeroAt b 0x1C 4

end Sys2Proof.Machine
end

