-- ==== Sys2Proof/Machine/Clock.lean ====
section
/-!
DEFINITION. The passing of time: the clock goes on, and at epoch times that are multiples of 10 ms the views of R460 and R462 are
latched.
-/
namespace Sys2Proof.Machine

/-- The period of the latched views, in ns. -/
def latchPeriod : Nat := 10_000_000

/-- The key of a latched counter: its register's offset in the shelf's view and its lowest bit. -/
def latchKey (off lo : Nat) : Nat := off * 64 + lo

/-- Block offsets of the registers that hold latched counters, in a shelf's view of its bay i. -/
def bayView (i : Nat) : Nat := 0x20_0000 + i * 0x1_0000
def qerrView (i j : Nat) : Nat := bayView i + 0x4008 + j * 0x200
def qstateView (i j n : Nat) : Nat := bayView i + 0x4100 + j * 0x200 + n * 0x10

/-- RETX_PKTS as a confidential shelf sees it. -/
def coarseRetx (n : Nat) : Nat := n / 1024 * 1024

/-- The counters of shelf k that R460 and R559 latch, those at 0 left out. -/
def latchedCounts (s : State) (k : Nat) : Tab Nat :=
  let h := s.shelf k
  let c := h.counts
  let r := h.remote
  let own : List (Nat × Nat × Nat) :=
    [(0x1A40, 0, c.corr), (0x1A40, 32, c.uncorr), (0x1A40, 48, c.poison), (0x1808, 0, coarseRetx r.tpsRetx), (0x1808, 32, r.tpsExhausted),
     (0x1808, 48, r.tpsSilent), (0x818, 0, h.ledger.stalls), (0xE0_0000, 0, c.psCorr), (0xE0_0000, 16, c.psUncorr), (0xE0_0000, 24, c.access)]
  let rings := h.intake.rings.flatMap (fun e => [(0x408 + e.1 * 0x10, 0, e.2.corrected), (0x408 + e.1 * 0x10, 32, e.2.uncorrected)])
  let bays := h.bays.zipIdx.flatMap (fun e =>
    let y := s.bay e.1
    [(bayView e.2 + 8, 0, y.eccCorr), (bayView e.2 + 8, 32, y.eccUncorr)] ++
      (List.range 4).flatMap (fun j =>
        (qerrView e.2 j, 48, (s.qerr (e.1 * 4 + j)).uncorr) ::
          (List.range 12).map (fun n => (qstateView e.2 j n, 48, (s.queue (e.1 * 4 + j) n).corr))))
  ((own ++ rings ++ bays).filter (fun e => e.2.2 != 0)).map (fun e => (latchKey e.1 e.2.1, e.2.2))

/-- The clock goes on to t, and what a multiple of 10 ms latches is latched. [log 196 DEDUCED, 197 DEDUCED] -/
def passTo (t : Nat) (s : State) : State :=
  let e := s.epoch
  let f := ({ s with clk := t } : State).epoch
  let mhz (n : Nat) : Nat := (tget ({} : BayClk) s.pow.bays n).mhz
  let a := e / latchPeriod
  let b := f / latchPeriod
  if a = b then
    { s with clk := t, latch := { s.latch with acc := (List.range 17).map (fun n => s.latch.acc.getD n 0 + mhz n * (f - e)) } }
  else
    { s with clk := t, latch := {
        slot := b
        acc := (List.range 17).map (fun n => mhz n * (f % latchPeriod))
        mhz := (List.range 17).map (fun n =>
          if b = a + 1 then (s.latch.acc.getD n 0 + mhz n * (latchPeriod - e % latchPeriod)) / latchPeriod else mhz n)
        temps := s.pow.temps
        counts := ((List.range 8).filter (fun k => (s.shelf k).conf)).map (fun k => (k, latchedCounts s k)) } }

/-- Time passes until the clock reads at least t. [log 3 DESIGN CHOICE] -/
def advanceClk (t : Nat) (s : State) : State := if s.clk < t then passTo t s else s

/-- Time passes until epoch time is at least t; slewing may make that longer. [log 3 DESIGN CHOICE] -/
def State.toEpoch (s : State) (t : Nat) : State :=
  let d := t - s.epoch
  advanceClk (s.clk + d + (if 0 < s.tim.slew ∧ 0 < d then d / 4999 + 2 else 0)) s

end Sys2Proof.Machine
end

