-- ==== Sys2Proof/Machine/FoldArith.lean ====
section
/-!
DEFINITION. The fold arithmetic of 04_folding.md: the codes of R116, the moduli of R119, the terms
of R118, R120 and R121, the combination of Cask words and Keg elements (R118, R131, R132, R134),
and the fields, areas and rows of a Cask descriptor (R112, R113, R141).
-/
namespace Sys2Proof.Machine

/-! ### Cask registers (R141) -/

def Cask.en (c : Cask) : Bool := bit c.cfg 0
def Cask.signed (c : Cask) : Bool := bit c.cfg 1
def Cask.op (c : Cask) : Nat := bits c.cfg 15 8
def Cask.inWidth (c : Cask) : Nat := bits c.cfg 21 16
def Cask.limbShift (c : Cask) : Nat := bits c.cfg 28 24
def Cask.popG (c : Cask) : Nat := bits c.cfg 31 29
def Cask.limbsM1 (c : Cask) : Nat := bits c.cfg 37 32
def Cask.modIdx (c : Cask) : Nat := bits c.cfg 43 38
def Cask.rowBase (c : Cask) : Nat := bits c.area 15 0
def Cask.len (c : Cask) : Nat := bits c.area 36 16
def Cask.kegRow (c : Cask) : Nat := bits c.keg 16 0
def Cask.tilesM1 (c : Cask) : Nat := bits c.keg 31 24
def Cask.sel (c : Cask) : Nat := bits c.keg 39 32

/-! ### The arithmetic codes (R116) -/

def opAdd32 : Nat := 0x01
def opAdd64 : Nat := 0x02
def opAddP : Nat := 0x03
def opAddF64 : Nat := 0x04
def opAddF128 : Nat := 0x05
def opExact : Nat := 0x06
def opPopcnt : Nat := 0x07
def opXor : Nat := 0x08
def opAnd : Nat := 0x09
def opOr : Nat := 0x0A
def opMin : Nat := 0x0B
def opMax : Nat := 0x0C
def opAddRns : Nat := 0x0D

/-- A defined code. -/
def opDefined (op : Nat) : Bool := decide (1 ≤ op) && decide (op ≤ 0x0D)

/-- Invertible: FOLD.P and NEG allowed. -/
def opInvertible (op : Nat) : Bool := !(op == opAnd || op == opOr || op == opMin || op == opMax)

/-- The arithmetics whose Cask spills by itself. -/
def opSpills (op : Nat) : Bool := op == opExact || op == opPopcnt

/-- The modular arithmetics whose modulus depends on the element. -/
def opModular (op : Nat) : Bool := op == opAddP || op == opAddF64 || op == opAddF128 || op == opAddRns

/-- Elements of one 256-byte Cask row (R112). -/
def rowElems (op : Nat) : Nat := if op == opAddF128 then 16 else 32

/-- Rows of the Cask area. -/
def Cask.rows (c : Cask) : Nat := (c.len + rowElems c.op - 1) / rowElems c.op

/-- The row of element e. -/
def Cask.rowOf (c : Cask) (e : Nat) : Nat := e / rowElems c.op

/-- The Cask area in its bay store: offset and length in bytes (R112). -/
def Cask.areaAt (c : Cask) : Nat × Nat := (c.rowBase * 256, c.rows * 256)

/-- The Keg area in its Loft slice: offset and length in bytes, whole 512-byte rows (R113). -/
def Cask.kegAt (c : Cask) : Nat × Nat := (c.kegRow * 512, roundUp ((c.tilesM1 + 1) * c.len * 16) 512)

/-- The Cask holds its areas: it is enabled, or they are still being zeroised (R114, R115). [log 41 DESIGN CHOICE] -/
def Cask.held (c : Cask) : Bool := c.en || c.scrub

/-- The areas that it holds. [log 41 DESIGN CHOICE, 42 DEDUCED] -/
def Cask.holds (c : Cask) : (Nat × Nat) × (Nat × Nat) := if c.en then (c.areaAt, c.kegAt) else (c.scrubArea, c.scrubKeg)

/-- The prime of Field64. -/
def field64 : Nat := 2 ^ 64 - 2 ^ 32 + 1
/-- The prime of Field128. -/
def field128 : Nat := 2 ^ 128 - 7 * 2 ^ 66 + 1

/-- The modulus of Cask element e for a modular arithmetic (R119). -/
def Cask.modulus (c : Cask) (mods : Tab Word) (e : Nat) : Nat :=
  if c.op = opAddF64 then field64
  else if c.op = opAddF128 then field128
  else if c.op = opAddRns then (tget 0 mods (c.modIdx + (e >>> c.limbShift) % (c.limbsM1 + 1))).toNat % 2 ^ 62
  else (tget 0 mods c.modIdx).toNat % 2 ^ 62

/-- Whether the Cask word and Keg form are signed (R118). -/
def Cask.isSigned (c : Cask) : Bool := opSpills c.op || ((c.op == opMin || c.op == opMax) && c.signed)

/-- Width of a Cask word. -/
def Cask.width (c : Cask) : Nat := if c.op == opAddF128 then 128 else 64

/-- The identity as a Cask word (R118). -/
def Cask.ident (c : Cask) : Nat :=
  if c.op = opAnd then 2 ^ 64 - 1
  else if c.op = opMin then (if c.signed then 2 ^ 63 - 1 else 2 ^ 64 - 1)
  else if c.op = opMax then (if c.signed then 2 ^ 63 else 0)
  else 0

/-- A Cask word in 128-bit Keg form (R118). -/
def Cask.kegForm (c : Cask) (v : Nat) : Nat := if c.isSigned then wrap 128 (sext 64 v) else v

/-- The identity in Keg form. -/
def Cask.kegIdent (c : Cask) : Nat := c.kegForm c.ident

/-! ### Terms (R118, R120, R121) -/

/-- A term with the events that its conversion counts. -/
structure Term where
  val     : Int
  inexact : Nat := 0
  sat     : Nat := 0
  nan     : Nat := 0
  deriving DecidableEq, Repr

/-- Clamp to w bits two's complement; a value outside is counted as saturated. -/
def clampTerm (w : Nat) (q : Int) (inexact : Nat) : Term :=
  if q < -(2 : Int) ^ (w - 1) then { val := -(2 : Int) ^ (w - 1), sat := 1 }
  else if q > (2 : Int) ^ (w - 1) - 1 then { val := (2 : Int) ^ (w - 1) - 1, sat := 1 }
  else { val := q, inexact := inexact }

/-- Round m / 2^n to the nearest integer, ties to even. -/
def roundEven (m n : Nat) : Nat :=
  let q := m / 2 ^ n
  let r := m % 2 ^ n
  if 2 * r > 2 ^ n ∨ (2 * r = 2 ^ n ∧ q % 2 = 1) then q + 1 else q

/-- Conversion of a float with eb exponent and mb fraction bits (R120). -/
def floatTerm (eb mb raw : Nat) (e : Int) (w : Nat) : Term :=
  let neg := nbit raw (eb + mb)
  let ex := nbits raw (eb + mb - 1) mb
  let fr := raw % 2 ^ mb
  if ex = 2 ^ eb - 1 ∧ fr ≠ 0 then { val := 0, nan := 1 }
  else if ex = 2 ^ eb - 1 then
    { val := if neg then -(2 : Int) ^ (w - 1) else (2 : Int) ^ (w - 1) - 1, sat := 1 }
  else
    let m := if ex = 0 then fr else fr + 2 ^ mb
    let k : Int := (max ex 1 : Nat) - ((2 : Int) ^ (eb - 1) - 1) - mb
    let t := k - e
    let q0 : Nat := if 0 ≤ t then m * 2 ^ t.toNat else roundEven m (-t).toNat
    let inexact := if 0 ≤ t then 0 else if m % 2 ^ (-t).toNat = 0 then 0 else 1
    clampTerm w (if neg then -(q0 : Int) else q0) inexact

/-- The value of an integer source element. -/
def intSource (etype raw : Nat) : Int :=
  match etype with
  | 0x03 => sext 8 raw
  | 0x04 => sext 16 raw
  | 0x05 => sext 32 raw
  | 0x06 => sext 64 raw
  | _ => raw

/-- Whether the source type is a float (R82). -/
def isFloat (etype : Nat) : Bool := etype == 0x08 || etype == 0x09 || etype == 0x0A

/-- The converted float source. -/
def floatOf (etype raw : Nat) (e : Int) (w : Nat) : Term :=
  match etype with
  | 0x08 => floatTerm 8 23 raw e w
  | 0x09 => floatTerm 8 7 raw e w
  | _ => floatTerm 5 10 raw e w

/-- Set bits among the low n bits. -/
def popcount (n v : Nat) : Nat := ((List.range n).map (fun i => b2n (v.testBit i))).sum

/-- The term of one source element (for BIT, the element's group of bits), before NEG (R118). -/
def Cask.term (c : Cask) (mods : Tab Word) (e etype raw : Nat) (scale : Int) : Term :=
  if c.op = opAdd32 then { val := (raw % 2 ^ 32 : Nat) }
  else if c.op = opAdd64 then { val := (raw % 2 ^ 64 : Nat) }
  else if opModular c.op then
    let m := c.modulus mods e
    { val := (raw % m : Nat), sat := if raw < m then 0 else 1 }
  else if c.op = opExact then
    if isFloat etype then floatOf etype raw scale c.inWidth else clampTerm c.inWidth (intSource etype raw) 0
  else if c.op = opPopcnt then { val := (popcount (2 ^ c.popG) raw : Nat) }
  else if (c.op = opMin ∨ c.op = opMax) ∧ c.signed then
    if isFloat etype then floatOf etype raw scale c.inWidth else { val := intSource etype raw }
  else { val := (raw : Nat) }

/-- NEG and the inverse of a retraction: the additive inverse under the Cask's arithmetic; XOR is
its own inverse (R118). -/
def Cask.negTerm (c : Cask) (t : Term) : Term := if c.op = opXor then t else { t with val := -t.val }

/-- Combine a Cask word with a term (R118). -/
def Cask.combine (c : Cask) (mods : Tab Word) (e v : Nat) (t : Int) : Nat :=
  if c.op = opAdd32 then wrap 32 ((v : Int) + t)
  else if c.op = opAdd64 ∨ opSpills c.op then wrap 64 ((v : Int) + t)
  else if opModular c.op then (((v : Int) + t) % (c.modulus mods e : Int)).toNat
  else if c.op = opXor then v ^^^ wrap 64 t
  else if c.op = opAnd then v &&& wrap 64 t
  else if c.op = opOr then v ||| wrap 64 t
  else
    let x : Int := if c.signed then sext 64 v else v
    wrap 64 (if c.op = opMin then min x t else max x t)

/-- A term written into a Cask element, as FOLD.O writes it. -/
def Cask.termWord (c : Cask) (mods : Tab Word) (e : Nat) (t : Int) : Nat :=
  if c.op = opAdd32 then wrap 32 t
  else if opModular c.op then (t % (c.modulus mods e : Int)).toNat
  else wrap 64 t

/-- Combine a Keg element with a Cask word, in Keg form (R131, R132). -/
def Cask.kegCombine (c : Cask) (mods : Tab Word) (e k v : Nat) : Nat :=
  if opSpills c.op then wrap 128 (sext 128 k + sext 64 v)
  else c.kegForm (c.combine mods e (k % 2 ^ c.width) (if c.isSigned then sext 64 v else v))

/-- Combine a Keg element with a term directly (R139). -/
def Cask.kegFold (c : Cask) (mods : Tab Word) (e k : Nat) (t : Int) : Nat :=
  if opSpills c.op then wrap 128 (sext 128 k + t)
  else c.kegForm (c.combine mods e (k % 2 ^ c.width) t)

/-- Whether the Cask's OP accepts a source type (R117). -/
def Cask.accepts (c : Cask) (etype : Nat) : Bool :=
  if c.op = opAdd32 then etype == 0x01 || etype == 0x05
  else if c.op = opAdd64 then etype == 0x02 || etype == 0x06
  else if c.op = opAddP then etype == 0x07
  else if c.op = opAddF64 then etype == 0x10
  else if c.op = opAddF128 then etype == 0x11
  else if c.op = opAddRns then etype == 0x20
  else if c.op = opExact then
    etype == 0x01 || etype == 0x03 || etype == 0x04 || etype == 0x05 || etype == 0x06 || isFloat etype
  else if c.op = opPopcnt then etype == 0x0B
  else if c.op = opXor ∨ c.op = opAnd ∨ c.op = opOr then etype == 0x02 || etype == 0x0B
  else if c.signed then etype == 0x03 || etype == 0x04 || etype == 0x05 || etype == 0x06 || isFloat etype
  else etype == 0x01 || etype == 0x02

/-- Coordinates that one Cask element covers (R117). -/
def Cask.coords (c : Cask) (etype : Nat) : Nat :=
  if c.op = opPopcnt then 2 ^ c.popG else if etype = 0x0B then 64 else 1

/-- Source bytes of one source element; an RLWE residue takes 8 (R117). -/
def srcBytes (etype : Nat) : Nat := if etype = 0x20 then 8 else (etypeBytes etype).getD 1

/-- CASK_STATE.LOG2_INTERVAL (R130). [log 40 DEDUCED] -/
def Cask.log2Interval (c : Cask) : Nat :=
  if c.op = opExact then 63 - c.inWidth else if c.op = opPopcnt then 55 else 0x3F

/-- Whether the fields that OP uses are in range and the others zero (R115, R118, R119, R130, R141). [log 38 DEDUCED] -/
def Cask.fieldsOk (c : Cask) (mods : Tab Word) : Bool :=
  let minmax := c.op == opMin || c.op == opMax
  let modOk (i bound : Nat) : Bool :=
    let m := (tget 0 mods i).toNat % 2 ^ 62
    decide (3 ≤ m) && decide (m < bound) && m % 2 == 1
  opDefined c.op && (c.signed → minmax) &&
  (if c.op == opExact || (minmax && c.signed) then decide (2 ≤ c.inWidth) && decide (c.inWidth ≤ 62) else c.inWidth == 0) &&
  (if c.op == opPopcnt then decide (c.popG ≤ 6) else c.popG == 0) &&
  (if c.op == opAddRns then
     decide (12 ≤ c.limbShift) && decide (c.limbShift ≤ 17) && decide (c.modIdx + c.limbsM1 < 64) &&
     (List.range (c.limbsM1 + 1)).all (fun i => modOk (c.modIdx + i) (2 ^ 60))
   else c.limbShift == 0 && c.limbsM1 == 0) &&
  (if c.op == opAddP then modOk c.modIdx (2 ^ 62) else if c.op == opAddRns then true else c.modIdx == 0)

end Sys2Proof.Machine
end

