-- ==== Sys2Proof/Machine/Params.lean ====
section
/-!
DEFINITION. Parameter sets and key sets as loaded (R217, R224, R225): their fields, the ciphertext
object's sizes (R220, R221), the round's set, and the areas of a sealed round (R243, R246) and of the
refresh scratch (R257); the Prio3 instances (R191-R195).
-/
namespace Sys2Proof.Machine

/-! ### Parameter sets (R217) -/

def PSet.scheme (p : PSet) : Nat := field p.block 6 1
def PSet.log2n (p : PSet) : Nat := field p.block 7 1
def PSet.n (p : PSet) : Nat := 2 ^ p.log2n
def PSet.limbs (p : PSet) : Nat := field p.block 8 1
def PSet.special (p : PSet) : Nat := field p.block 9 1
def PSet.dnum (p : PSet) : Nat := field p.block 0xA 1
def PSet.slotEnc (p : PSet) : Bool := field p.block 0xB 1 == 1
def PSet.form (p : PSet) : Nat := field p.block 0xC 1
def PSet.policy (p : PSet) : Nat := field p.block 0xD 1
def PSet.cts (p : PSet) : Nat := field p.block 0xE 1
def PSet.smudge (p : PSet) : Nat := field p.block 0xF 1
def PSet.t (p : PSet) : Nat := field p.block 0x10 8
def PSet.fresh (p : PSet) : Nat := field p.block 0x18 2
def PSet.kswCap (p : PSet) : Nat := field p.block 0x1A 2
def PSet.decCost (p : PSet) : Nat := field p.block 0x1C 2
def PSet.refreshBudget (p : PSet) : Nat := field p.block 0x1E 2
/-- Entry i of PRIMES: q_0 to q_(L−1), then p_0 to p_(K−1). -/
def PSet.prime (p : PSet) (i : Nat) : Nat := field p.block (0x40 + 8 * i) 8

/-- Bytes of an object at a level: header and body (R220, R221). -/
def objLen (level n : Nat) : Nat := 64 + 16 * level * n

/-- Bytes of a fresh object of the set. -/
def PSet.obj (p : PSet) : Nat := objLen p.limbs p.n

/-- Ciphertext length of the set (R222). -/
def PSet.ctLen (p : PSet) : Nat := p.cts * p.obj

/-- Parameter-set entry i of a shelf. -/
def Shelf.pset (h : Shelf) (i : Nat) : Option PSet := (h.lat.psets.find? (fun e => e.1 == i)).map (·.2)

/-- Key-set entry i of a shelf. -/
def Shelf.kset (h : Shelf) (i : Nat) : Option KSet := (h.lat.ksets.find? (fun e => e.1 == i)).map (·.2)

/-- The parameter set of the running sealed round (R241). -/
def Shelf.roundSet (h : Shelf) : Option PSet := h.pset (h.round.desc.inst % 16)

/-- The shelf runs a sealed round. -/
def Shelf.sealedRound (h : Shelf) : Bool := h.round.active && h.round.desc.mode == 3

/-! ### Key sets (R224, R225) -/

def KSet.refreshKeys (x : KSet) : Bool := field x.header 6 1 == 1
def KSet.id (x : KSet) : Nat := field x.header 8 8
def KSet.keyId (x : KSet) : Nat := field x.header 0x10 8
def KSet.paramFp (x : KSet) : Nat := field x.header 0x18 8
def KSet.holder (x : KSet) : Nat := field x.header 0x20 1
def KSet.groupSize (x : KSet) : Nat := field x.header 0x21 1
def KSet.threshold (x : KSet) : Nat := field x.header 0x22 1
/-- Offset 0x23 of a key set: the slot of the share key. -/
def KSet.shareSlot (x : KSet) : Nat := field x.header 0x23 1
def KSet.keys (x : KSet) : Nat := field x.header 0x24 2
def KSet.chunks (x : KSet) : Nat := field x.header 0x28 4
def KSet.shareFirst (x : KSet) : Nat := field x.header 0x2C 4
def KSet.nonce (x : KSet) : Bytes := slice x.header 0x50 12
def KSet.tag (x : KSet) : Bytes := slice x.header 0x5C 16
def KSet.galois (x : KSet) (k : Nat) : Nat := field x.header (0x100 + 16 * k) 4
def KSet.first (x : KSet) (k : Nat) : Nat := field x.header (0x104 + 16 * k) 4
def KSet.count (x : KSet) (k : Nat) : Nat := field x.header (0x108 + 16 * k) 4
/-- Chunks of the tag area. -/
def tagChunks (chunks : Nat) : Nat := (16 * chunks + 65535) / 65536
/-- The address of tag j. -/
def KSet.tagAt (x : KSet) (j : Nat) : Nat := x.base + 0x10000 + 16 * j
/-- The address of data chunk j. -/
def KSet.chunkAt (x : KSet) (j : Nat) : Nat := x.base + (1 + tagChunks x.chunks + j) * 0x10000

/-- A shelf has a resident key set. -/
def Shelf.keysResident (h : Shelf) : Bool := !h.lat.ksets.isEmpty

/-! ### The stream buffer (R228) -/

/-- The top 2 MiB of a Loft slice: rows 94,208 to 98,303. -/
def streamBuf : Nat × Nat := (94208 * 512, 0x20_0000)

/-! ### Areas of a sealed round (R243, R246) -/

def rSealSum : Nat := 0x0C10
def rSealPart : Nat := 0x0C18

/-- The sum area of a round that uses the set. -/
def Shelf.sumArea (h : Shelf) (p : PSet) : Nat × Nat := (bits (h.reg rSealSum) 47 6 * 64, p.ctLen)

/-- The region of a register with BASE_64K in [31:0] and SIZE_64K in [63:32]. -/
def region64k (w : Word) : Nat × Nat := (bits w 31 0 * 0x10000, bits w 63 32 * 0x10000)

/-- Bytes of a partial message's body (R245). -/
def PSet.partLen (p : PSet) : Nat := 128 + 8 * p.cts * p.limbs * p.n

/-- The slot of holder j in the partial region. -/
def Shelf.partSlot (h : Shelf) (p : PSet) (j : Nat) : Nat := (region64k (h.reg rSealPart)).1 + j * roundUp p.partLen 0x10000

/-! ### The refresh scratch (R257) -/

def rRefreshScr : Nat := 0x0E80
def rRefreshCfg : Nat := 0x0E88

/-- SLOTS and SLOT_64K of REFRESH_CFG. -/
def Shelf.refSlots (h : Shelf) : Nat := bits (h.reg rRefreshCfg) 3 0
def Shelf.refUnits (h : Shelf) : Nat := bits (h.reg rRefreshCfg) 63 32
/-- The address of slot i's control page. -/
def Shelf.refSlotAt (h : Shelf) (i : Nat) : Nat := (region64k (h.reg rRefreshScr)).1 + i * h.refUnits * 0x10000

/-! ### Prio3 instances (R191-R195) -/

/-- The fields of an instance entry and what R192 derives. -/
structure Inst where
  valid  : Bool
  typ    : Nat
  f128   : Bool
  proofs : Nat
  nbit   : Nat
  length : Nat
  chunk  : Nat
  vkSlot : Nat

def rPrioA (i : Nat) : Nat := 0x0A00 + i * 0x10
def rPrioB (i : Nat) : Nat := 0x0A08 + i * 0x10

/-- Instance entry i. [log 70 DESIGN CHOICE] -/
def Shelf.inst (h : Shelf) (i : Nat) : Inst :=
  let a := h.reg (rPrioA i)
  { valid := bit a 0, typ := bits a 2 1, f128 := bit a 3, proofs := bits a 5 4, nbit := bits a 15 8
    length := bits a 39 16, chunk := bits a 55 40, vkSlot := bits (h.reg (rPrioB i)) 39 32 }

/-- The least power of two not below n. -/
def pow2Up (n : Nat) : Nat := if n ≤ 1 then 1 else 2 ^ ((n - 1).log2 + 1)

def Inst.arity (i : Inst) : Nat := match i.typ with | 0 => 2 | 1 => 1 | _ => 2 * i.chunk
def Inst.measLen (i : Inst) : Nat := match i.typ with | 0 => 1 | 1 => i.nbit | 2 => i.length * i.nbit | _ => i.length
def Inst.calls (i : Inst) : Nat :=
  match i.typ with
  | 0 => 1 | 1 => i.nbit
  | 2 => (i.length * i.nbit + i.chunk - 1) / max 1 i.chunk
  | _ => (i.length + i.chunk - 1) / max 1 i.chunk
def Inst.jointRand (i : Inst) : Bool := i.typ != 0
def Inst.truncBits (i : Inst) : Nat := match i.typ with | 1 => i.nbit | 2 => i.nbit | _ => 1
def Inst.elem (i : Inst) : Nat := if i.f128 then 16 else 8
def Inst.prime (i : Inst) : Nat := if i.f128 then field128 else field64
/-- Field elements of one proof (PL) and of one verifier share (VL). -/
def Inst.pl (i : Inst) : Nat := i.arity + 2 * (pow2Up (1 + i.calls) - 1) + 1
def Inst.vl (i : Inst) : Nat := i.arity + 2

/-- The limits of R192. [log 70 DESIGN CHOICE] -/
def Inst.ok (i : Inst) : Bool :=
  let vec := i.typ == 2 || i.typ == 3
  (if i.typ == 1 || i.typ == 2 then decide (1 ≤ i.nbit) && decide (i.nbit ≤ 64) else i.nbit == 0) &&
  (if vec then decide (1 ≤ i.length) && decide (1 ≤ i.chunk) && decide (i.chunk ≤ 1024) else i.length == 0 && i.chunk == 0) &&
  decide (i.measLen ≤ 2 ^ 22) && decide (1 ≤ i.proofs)

/-- The proof length of the instance for a group (R195). -/
def Inst.proofLen (i : Inst) (group : Nat) : Nat :=
  i.proofs * i.pl * i.elem + (if i.jointRand then 32 + group * 32 else 0)

/-- RECORD_LEN (R203). -/
def Inst.recordLen (i : Inst) : Nat := 8 + i.proofs * i.vl * i.elem + (if i.jointRand then 32 else 0)

/-- The instance of the running round. -/
def Shelf.roundInst (h : Shelf) : Inst := h.inst (h.round.desc.inst % 16)

def rVerifTable : Nat := 0x0B08

/-- Bytes of the verifier table that a round needs. -/
def verifTableLen (clients group : Nat) (i : Inst) : Nat := clients * group * roundUp i.recordLen 64

/-! ### Release (R284, R288) -/

def rRelScr : Nat := 0x0F10
def rRecovCfg : Nat := 0x0908

/-- The vectors that an optimiser uses, w included (R278). -/
def optVectors (opt : Nat) : Nat := match opt with | 1 => 1 | 2 => 2 | 3 => 2 | _ => 3

/-- Bytes of a model shard (R278). -/
def shardLen (opt elems : Nat) : Nat := 64 + optVectors opt * roundUp (elems * 4) 64

/-- Bytes of a share object (R211). -/
def sobLen (elem elems : Nat) : Nat := 64 + 2 * roundUp (elem * elems) 64

/-- The buffer that a round writes: 0 when ACTIVE is 0xFF, else the one that ACTIVE does not name (R289). -/
def inactiveBuf (d : Bytes) : Nat := if field d 6 1 = 0 then 1 else 0

/-- BUF0, BUF1 and the buffers' size, of a release descriptor as read (R288). -/
def relBuf (d : Bytes) (i : Nat) : Nat × Nat := (field d (0x18 + 8 * i) 8, field d 0x28 4 * 0x10000)

/-- A ciphertext object header from its fields (R220). [log 84 DEDUCED] -/
def hdrBytes (scheme log2n keyset param level flags budget policy : Nat) : Bytes :=
  toLe 4 0x4354574B ++ toLe 2 1 ++ toLe 1 scheme ++ toLe 1 log2n ++ toLe 8 keyset ++ toLe 8 param ++ toLe 1 level ++
  toLe 1 flags ++ toLe 2 budget ++ toLe 1 policy ++ zeros 35

end Sys2Proof.Machine
end

