-- ==== Sys2Proof/Machine/Closed.lean ====
section
/-!
DEFINITION. The regions that are refused to sequencers, engines and windows under R38 (and so to
host software, R406), as shelf-relative ranges: Cask and Keg areas (R114), ring reservations and
middles (R42, R92), the crate log (R109), the client table of an active round (R60), resident key-set images and stream buffers
(R228), the refresh scratch (R257), the regions of the round's mode, and those of the release.
-/
namespace Sys2Proof.Machine

/-! Offsets of the shelf block's registers that name a region (R88). -/
def rKeydirBase : Nat := 0x310
def rKeydirRange : Nat := 0x318
def rClogCfg : Nat := 0x320
def rRejlogCfg : Nat := 0x338
def rCtabCfg : Nat := 0x348

/-- The crate log (R109 CLOG_CFG). -/
def Shelf.clog (h : Shelf) : Nat × Nat := region64k (h.reg rClogCfg)

/-- The region of the client table (R88 CTAB_CFG). [log 31 DEDUCED] -/
def Shelf.ctab (h : Shelf) : Nat × Nat := region64k (h.reg rCtabCfg)

/-- Bytes of the client table of a round (R60). -/
def ctabLen (clients : Nat) : Nat := roundUp ((clients + 3) / 4) 64

/-- The key directory: base and bytes (R86, R88). -/
def Shelf.keydir (h : Shelf) : Nat × Nat := (bits (h.reg rKeydirBase) 47 6 * 64, bits (h.reg rKeydirRange) 63 32 * 64)

/-- The reject log: base and bytes, while enabled (R100). -/
def Shelf.rejlog (h : Shelf) : Nat × Nat :=
  (bits (h.reg rRejlogCfg) 47 6 * 64, if bit (h.reg rRejlogCfg) 63 then 0x2_0000 else 0)

/-- Cask and Keg areas of a bay that is shelf bay i: every enabled Cask and every Cask whose areas
are still being zeroised (R114, R115). -/
def bayClosed (y : Bay) (i : Nat) : List (Nat × Nat) :=
  y.casks.flatMap (fun e =>
    if e.2.held then
      [(storeAddr i e.2.holds.1.1, e.2.holds.1.2), (loftAddr i e.2.holds.2.1, e.2.holds.2.2)]
    else [])

/-- Ring heads, tails and middles (R42, R92). -/
def ringsClosed (n : Intake) : List (Nat × Nat) :=
  n.rings.flatMap (fun e => (e.2.middleBase, e.2.middleSize) :: e.2.reserve.map (fun r => (loftAddr e.2.bay r.1, r.2)))

/-- The Loft stream buffers of a shelf's bays while a key set is resident (R228). -/
def streamClosed (h : Shelf) : List (Nat × Nat) :=
  if h.keysResident then (List.range h.bays.length).map (fun i => (loftAddr i streamBuf.1, streamBuf.2)) else []

/-- The regions that the mode of a running round closes: the recovery region (R185), the verifier table
(R207), the sum area and the partial region (R243, R246). [log 79 DEDUCED, 82 DEDUCED] -/
def modeClosed (h : Shelf) : List (Nat × Nat) :=
  match h.round.desc.mode with
  | 1 => [region64k (h.reg 0x0908)]
  | 2 => [region64k (h.reg 0x0B08)]
  | _ => [h.round.sum, region64k (h.reg rSealPart)]

/-- The release scratch, the model shard and its Loft copy, from START to the end of the round (R278, R279,
R284). [log 79 DEDUCED] -/
def releaseClosed (h : Shelf) : List (Nat × Nat) :=
  let d := h.round.desc
  let len := shardLen (field h.rel.opt 6 1) d.elemCount
  region64k (h.reg rRelScr) ::
    (if nbit d.flags 2 then (d.modelAddr, len) :: (if h.rel.copy then [(field h.rel.opt 0x20 8, len)] else []) else [])

/-- Both release buffers (R288). -/
def bufClosed (h : Shelf) : List (Nat × Nat) := if h.rel.relDesc.isEmpty then [] else [relBuf h.rel.relDesc 0, relBuf h.rel.relDesc 1]

/-- The context area (R448), which CTX_CFG names, and the model region (R484). -/
def keptClosed (h : Shelf) : List (Nat × Nat) :=
  let v := h.reg 0x40
  let n := match h.desc with | none => 0 | some d => d.contexts
  (bits v 31 0 * 0x10000, n * (bits v 63 32 * 0x10000)) :: (match h.model with | none => [] | some r => [r])

/-- The ranges of shelf k that are closed to host software too, shelf-relative (R406); R288 governs the release buffers. [log 79 DEDUCED, 183 DEDUCED] -/
def hostClosed (s : State) (k : Nat) : List (Nat × Nat) :=
  let h := s.shelf k
  (h.bays.zipIdx.flatMap (fun e => bayClosed (s.bay e.1) e.2)) ++ ringsClosed h.intake ++ [h.clog] ++
  (h.lat.ksets.map (fun e => (e.2.base, e.2.units * 0x10000))) ++ streamClosed h ++ [region64k (h.reg rRefreshScr)] ++ keptClosed h ++
  (if h.round.active then h.ctab :: modeClosed h ++ releaseClosed h else [])

/-- Every closed range of shelf k, shelf-relative. -/
def closedRanges (s : State) (k : Nat) : List (Nat × Nat) := hostClosed s k ++ bufClosed (s.shelf k)

/-- Whether n bytes at a are memory of the shelf outside every closed range (R38, R333). -/
def openRange (s : State) (k a n : Nat) : Bool :=
  inShelf (s.shelf k) a n && (closedRanges s k).all (fun r => !overlap a n r.1 r.2)

/-- Whether n bytes at a are open to the lattice cluster, which also reaches the sum area (R243). -/
def latticeRange (s : State) (k a n : Nat) : Bool :=
  let h := s.shelf k
  let sum := h.round.sum
  inShelf h a n && (closedRanges s k).all (fun r => !overlap a n r.1 r.2 || (h.sealedRound && r == sum))

/-- A lattice operand: 64-byte aligned (R333). -/
def latticeOk (s : State) (k a n : Nat) : Bool := a % 64 == 0 && latticeRange s k a n

/-- An engine operand of n bytes at a, aligned to `al` (R333). -/
def operandOk (s : State) (k a n al : Nat) : Bool := a % al == 0 && openRange s k a n

end Sys2Proof.Machine
end

