-- ==== Sys2Proof/Machine/Hash.lean ====
section
/-!
DEFINITION. The hash functions that the manual names: SHA3-256, SHAKE256 and the 12-round
TurboSHAKE128 (R84, R173, R174), SHA-256, SHA-384, SHA-512, HMAC and HKDF (R81, R172, R287), and
the Merkle root of R84.
-/
namespace Sys2Proof.Machine

/-- Round constants of Keccak-f[1600] (FIPS 202). -/
def keccakRc : List Nat :=
  [0x1, 0x8082, 0x800000000000808a, 0x8000000080008000, 0x808b, 0x80000001, 0x8000000080008081, 0x8000000000008009, 0x8a, 0x88, 0x80008009, 0x8000000a, 0x8000808b, 0x800000000000008b, 0x8000000000008089, 0x8000000000008003] ++
  [0x8000000000008002, 0x8000000000000080, 0x800a, 0x800000008000000a, 0x8000000080008081, 0x8000000000008080, 0x80000001, 0x8000000080008008]

/-- n consecutive pieces of m bytes. -/
def pieces (m : Nat) : Nat → Bytes → List Bytes
  | 0, _ => []
  | n + 1, b => b.take m :: pieces m n (b.drop m)

/-- Cut into pieces of m bytes, the last one shorter. -/
def chunks (m : Nat) (b : Bytes) : List Bytes := pieces m ((b.length + m - 1) / m) b

/-! ### Keccak (FIPS 202) -/

/-- Rotation offsets of the lanes x + 5y. -/
def keccakRot : List Nat :=
  [0, 1, 62, 28, 27, 36, 44, 6, 55, 20, 3, 10, 43, 25, 39, 41, 45, 15, 21, 8, 18, 2, 61, 56, 14]

/-- One round of Keccak-f[1600] on 25 lanes. -/
def keccakRound (a : List Word) (rc : Nat) : List Word :=
  let g (l : List Word) (i : Nat) : Word := l.getD i 0
  let c := (List.range 5).map (fun x => g a x ^^^ g a (x + 5) ^^^ g a (x + 10) ^^^ g a (x + 15) ^^^ g a (x + 20))
  let d := (List.range 5).map (fun x => g c ((x + 4) % 5) ^^^ (g c ((x + 1) % 5)).rotateLeft 1)
  let a := (List.range 25).map (fun i => g a i ^^^ g d (i % 5))
  let b := (List.range 25).map (fun i =>
    let j := (i % 5 + 3 * (i / 5)) % 5 + 5 * (i % 5)
    (g a j).rotateLeft (keccakRot.getD j 0))
  (List.range 25).map (fun i =>
    let x := i % 5
    let y := i / 5 * 5
    let v := g b i ^^^ (~~~(g b ((x + 1) % 5 + y)) &&& g b ((x + 2) % 5 + y))
    if i = 0 then v ^^^ BitVec.ofNat 64 rc else v)

/-- The permutation with its last n rounds: 24 for SHA-3 and SHAKE, 12 for TurboSHAKE (R174). -/
def keccakP (n : Nat) (a : List Word) : List Word := (keccakRc.drop (24 - n)).foldl keccakRound a

/-- The lanes of a block. -/
def lanes (b : Bytes) : List Word := (chunks 8 b).map (fun x => BitVec.ofNat 64 (leNat x))

/-- Absorb one block. -/
def absorb (n : Nat) (a : List Word) (b : Bytes) : List Word :=
  let l := lanes b
  keccakP n (a.zipIdx.map (fun e => e.1 ^^^ l.getD e.2 0))

/-- Squeeze n blocks. -/
def squeeze (rounds rate : Nat) : Nat → List Word → Bytes
  | 0, _ => []
  | n + 1, a => (a.flatMap (fun w => toLe 8 w.toNat)).take rate ++ squeeze rounds rate n (keccakP rounds a)

/-- The sponge with a domain byte: `out` bytes of output. -/
def sponge (rounds rate dom : Nat) (m : Bytes) (out : Nat) : Bytes :=
  let n := rate - m.length % rate
  let pad : Bytes :=
    if n = 1 then [BitVec.ofNat 8 (dom ^^^ 0x80)]
    else BitVec.ofNat 8 dom :: zeros (n - 2) ++ [0x80]
  let a := (chunks rate (m ++ pad)).foldl (absorb rounds) (List.replicate 25 0)
  (squeeze rounds rate ((out + rate - 1) / rate) a).take out

/-- SHA3-256. -/
def sha3 (m : Bytes) : Bytes := sponge 24 136 0x06 m 32

/-- SHA3-384. -/
def sha3Wide (m : Bytes) : Bytes := sponge 24 104 0x06 m 48

/-- SHAKE256 with n output bytes. -/
def shake256 (m : Bytes) (n : Nat) : Bytes := sponge 24 136 0x1F m n

/-- SHAKE128 with n output bytes. -/
def shake128 (m : Bytes) (n : Nat) : Bytes := sponge 24 168 0x1F m n

/-- TurboSHAKE128 with a domain byte, n output bytes. -/
def turboShake (dom : Nat) (m : Bytes) (n : Nat) : Bytes := sponge 12 168 dom m n

/-! ### SHA-2 (FIPS 180-4) -/

/-- The primes from n on, below n + the count of candidates. -/
def primesFrom : Nat → Nat → List Nat
  | 0, _ => []
  | i + 1, n => if (List.range 21).all (fun d => decide (d < 2) || decide (n ≤ d) || n % d != 0) then n :: primesFrom i (n + 1) else primesFrom i (n + 1)

/-- The first n primes, n at most 80. -/
def primes (n : Nat) : List Nat := (primesFrom 408 2).take n

/-- The greatest r below x + 2^b, at least x, whose e-th power is at most v. -/
def rootBelow (e v : Nat) : Nat → Nat → Nat
  | 0, x => x
  | b + 1, x => rootBelow e v b (if (x + 2 ^ b) ^ e ≤ v then x + 2 ^ b else x)

/-- The first w bits of the fraction of the e-th root of p. -/
def rootFrac (w e p : Nat) : BitVec w := BitVec.ofNat w (rootBelow e (p * 2 ^ (e * w)) (w + 5) 0)

/-- The rotations of one SHA-2 word width: those of the functions on the words a and e of the state, and those of the schedule, whose last
amount shifts. -/
structure Sha2 where
  width  : Nat
  rounds : Nat
  onA    : List Nat
  onE    : List Nat
  older  : List Nat
  newer  : List Nat

/-- The words of 32 bits of SHA-256. -/
def sha2Short : Sha2 := { width := 32, rounds := 64, onA := [2, 13, 22], onE := [6, 11, 25], older := [7, 18, 3], newer := [17, 19, 10] }

/-- The words of 64 bits of SHA-384 and SHA-512. -/
def sha2Long : Sha2 := { width := 64, rounds := 80, onA := [28, 34, 39], onE := [14, 18, 41], older := [1, 8, 7], newer := [19, 61, 6] }

/-- The exclusive OR of three rotations of a word. -/
def spin {w : Nat} (l : List Nat) (x : BitVec w) : BitVec w := l.foldl (fun y n => y ^^^ x.rotateRight n) 0

/-- The same with a shift in place of the last rotation. -/
def spinShift {w : Nat} (l : List Nat) (x : BitVec w) : BitVec w := spin (l.take 2) x ^^^ (x >>> l.getD 2 0)

/-- One round, with its constant, on the eight words of the state and the sixteen words of the message that follow: the first of those is
used up, and the one that the schedule derives comes in at the end. -/
def Sha2.turn (p : Sha2) (st : List (BitVec p.width) × List (BitVec p.width)) (k : BitVec p.width) : List (BitVec p.width) × List (BitVec p.width) :=
  let v (i : Nat) : BitVec p.width := st.1.getD i 0
  let m (i : Nat) : BitVec p.width := st.2.getD i 0
  let pick := v 6 ^^^ (v 4 &&& (v 5 ^^^ v 6))
  let most := (v 0 &&& (v 1 ||| v 2)) ||| (v 1 &&& v 2)
  let x := m 0 + k + v 7 + pick + spin p.onE (v 4)
  ((x + most + spin p.onA (v 0)) :: st.1.take 3 ++ (v 3 + x) :: (st.1.drop 4).take 3,
   st.2.drop 1 ++ [m 0 + spinShift p.older (m 1) + m 9 + spinShift p.newer (m 14)])

/-- A block joins the state. -/
def Sha2.join (p : Sha2) (ks : List (BitVec p.width)) (h : List (BitVec p.width)) (block : Bytes) : List (BitVec p.width) :=
  let m := (chunks (p.width / 8) block).map (fun b => BitVec.ofNat p.width (beNat b))
  List.zipWith (· + ·) h (ks.foldl p.turn (h, m)).1

/-- The padding of a message of n bytes: a one bit, zeros, and its length in bits as two words. -/
def Sha2.padding (p : Sha2) (n : Nat) : Bytes :=
  let block := 2 * p.width
  let tail := p.width / 4
  0x80 :: zeros (roundUp (n + 1 + tail) block - (n + 1 + tail)) ++ toBe tail (8 * n)

/-- The first n bytes of the hash of a message from an initial state. -/
def Sha2.digest (p : Sha2) (start : List (BitVec p.width)) (n : Nat) (m : Bytes) : Bytes :=
  let ks := (primes p.rounds).map (rootFrac p.width 3)
  (((chunks (2 * p.width) (m ++ p.padding m.length)).foldl (p.join ks) start).flatMap (fun x => toBe (p.width / 8) x.toNat)).take n

def sha256 (m : Bytes) : Bytes := sha2Short.digest ((primes 8).map (rootFrac 32 2)) 32 m
def sha384 (m : Bytes) : Bytes := sha2Long.digest (((primes 16).drop 8).map (rootFrac 64 2)) 48 m
def sha512 (m : Bytes) : Bytes := sha2Long.digest ((primes 8).map (rootFrac 64 2)) 64 m

/-- HMAC (RFC 2104) over a hash with blocks of n bytes. -/
def hmac (hash : Bytes → Bytes) (n : Nat) (key m : Bytes) : Bytes :=
  let key := if key.length ≤ n then key else hash key
  let mask (x : Byte) : Bytes := (List.range n).map (fun i => x ^^^ key.getD i 0)
  hash (mask 0x5C ++ hash (mask 0x36 ++ m))

def hmac256 (key m : Bytes) : Bytes := hmac sha256 64 key m
def hmac384 (key m : Bytes) : Bytes := hmac sha384 128 key m

/-- The blocks of HKDF-Expand. -/
def hkdfExpand (mac : Bytes → Bytes → Bytes) (prk info : Bytes) : Nat → Bytes → Nat → Bytes
  | 0, _, _ => []
  | n + 1, prev, i =>
    let t := mac prk (prev ++ info ++ [BitVec.ofNat 8 i])
    t ++ hkdfExpand mac prk info n t (i + 1)

/-- HKDF-SHA-256 with a zero-length salt, L bytes (R172, RFC 5869). -/
def hkdf256 (ikm info : Bytes) (n : Nat) : Bytes :=
  (hkdfExpand hmac256 (hmac256 (zeros 32) ikm) info ((n + 31) / 32) [] 1).take n

/-! ### The crate digest (R84) -/

/-- One level of the tree: nodes paired from the left, an unpaired last node passed on. -/
def merklePair : List Bytes → List Bytes
  | [] => []
  | [x] => [x]
  | x :: y :: r => sha3 (1 :: x ++ y) :: merklePair r

/-- Levels up to the root. -/
def merkleUp : Nat → List Bytes → Bytes
  | 0, l => l.headD []
  | n + 1, l => if l.length ≤ 1 then l.headD [] else merkleUp n (merklePair l)

/-- The root of R84 over payload and proof material. -/
def merkleRoot (b : Bytes) : Bytes :=
  let l := (chunks 65536 b).map (fun x => sha3 (0 :: x))
  merkleUp l.length l

end Sys2Proof.Machine
end

