-- ==== Sys2Proof/Machine/Cipher.lean ====
section
/-!
DEFINITION. AES-256, its counter mode and GCM (R173, R175, R208), as FIPS 197 and NIST SP 800-38A
and 800-38D define them.
-/
namespace Sys2Proof.Machine

/-- The S-box of FIPS 197. -/
def aesSbox : List Nat :=
  [0x63, 0x7c, 0x77, 0x7b, 0xf2, 0x6b, 0x6f, 0xc5, 0x30, 0x1, 0x67, 0x2b, 0xfe, 0xd7, 0xab, 0x76] ++
  [0xca, 0x82, 0xc9, 0x7d, 0xfa, 0x59, 0x47, 0xf0, 0xad, 0xd4, 0xa2, 0xaf, 0x9c, 0xa4, 0x72, 0xc0] ++
  [0xb7, 0xfd, 0x93, 0x26, 0x36, 0x3f, 0xf7, 0xcc, 0x34, 0xa5, 0xe5, 0xf1, 0x71, 0xd8, 0x31, 0x15] ++
  [0x4, 0xc7, 0x23, 0xc3, 0x18, 0x96, 0x5, 0x9a, 0x7, 0x12, 0x80, 0xe2, 0xeb, 0x27, 0xb2, 0x75] ++
  [0x9, 0x83, 0x2c, 0x1a, 0x1b, 0x6e, 0x5a, 0xa0, 0x52, 0x3b, 0xd6, 0xb3, 0x29, 0xe3, 0x2f, 0x84] ++
  [0x53, 0xd1, 0x0, 0xed, 0x20, 0xfc, 0xb1, 0x5b, 0x6a, 0xcb, 0xbe, 0x39, 0x4a, 0x4c, 0x58, 0xcf] ++
  [0xd0, 0xef, 0xaa, 0xfb, 0x43, 0x4d, 0x33, 0x85, 0x45, 0xf9, 0x2, 0x7f, 0x50, 0x3c, 0x9f, 0xa8] ++
  [0x51, 0xa3, 0x40, 0x8f, 0x92, 0x9d, 0x38, 0xf5, 0xbc, 0xb6, 0xda, 0x21, 0x10, 0xff, 0xf3, 0xd2] ++
  [0xcd, 0xc, 0x13, 0xec, 0x5f, 0x97, 0x44, 0x17, 0xc4, 0xa7, 0x7e, 0x3d, 0x64, 0x5d, 0x19, 0x73] ++
  [0x60, 0x81, 0x4f, 0xdc, 0x22, 0x2a, 0x90, 0x88, 0x46, 0xee, 0xb8, 0x14, 0xde, 0x5e, 0xb, 0xdb] ++
  [0xe0, 0x32, 0x3a, 0xa, 0x49, 0x6, 0x24, 0x5c, 0xc2, 0xd3, 0xac, 0x62, 0x91, 0x95, 0xe4, 0x79] ++
  [0xe7, 0xc8, 0x37, 0x6d, 0x8d, 0xd5, 0x4e, 0xa9, 0x6c, 0x56, 0xf4, 0xea, 0x65, 0x7a, 0xae, 0x8] ++
  [0xba, 0x78, 0x25, 0x2e, 0x1c, 0xa6, 0xb4, 0xc6, 0xe8, 0xdd, 0x74, 0x1f, 0x4b, 0xbd, 0x8b, 0x8a] ++
  [0x70, 0x3e, 0xb5, 0x66, 0x48, 0x3, 0xf6, 0xe, 0x61, 0x35, 0x57, 0xb9, 0x86, 0xc1, 0x1d, 0x9e] ++
  [0xe1, 0xf8, 0x98, 0x11, 0x69, 0xd9, 0x8e, 0x94, 0x9b, 0x1e, 0x87, 0xe9, 0xce, 0x55, 0x28, 0xdf] ++
  [0x8c, 0xa1, 0x89, 0xd, 0xbf, 0xe6, 0x42, 0x68, 0x41, 0x99, 0x2d, 0xf, 0xb0, 0x54, 0xbb, 0x16]

/-- The S-box of one byte. -/
def subByte (b : Byte) : Byte := BitVec.ofNat 8 (aesSbox.getD b.toNat 0)

/-- Multiplication by x in the AES field. -/
def xtime (b : Byte) : Byte := if b.getLsbD 7 then (b <<< 1) ^^^ 0x1B else b <<< 1

/-- The key schedule, newest word first, n more words; i is the index of the next word. -/
def aesSched : Nat → Nat → Byte → List Bytes → List Bytes
  | 0, _, _, l => l
  | n + 1, i, rc, l =>
    let p := l.getD 0 []
    let t : Bytes :=
      if i % 8 = 0 then
        match (p.drop 1 ++ p.take 1).map subByte with
        | [] => []
        | x :: r => (x ^^^ rc) :: r
      else if i % 8 = 4 then p.map subByte
      else p
    let w := (t.zip (l.getD 7 [])).map (fun e => e.1 ^^^ e.2)
    aesSched n (i + 1) (if i % 8 = 0 then xtime rc else rc) (w :: l)

/-- The fifteen round keys of 16 bytes. -/
def aesKeys (key : Bytes) : List Bytes :=
  chunks 16 ((aesSched 52 8 1 (chunks 4 key).reverse).reverse.flatten)

/-- XOR of two byte strings, as long as the shorter. -/
def xorBytes (a b : Bytes) : Bytes := (a.zip b).map (fun e => e.1 ^^^ e.2)

/-- SubBytes and ShiftRows on the 16 bytes of a state, column by column. -/
def subShift (s : Bytes) : Bytes :=
  (List.range 16).map (fun i => subByte (s.getD ((i + 4 * (i % 4)) % 16) 0))

/-- MixColumns. -/
def mixColumns (s : Bytes) : Bytes :=
  (List.range 16).map (fun i =>
    let g (j : Nat) : Byte := s.getD (i / 4 * 4 + (i + j) % 4) 0
    xtime (g 0) ^^^ xtime (g 1) ^^^ g 1 ^^^ g 2 ^^^ g 3)

/-- AES-256 of one 16-byte block. -/
def aesBlockK (ks : List Bytes) (b : Bytes) : Bytes :=
  match ks with
  | [] => b
  | k0 :: r =>
    let s := (r.take 13).foldl (fun s k => xorBytes (mixColumns (subShift s)) k) (xorBytes b k0)
    xorBytes (subShift s) (r.getD 13 [])

/-- AES-256 under a 32-byte key. -/
def aes256 (key b : Bytes) : Bytes := aesBlockK (aesKeys key) b

/-- n keystream bytes from a big-endian counter block that increases modulo 2^128 (R336). -/
def aesCtr (key : Bytes) (ctr : Nat) (n : Nat) : Bytes :=
  let ks := aesKeys key
  ((List.range ((n + 15) / 16)).flatMap (fun i => aesBlockK ks (toBe 16 ((ctr + i) % 2 ^ 128)))).take n

/-! ### GCM -/

/-- Multiplication in the GCM field; bit 127 of the number is the coefficient of x^0. -/
def ghMul : Nat → Nat → Nat → Nat → Nat
  | 0, _, _, z => z
  | n + 1, x, v, z =>
    let z := if x.testBit n then z ^^^ v else z
    ghMul n x (if v % 2 = 1 then v / 2 ^^^ (0xE1 <<< 120) else v / 2) z

/-- GHASH of a byte string whose length is a multiple of 16. -/
def ghash (h : Nat) (b : Bytes) : Nat := (chunks 16 b).foldl (fun y x => ghMul 128 (y ^^^ beNat x) h 0) 0

/-- Zero bytes up to a multiple of 16. -/
def pad16 (b : Bytes) : Bytes := b ++ zeros (roundUp b.length 16 - b.length)

/-- The counter mode of GCM: the low 32 bits of the block count. -/
def gcmCtr (ks : List Bytes) (nonce : Bytes) (first : Nat) (b : Bytes) : Bytes :=
  xorBytes b ((List.range ((b.length + 15) / 16)).flatMap (fun i => aesBlockK ks (nonce ++ toBe 4 (first + i))))

/-- The tag of a ciphertext. -/
def gcmTag (ks : List Bytes) (nonce aad c : Bytes) : Bytes :=
  let h := beNat (aesBlockK ks (zeros 16))
  let s := ghash h (pad16 aad ++ pad16 c ++ toBe 8 (8 * aad.length) ++ toBe 8 (8 * c.length))
  xorBytes (toBe 16 s) (aesBlockK ks (nonce ++ toBe 4 1))

/-- AES-256-GCM with a 12-byte nonce: ciphertext and 16-byte tag. -/
def gcmSeal (key nonce aad p : Bytes) : Bytes × Bytes :=
  let ks := aesKeys key
  let c := gcmCtr ks nonce 2 p
  (c, gcmTag ks nonce aad c)

/-- The plaintext, if the tag is right. -/
def gcmOpen (key nonce aad c tag : Bytes) : Option Bytes :=
  let ks := aesKeys key
  if gcmTag ks nonce aad c = tag then some (gcmCtr ks nonce 2 c) else none

end Sys2Proof.Machine
end

