-- ==== Sys2Proof/Machine/Chest.lean ====
section
/-!
DEFINITION. Binding a chest key for a use (R32, R475-R478).
-/
namespace Sys2Proof.Machine

/-- Chest slot n. -/
def State.slot (s : State) (n : Nat) : Slot := tget {} s.chest n

/-- Change a chest slot. -/
def State.onSlot (s : State) (n : Nat) (f : Slot → Slot) : State := { s with chest := tput s.chest n (f (s.slot n)) }

/-! ### CHEST_ATTR (R475) -/

def Half.usage (h : Half) : Nat := bits h.attr 7 0
def Half.kind (h : Half) : Nat := bits h.attr 25 22
def Half.owner (h : Half) : Nat := bits h.attr 29 26
def Half.gen (h : Half) : Nat := bits h.attr 63 32

/-- USAGE bits. -/
def uEncrypt : Nat := 0
def uDecrypt : Nat := 1
def uWrap : Nat := 2
def uUnwrap : Nat := 3
def uDerive : Nat := 4
def uSign : Nat := 5
def uVerify : Nat := 6
def uMac : Nat := 7

/-- MASTER bits (R475). -/
inductive Master where
  | island | sequencer | intakeDma | pf | vf
  deriving DecidableEq, Repr

def Master.bit : Master → Nat
  | .island => 8 | .sequencer => 9 | .intakeDma => 10 | .pf => 11 | .vf => 12

/-- One use of a slot: the operations it makes (USAGE bits), the kinds that fit, the requester, and
the shelf on whose behalf it is made. -/
structure KeyUse where
  usages : List Nat
  kinds  : List Nat
  master : Master
  shelf  : Option Nat

/-- The checks of R477 after the choice of the half. -/
def halfOk (s : State) (u : KeyUse) (h : Half) : Bool :=
  let world := match u.shelf with
    | none => 15
    | some k => if (s.shelf k).conf then 14 else 13
  u.kinds.contains h.kind && u.usages.all (fun b => nbit h.usage b) && bit h.attr u.master.bit &&
  bit h.attr world && bit h.attr (16 + s.lcs) &&
  (h.owner == 0xF || (match u.shelf with | none => false | some k => h.owner == k))

/-- The result of binding: the half, or the status that refuses the use. -/
abbrev Bound := Except Status Half

/-- Bind the current half (R478). -/
def bindCur (s : State) (slot : Nat) (u : KeyUse) : Bound :=
  match (s.slot slot).cur with
  | none => .error .deniedAttribute
  | some h => if halfOk s u h then .ok h else .error .deniedAttribute

/-- Bind the half of generation g, of which bits of `mask` are compared (R477, R478, R208). [log 205 DEDUCED] -/
def bindGen (s : State) (slot g : Nat) (u : KeyUse) : Bound :=
  let x := s.slot slot
  match [x.cur, x.prev].filterMap id |>.find? (fun h => h.gen == g) with
  | some h => if halfOk s u h then .ok h else .error .deniedAttribute
  | none => if g ≤ x.retired then .error .keyRetired else .error .deniedAttribute

end Sys2Proof.Machine
end

