-- ==== Sys2Proof/Machine/Curve.lean ====
section
/-!
DEFINITION. The curve arithmetic that the manual names: X25519 (R172), Ed25519 verification (R81,
R177) and ECDSA over P-256 and P-384 (R81, R177, R287), as RFC 7748, RFC 8032 and FIPS 186-5 define
them.
-/
namespace Sys2Proof.Machine

/-- b^e mod m, by the bits of e, n of them. -/
def powMod (m b : Nat) : Nat → Nat → Nat
  | 0, _ => 1 % m
  | n + 1, e =>
    let h := powMod m b n (e / 2)
    let s := h * h % m
    if e % 2 = 1 then s * b % m else s

/-- The inverse modulo a prime (0 for 0). -/
def invMod (p a : Nat) : Nat := powMod p (a % p) (p.log2 + 1) (p - 2)

/-! ### X25519 (RFC 7748) -/

def p25519 : Nat := 2 ^ 255 - 19

/-- The Montgomery ladder over the bits of a scalar, most significant first. -/
def ladder (u : Nat) : Nat → Nat → (Nat × Nat) → (Nat × Nat) → (Nat × Nat)
  | 0, _, a, _ => a
  | n + 1, k, a, b =>
    let p := p25519
    let sw := k.testBit n
    let (x2, z2) := if sw then b else a
    let (x3, z3) := if sw then a else b
    let s := x2 + z2
    let d := x2 + p - z2
    let aa := s * s % p
    let bb := d * d % p
    let e := (aa + p - bb) % p
    let da := (x3 + p - z3) * s % p
    let cb := (x3 + z3) * d % p
    let x3' := (da + cb) % p * ((da + cb) % p) % p
    let df := (da + p - cb) % p
    let z3' := u * (df * df % p) % p
    let x2' := aa * bb % p
    let z2' := e * ((aa + 121665 * e) % p) % p
    if sw then ladder u n k (x3', z3') (x2', z2') else ladder u n k (x2', z2') (x3', z3')

/-- The clamped scalar of 32 bytes. -/
def clampScalar (b : Bytes) : Nat :=
  let n := leNat b % 2 ^ 255
  n / 8 * 8 % 2 ^ 254 + 2 ^ 254

/-- X25519 of a scalar and a u-coordinate, 32 bytes each. -/
def x25519 (k u : Bytes) : Bytes :=
  let u := leNat u % 2 ^ 255 % p25519
  let (x, z) := ladder u 255 (clampScalar k) (1, 0) (u, 1)
  toLe 32 (x * invMod p25519 z % p25519)

/-- The u-coordinate 9. -/
def basePoint : Bytes := toLe 32 9

/-! ### Ed25519 (RFC 8032) -/

/-- The order of the base point. -/
def edL : Nat := 2 ^ 252 + 27742317777372353535851937790883648493

def edD : Nat := (p25519 - 121665 * invMod p25519 121666 % p25519) % p25519

/-- A point in extended coordinates (X, Y, Z, T). -/
structure EdPt where
  x : Nat
  y : Nat
  z : Nat
  t : Nat

def EdPt.zero : EdPt := { x := 0, y := 1, z := 1, t := 0 }

/-- Addition. -/
def EdPt.add (a b : EdPt) : EdPt :=
  let p := p25519
  let m := (a.y + p - a.x) * (b.y + p - b.x) % p
  let n := (a.y + a.x) * (b.y + b.x) % p
  let c := 2 * a.t % p * edD % p * b.t % p
  let d := 2 * a.z % p * b.z % p
  let e := (n + p - m) % p
  let f := (d + p - c) % p
  let g := (d + c) % p
  let h := (n + m) % p
  { x := e * f % p, y := g * h % p, z := f * g % p, t := e * h % p }

/-- A multiple, over n bits of the scalar. -/
def EdPt.mul (a : EdPt) : Nat → Nat → EdPt
  | 0, _ => EdPt.zero
  | n + 1, k =>
    let h := a.mul n (k / 2)
    let d := h.add h
    if k % 2 = 1 then d.add a else d

/-- Equality as points. -/
def EdPt.same (a b : EdPt) : Bool :=
  a.x * b.z % p25519 == b.x * a.z % p25519 && a.y * b.z % p25519 == b.y * a.z % p25519

/-- Decoding of RFC 8032, which refuses a non-canonical encoding. -/
def edDecode (b : Bytes) : Option EdPt :=
  let p := p25519
  let v := leNat b
  let sign := v / 2 ^ 255 % 2
  let y := v % 2 ^ 255
  if b.length ≠ 32 ∨ p ≤ y then none
  else
    let y2 := y * y % p
    let u := (y2 + p - 1) % p
    let w := (edD * y2 + 1) % p
    let x2 := u * invMod p w % p
    let r := powMod p x2 253 ((p + 3) / 8)
    let r := if r * r % p = x2 then r else r * powMod p 2 253 ((p - 1) / 4) % p
    if r * r % p ≠ x2 then none
    else if r = 0 ∧ sign = 1 then none
    else
      let x := if r % 2 = sign then r else p - r
      some { x := x, y := y, z := 1, t := x * y % p }

/-- The base point. -/
def edBase : EdPt :=
  let y := 4 * invMod p25519 5 % p25519
  (edDecode (toLe 32 y)).getD EdPt.zero

/-- Ed25519 verification by the cofactored equation (R177). -/
def edVerify (pub msg sig : Bytes) : Bool :=
  let s := leNat (slice sig 32 32)
  match edDecode pub, edDecode (slice sig 0 32) with
  | some a, some r =>
    if edL ≤ s then false
    else
      let k := leNat (sha512 (slice sig 0 32 ++ pub ++ msg)) % edL
      let l := (edBase.mul 253 s).mul 4 8
      let q := (r.mul 4 8).add ((a.mul 253 k).mul 4 8)
      l.same q
  | _, _ => false

/-! ### ECDSA on a short Weierstrass curve with a = −3 -/

/-- A curve: the prime, b, the group order, the base point and the bytes of a coordinate. -/
structure Weier where
  p  : Nat
  b  : Nat
  n  : Nat
  gx : Nat
  gy : Nat
  sz : Nat

def p256 : Weier :=
  { p := 2 ^ 256 - 2 ^ 224 + 2 ^ 192 + 2 ^ 96 - 1
    b := 0x5AC635D8AA3A93E7B3EBBD55769886BC651D06B0CC53B0F63BCE3C3E27D2604B
    n := 0xFFFFFFFF00000000FFFFFFFFFFFFFFFFBCE6FAADA7179E84F3B9CAC2FC632551
    gx := 0x6B17D1F2E12C4247F8BCE6E563A440F277037D812DEB33A0F4A13945D898C296
    gy := 0x4FE342E2FE1A7F9B8EE7EB4A7C0F9E162BCE33576B315ECECBB6406837BF51F5
    sz := 32 }

def p384 : Weier :=
  { p := 2 ^ 384 - 2 ^ 128 - 2 ^ 96 + 2 ^ 32 - 1
    b := 0xB3312FA7E23EE7E4988E056BE3F82D19181D9C6EFE8141120314088F5013875AC656398D8A2ED19D2A85C8EDD3EC2AEF
    n := 0xFFFFFFFFFFFFFFFFFFFFFFFFFFFFFFFFFFFFFFFFFFFFFFFFC7634D81F4372DDF581A0DB248B0A77AECEC196ACCC52973
    gx := 0xAA87CA22BE8B05378EB1C71EF320AD746E1D3B628BA79B9859F741E082542A385502F25DBF55296C3A545E3872760AB7
    gy := 0x3617DE4A96262C6F5D9E98BF9292DC29F8F41DBD289A147CE9DA3113B5F0B8C00A60B1CE1D7E819D7A431D7C90EA0E5F
    sz := 48 }

/-- A point; none is the point at infinity. -/
abbrev WPt := Option (Nat × Nat)

/-- Addition. -/
def Weier.add (c : Weier) (a b : WPt) : WPt :=
  match a, b with
  | none, q => q
  | q, none => q
  | some (x1, y1), some (x2, y2) =>
    if x1 = x2 ∧ (y1 + y2) % c.p = 0 then none
    else
      let l :=
        if x1 = x2 then (3 * x1 * x1 + c.p - 3) % c.p * invMod c.p (2 * y1) % c.p
        else (y2 + c.p - y1) * invMod c.p (x2 + c.p - x1) % c.p
      let x3 := (l * l + 2 * c.p - x1 - x2) % c.p
      some (x3, (l * (x1 + c.p - x3) + c.p - y1) % c.p)

/-- A multiple, over m bits of the scalar. -/
def Weier.mul (c : Weier) (a : WPt) : Nat → Nat → WPt
  | 0, _ => none
  | m + 1, k =>
    let h := c.mul a m (k / 2)
    let d := c.add h h
    if k % 2 = 1 then c.add d a else d

/-- A point from its compressed form (SEC 1), checked on the curve. -/
def Weier.decompress (c : Weier) (b : Bytes) : WPt :=
  let x := beNat (b.drop 1)
  let t := (b.headD 0).toNat
  if (t ≠ 2 ∧ t ≠ 3) ∨ c.p ≤ x ∨ b.length ≠ c.sz + 1 then none
  else
    let r := (x * x % c.p * x + (c.p - 3) * x + c.b) % c.p
    let y := powMod c.p r (c.p.log2 + 1) ((c.p + 1) / 4)
    if y * y % c.p ≠ r then none
    else some (x, if y % 2 = t % 2 then y else (c.p - y) % c.p)

/-- ECDSA verification of a hash of sz bytes; r and s big-endian. -/
def Weier.verify (c : Weier) (pub : WPt) (hash sig : Bytes) : Bool :=
  let r := beNat (slice sig 0 c.sz)
  let s := beNat (slice sig c.sz c.sz)
  if pub.isNone ∨ r = 0 ∨ c.n ≤ r ∨ s = 0 ∨ c.n ≤ s then false
  else
    let w := invMod c.n s
    let m := 8 * c.sz
    match c.add (c.mul (some (c.gx, c.gy)) m (beNat hash * w % c.n)) (c.mul pub m (r * w % c.n)) with
    | none => false
    | some (x, _) => x % c.n == r

/-- The public point of a private scalar. -/
def Weier.pub (c : Weier) (d : Nat) : WPt := c.mul (some (c.gx, c.gy)) (8 * c.sz) d

/-- The uncompressed form of a point (SEC 1). -/
def Weier.uncompressed (c : Weier) : WPt → Bytes
  | none => zeros (2 * c.sz + 1)
  | some (x, y) => 4 :: (toBe c.sz x ++ toBe c.sz y)

/-- The signature r, s that a nonce gives; none where the nonce does not serve. -/
def Weier.signWith (c : Weier) (z d k : Nat) : Option Bytes :=
  if k = 0 ∨ c.n ≤ k then none
  else match c.pub k with
    | none => none
    | some (x, _) =>
      let r := x % c.n
      let s := invMod c.n k * ((z + r * d) % c.n) % c.n
      if r = 0 ∨ s = 0 then none else some (toBe c.sz r ++ toBe c.sz s)

/-- The deterministic nonces of RFC 6979, whose hash is as long as the order: the first that serves. -/
def Weier.signLoop (c : Weier) (mac : Bytes → Bytes → Bytes) (z d : Nat) : Nat → Bytes → Bytes → Bytes
  | 0, _, _ => zeros (2 * c.sz)
  | n + 1, k, v =>
    let v := mac k v
    match c.signWith z d (beNat v) with
    | some sig => sig
    | none =>
      let k := mac k (v ++ [0])
      c.signLoop mac z d n k (mac k v)

/-- ECDSA signature of a hash of sz bytes with a deterministic nonce (FIPS 186-5, RFC 6979). [log 103 DEDUCED] -/
def Weier.sign (c : Weier) (mac : Bytes → Bytes → Bytes) (d : Nat) (hash : Bytes) : Bytes :=
  let seed := toBe c.sz d ++ toBe c.sz (beNat hash % c.n)
  let v := List.replicate c.sz 1
  let k := mac (zeros c.sz) (v ++ [0] ++ seed)
  let v := mac k v
  let k := mac k (v ++ [1] ++ seed)
  c.signLoop mac (beNat hash) d 64 k (mac k v)

/-! ### Ed25519 keys and signatures (RFC 8032) -/

/-- The encoding of a point. -/
def EdPt.encode (a : EdPt) : Bytes :=
  let zi := invMod p25519 a.z
  let x := a.x * zi % p25519
  let y := a.y * zi % p25519
  toLe 32 (y + x % 2 * 2 ^ 255)

/-- The secret scalar of a seed and the prefix of its signatures. -/
def edSecret (seed : Bytes) : Nat × Bytes := (clampScalar ((sha512 seed).take 32), (sha512 seed).drop 32)

/-- The public key of a seed. -/
def edPub (seed : Bytes) : Bytes := (edBase.mul 256 (edSecret seed).1).encode

end Sys2Proof.Machine
end

