-- ==== Sys2Proof/Machine/MlDsa.lean ====
section
/-!
DEFINITION. ML-DSA of FIPS 204, pure with an empty context, which the manual names: ML-DSA-65 verifies crates (R177) and signs releases
and reports (R287, R486), ML-DSA-87 verifies firmware images and tokens (R465, R472).
-/
namespace Sys2Proof.Machine

/-! ### Parameters -/

/-- A parameter set: rows and columns of the matrix, the bound of the secret, the ones of a challenge, the bound that a challenge adds, the
most hints, and the bytes of a challenge digest. [log 9 DEDUCED] -/
structure MlDsa where
  k     : Nat
  l     : Nat
  eta   : Nat
  tau   : Nat
  beta  : Nat
  omega : Nat
  chal  : Nat

def mlDsa65 : MlDsa := { k := 6, l := 5, eta := 4, tau := 49, beta := 196, omega := 55, chal := 48 }
def mlDsa87 : MlDsa := { k := 8, l := 7, eta := 2, tau := 60, beta := 120, omega := 75, chal := 64 }

/-- The modulus, the bits that t drops, γ₁ and γ₂. -/
def mlQ : Nat := 8380417
def mlD : Nat := 13
def mlGamma1 : Nat := 2 ^ 19
def mlGamma2 : Nat := (mlQ - 1) / 32

/-! ### Polynomials of degree below 256 modulo q -/

/-- An element of R_q, or its transform: 256 residues. -/
abbrev MlPoly := List Nat

/-- The eight bits of n in reverse. -/
def rev8 (n : Nat) : Nat := ((List.range 8).map (fun i => if n.testBit i then 2 ^ (7 - i) else 0)).sum

/-- The power of 1753 that node m of the transform's tree multiplies by. -/
def mlZeta (m : Nat) : Nat := powMod mlQ 1753 9 (rev8 m)

def mlAdd (a b : MlPoly) : MlPoly := List.zipWith (fun x y => (x + y) % mlQ) a b
def mlSub (a b : MlPoly) : MlPoly := List.zipWith (fun x y => (x + mlQ - y) % mlQ) a b
def mlMul (a b : MlPoly) : MlPoly := List.zipWith (fun x y => x * y % mlQ) a b

/-- The transform of the polynomial at node m, which has n levels below it. -/
def mlNttAt : Nat → Nat → MlPoly → MlPoly
  | 0, _, p => p
  | n + 1, m, p =>
    let lo := p.take (2 ^ n)
    let up := (p.drop (2 ^ n)).map (fun x => x * mlZeta m % mlQ)
    mlNttAt n (2 * m) (mlAdd lo up) ++ mlNttAt n (2 * m + 1) (mlSub lo up)

/-- The transform of R_q. -/
def mlNtt (p : MlPoly) : MlPoly := mlNttAt 8 1 p

/-- The inverse at node m, without the factor of its 2^n points. -/
def mlInttAt : Nat → Nat → MlPoly → MlPoly
  | 0, _, p => p
  | n + 1, m, p =>
    let a := mlInttAt n (2 * m) (p.take (2 ^ n))
    let b := mlInttAt n (2 * m + 1) (p.drop (2 ^ n))
    mlAdd a b ++ (mlSub a b).map (fun x => x * invMod mlQ (mlZeta m) % mlQ)

def mlIntt (p : MlPoly) : MlPoly := (mlInttAt 8 1 p).map (fun x => x * invMod mlQ 256 % mlQ)

/-- The zero polynomial. -/
def mlZero : MlPoly := List.replicate 256 0

/-- The sum of products of two vectors of transforms. -/
def mlDot (a b : List MlPoly) : MlPoly := (List.zipWith mlMul a b).foldl mlAdd mlZero

/-- A residue as the integer nearest zero. -/
def mlCentred (x : Nat) : Int := if 2 * x ≤ mlQ then x else (x : Int) - mlQ

/-- An integer as a residue. -/
def mlRes (i : Int) : Nat := (i % (mlQ : Int)).toNat

/-- Every coefficient of every polynomial is below b in magnitude. -/
def mlBelow (b : Nat) (v : List MlPoly) : Bool := v.all (fun p => p.all (fun x => decide ((mlCentred x).natAbs < b)))

/-! ### Rounding -/

/-- r = r₁ · 2^d + r₀ with r₀ nearest zero. -/
def mlPower2 (r : Nat) : Nat × Int :=
  let m := r % 2 ^ mlD
  let r0 : Int := if m ≤ 2 ^ (mlD - 1) then m else (m : Int) - 2 ^ mlD
  (((r : Int) - r0).toNat / 2 ^ mlD, r0)

/-- r = r₁ · 2γ₂ + r₀, with the top of the range taken to r₁ = 0. -/
def mlDecompose (r : Nat) : Nat × Int :=
  let m := r % (2 * mlGamma2)
  let r0 : Int := if m ≤ mlGamma2 then m else (m : Int) - 2 * mlGamma2
  let t := ((r : Int) - r0).toNat
  if t = mlQ - 1 then (0, r0 - 1) else (t / (2 * mlGamma2), r0)

def mlHigh (r : Nat) : Nat := (mlDecompose r).1

/-- The high part that a hint corrects. -/
def mlUseHint (h : Bool) (r : Nat) : Nat :=
  let (r1, r0) := mlDecompose r
  if h then (if 0 < r0 then (r1 + 1) % 16 else (r1 + 15) % 16) else r1

/-! ### Bit packing -/

/-- 256 numbers of w bits each, little-endian. -/
def mlPack (w : Nat) (l : List Nat) : Bytes := toLe (32 * w) (pack (l.map (fun x => (w, x))))

/-- The 256 numbers of w bits that bytes hold. -/
def mlUnpack (w : Nat) (b : Bytes) : List Nat := let n := leNat (b.take (32 * w)); (List.range 256).map (fun i => n >>> (w * i) % 2 ^ w)

/-- Coefficients from −γ₁ + 1 to γ₁, as γ₁ less each. -/
def mlPackZ (p : MlPoly) : Bytes := mlPack 20 (p.map (fun x => ((mlGamma1 : Int) - mlCentred x).toNat))
def mlUnpackZ (b : Bytes) : MlPoly := (mlUnpack 20 b).map (fun (x : Nat) => mlRes ((mlGamma1 : Int) - (x : Int)))

/-- The hints: the positions of each polynomial, then how many came before each end. -/
def MlDsa.packHint (x : MlDsa) (h : List (List Nat)) : Bytes :=
  let ends := (List.range x.k).map (fun i => ((h.take (i + 1)).map (·.length)).sum)
  let at_ := h.flatten
  ((at_ ++ List.replicate (x.omega - at_.length) 0) ++ ends).map (BitVec.ofNat 8)

/-- A list rises strictly. -/
def rises : List Nat → Bool
  | a :: b :: r => decide (a < b) && rises (b :: r)
  | _ => true

/-- The hints that bytes hold, or none where they are malformed. -/
def MlDsa.unpackHint (x : MlDsa) (b : Bytes) : Option (List (List Nat)) :=
  let pos := (b.take x.omega).map (·.toNat)
  let ends := ((b.drop x.omega).take x.k).map (·.toNat)
  let starts := 0 :: ends
  let parts := (List.range x.k).map (fun i => (pos.drop (starts.getD i 0)).take (ends.getD i 0 - starts.getD i 0))
  if (List.range x.k).all (fun i => decide (starts.getD i 0 ≤ ends.getD i 0) && decide (ends.getD i 0 ≤ x.omega)) && parts.all rises &&
      (pos.drop (starts.getD x.k 0)).all (· == 0) then some parts
  else none

/-! ### Sampling -/

/-- Residues below q from three bytes each, the top bit dropped. -/
def mlUniform (seed : Bytes) : MlPoly :=
  ((chunks 3 (shake128 seed 2016)).map (fun b => leNat b % 2 ^ 23)).filter (fun x => decide (x < mlQ)) |>.take 256

/-- The matrix, by rows, as transforms. -/
def MlDsa.matrix (x : MlDsa) (rho : Bytes) : List (List MlPoly) :=
  (List.range x.k).map (fun r => (List.range x.l).map (fun c => mlUniform (rho ++ toLe 1 c ++ toLe 1 r)))

/-- A coefficient of magnitude at most η from four bits. -/
def MlDsa.small (x : MlDsa) (n : Nat) : Option Nat :=
  if x.eta = 2 then (if n < 15 then some (mlRes (2 - (n % 5 : Nat))) else none) else (if n < 9 then some (mlRes (4 - (n : Int))) else none)

/-- A polynomial with such coefficients. -/
def MlDsa.smallPoly (x : MlDsa) (seed : Bytes) : MlPoly :=
  ((shake256 seed 2176).flatMap (fun b => [b.toNat % 16, b.toNat / 16])).filterMap x.small |>.take 256

/-- The two secret vectors. -/
def MlDsa.secrets (x : MlDsa) (rho' : Bytes) : List MlPoly × List MlPoly :=
  ((List.range x.l).map (fun r => x.smallPoly (rho' ++ toLe 2 r)), (List.range x.k).map (fun r => x.smallPoly (rho' ++ toLe 2 (r + x.l))))

/-- The mask of one try. -/
def MlDsa.mask (x : MlDsa) (seed : Bytes) (kappa : Nat) : List MlPoly :=
  (List.range x.l).map (fun r => mlUnpackZ (shake256 (seed ++ toLe 2 (kappa + r)) 640))

/-- Place the τ coefficients of a challenge: position i in turn, with the signs left and the bytes left. -/
def mlPlace : List Nat → List Bool → List Nat → MlPoly → MlPoly
  | i :: is, sg :: sgs, bytes, c =>
    match bytes.dropWhile (fun j => decide (i < j)) with
    | [] => c
    | j :: r => mlPlace is sgs r ((c.set i (c.getD j 0)).set j (if sg then mlQ - 1 else 1))
  | _, _, _, c => c

/-- The challenge of a digest. -/
def MlDsa.ball (x : MlDsa) (digest : Bytes) : MlPoly :=
  let b := shake256 digest 1360
  let h := leNat (b.take 8)
  mlPlace ((List.range x.tau).map (fun i => 256 - x.tau + i)) ((List.range x.tau).map h.testBit) ((b.drop 8).map (·.toNat)) mlZero

/-! ### Keys -/

/-- What a seed of 32 bytes expands to: ρ, K, the secrets, and t. -/
structure MlKey where
  rho : Bytes
  key : Bytes
  s1  : List MlPoly
  s2  : List MlPoly
  t   : List MlPoly

/-- Rows of a matrix times a vector of transforms, as polynomials. -/
def mlApply (a : List (List MlPoly)) (v : List MlPoly) : List MlPoly := a.map (fun row => mlIntt (mlDot row v))

def MlDsa.keyOf (x : MlDsa) (seed : Bytes) : MlKey :=
  let e := shake256 (seed ++ toLe 1 x.k ++ toLe 1 x.l) 128
  let (s1, s2) := x.secrets (slice e 32 64)
  { rho := e.take 32, key := e.drop 96, s1 := s1, s2 := s2, t := List.zipWith mlAdd (mlApply (x.matrix (e.take 32)) (s1.map mlNtt)) s2 }

/-- The public key's bytes. -/
def MlKey.pub (y : MlKey) : Bytes := y.rho ++ y.t.flatMap (fun p => mlPack 10 (p.map (fun r => (mlPower2 r).1)))

/-- The public key of a seed. -/
def MlDsa.pub (x : MlDsa) (seed : Bytes) : Bytes := (x.keyOf seed).pub

/-- The message representative under an empty context. -/
def mlMu (pub m : Bytes) : Bytes := shake256 (shake256 pub 64 ++ [0, 0] ++ m) 64

/-- The digest of a challenge. -/
def MlDsa.challenge (x : MlDsa) (mu : Bytes) (w1 : List (List Nat)) : Bytes := shake256 (mu ++ w1.flatMap (mlPack 4)) x.chal

/-! ### Signing -/

/-- One try with a mask: the signature, or none where a bound fails. -/
def MlDsa.attempt (x : MlDsa) (y : MlKey) (a : List (List MlPoly)) (mu : Bytes) (mask : List MlPoly) : Option Bytes :=
  let w := mlApply a (mask.map mlNtt)
  let digest := x.challenge mu (w.map (fun p => p.map mlHigh))
  let c := mlNtt (x.ball digest)
  let times (v : List MlPoly) : List MlPoly := v.map (fun p => mlIntt (mlMul c (mlNtt p)))
  let z := List.zipWith mlAdd mask (times y.s1)
  let r := List.zipWith mlSub w (times y.s2)
  let low := r.map (fun p => p.map (fun v => mlRes (mlDecompose v).2))
  let ct0 := times (y.t.map (fun p => p.map (fun v => mlRes (mlPower2 v).2)))
  let hints := (List.zipWith mlAdd r ct0).zip r |>.map (fun e => (List.range 256).filter (fun i => mlHigh (e.1.getD i 0) != mlHigh (e.2.getD i 0)))
  if mlBelow (mlGamma1 - x.beta) z && mlBelow (mlGamma2 - x.beta) low && mlBelow mlGamma2 ct0 && decide (hints.flatten.length ≤ x.omega) then
    some (digest ++ z.flatMap mlPackZ ++ x.packHint hints)
  else none

/-- Tries in turn, at most n. -/
def MlDsa.tries (x : MlDsa) (y : MlKey) (a : List (List MlPoly)) (mu seed : Bytes) : Nat → Nat → Bytes
  | 0, _ => []
  | n + 1, kappa =>
    match x.attempt y a mu (x.mask seed kappa) with
    | some b => b
    | none => x.tries y a mu seed n (kappa + x.l)

/-- The signature of a message under the key of a seed, with 32 random bytes. [log 104 DESIGN CHOICE] -/
def MlDsa.sign (x : MlDsa) (seed m rnd : Bytes) : Bytes :=
  let y := x.keyOf seed
  let mu := mlMu y.pub m
  x.tries y (x.matrix y.rho) mu (shake256 (y.key ++ rnd ++ mu) 64) 4096 0

/-! ### Verification -/

/-- Whether a signature of a message holds under a public key. -/
def MlDsa.verify (x : MlDsa) (pub m sig : Bytes) : Bool :=
  let digest := sig.take x.chal
  let z := (chunks 640 (slice sig x.chal (640 * x.l))).map mlUnpackZ
  match x.unpackHint (sig.drop (x.chal + 640 * x.l)) with
  | none => false
  | some h =>
    let t1 := (chunks 320 (pub.drop 32)).map (mlUnpack 10)
    let c := mlNtt (x.ball digest)
    let az := (x.matrix (pub.take 32)).map (fun row => mlDot row (z.map mlNtt))
    let w := List.zipWith (fun a t => mlIntt (mlSub a (mlMul c (mlNtt (t.map (fun v => v * 2 ^ mlD % mlQ)))))) az t1
    let w1 := (w.zip h).map (fun e => e.1.zipIdx.map (fun v => mlUseHint (e.2.contains v.2) v.1))
    pub.length == 32 + 320 * x.k && sig.length == x.chal + 640 * x.l + x.omega + x.k && mlBelow (mlGamma1 - x.beta) z &&
    x.challenge (mlMu pub m) w1 == digest

end Sys2Proof.Machine
end

