-- ==== Sys2Proof/Machine/Attest.lean ====
section
/-!
DEFINITION. What the fuses hold (R463, R473), the device's derived keys (R470), and attestation reports (R486, R487).
-/
namespace Sys2Proof.Machine

/-- Change the island. -/
def State.onIsl (s : State) (f : Island → Island) : State := { s with isl := f s.isl }

/-! ### Fuses and the running image -/

/-- The life-cycle code that the fuses hold (R463). [log 200 DEDUCED] -/
def State.lcsFuse (s : State) : Nat := s.isl.lcsFuse.getD (Config.fuseLcs % 6)

/-- FUSE_SVN (R473). [log 200 DEDUCED] -/
def State.fuseSvn (s : State) : Nat := s.isl.svnFuse.getD (min Config.fuseSvn 64)

/-- Key index i is revoked in OTP (R473). [log 200 DEDUCED] -/
def State.keyRevoked (s : State) (i : Nat) : Bool := s.isl.revoked.contains i || nbit Config.fuseRevoked i

/-- The root that OTP holds (R468). -/
def State.otpRoot (s : State) : Option Bytes := if s.isl.rootGone then none else s.isl.rootOtp.or Config.fuseRoot

/-- GLOBAL_ID.DEVICE_ID as a number. -/
def devId : Nat := Config.deviceId.toNat

/-- Fields of a firmware header (R471). -/
def fwSvn (b : Bytes) : Nat := field b 8 4
def fwLen (b : Bytes) : Nat := field b 0xC 4
def fwBuild (b : Bytes) : Nat := field b 0x10 8
def fwKeyIndex (b : Bytes) : Nat := field b 0x18 1
/-- FW_DIGEST. -/
def fwDigest (b : Bytes) : Bytes := sha3Wide (b.take 0xC00)

/-- The bytes of an ASCII string. -/
def ascii (t : String) : Bytes := t.toList.map (fun c => BitVec.ofNat 8 c.toNat)

/-! ### The device's own keys (R470) -/

/-- HKDF-SHA-384 of the root with DEVICE_ID as salt. -/
def rootDerive (root info : Bytes) (n : Nat) : Bytes :=
  (hkdfExpand hmac384 (hmac384 (toLe 8 devId) root) info ((n + 47) / 48) [] 1).take n

/-- A scalar of P-384 from 64 bytes (FIPS 186-5, A.4.1), 48 bytes big-endian. -/
def p384Scalar (b : Bytes) : Bytes := toBe 48 (beNat b % (p384.n - 1) + 1)

/-- A scalar of P-256 from 64 bytes. -/
def p256Scalar (b : Bytes) : Bytes := toBe 32 (beNat b % (p256.n - 1) + 1)

/-- The root, where the island holds its shares (R469). [log 200 DEDUCED] -/
def State.root (s : State) : Option Bytes := s.isl.shares.map (fun e => xorBytes e.1 e.2)

/-- Fill a device slot. [log 201 DESIGN CHOICE] -/
def fillSlot (n : Nat) (key : Bytes) (s : State) : State :=
  s.onSlot n (fun x => { x with cur := some { key := key, attr := Config.deviceAttr n }, prev := none })

/-- Slots 2 and 3, at S3. -/
def fillIdentity (s : State) : State :=
  match s.root with
  | none => s
  | some r => fillSlot 3 (rootDerive r (ascii "KA2 devid mldsa") 32) (fillSlot 2 (p384Scalar (rootDerive r (ascii "KA2 devid ecdsa") 64)) s)

/-- The P-384 public key of a private one. -/
def p384Pub (key : Bytes) : Bytes := p384.uncompressed (p384.pub (beNat key))

/-- Slots 0 and 1 and the alias certificate, at S14. -/
def fillAttest (s : State) : State :=
  match s.root with
  | none => s
  | some r =>
    let d := fwDigest s.isl.fwImage
    let pq := rootDerive r (ascii "KA2 ak mldsa" ++ d) 32
    let ec := p384Scalar (rootDerive r (ascii "KA2 ak ecdsa" ++ d) 64)
    let id := match (s.slot 2).cur with | none => [] | some h => h.key
    (fillSlot 1 ec (fillSlot 0 pq s)).onIsl (fun i => { i with alias_ := Config.aliasCert [p384Pub ec, d, sha3 (mlDsa65.pub pq), id] })

/-! ### Reports (R486) -/

/-- SHA3-256 of every defined shelf descriptor, in shelf order. -/
def layoutDigest (s : State) : Bytes :=
  sha3 ((List.range 8).flatMap (fun k => match (s.shelf k).desc with | none => [] | some d => d.raw))

/-- An entry of the journal as bytes (R532). -/
def jEntryBytes (n : Nat) (e : JEntry) : Bytes := toLe 1 n ++ toLe 1 e.outcome ++ toLe 2 e.cause ++ toLe 4 e.detail ++ toLe 8 e.ticks

/-- The sixteen entries of a start record. -/
def jrecEntries (r : JRec) : Bytes := (List.range 16).flatMap (fun n => jEntryBytes n (tget {} r.entries n))

/-- The digest of the current start's journal entries. -/
def journalDigest (s : State) : Bytes := match s.dev.recs with | [] => sha3 [] | r :: _ => sha3 (jrecEntries r)

/-- A spare bay, sequencer or pipeline serves. -/
def spareInUse (s : State) : Bool :=
  s.dev.phys.contains 16 || !s.dev.repairs.seqs.isEmpty || !s.dev.repairs.pipes.isEmpty

/-- Epoch time is in holdover. -/
def inHoldover (s : State) : Bool := match s.tim.state with | .holdover => true | .free => false | .acquiring => false | .locked => false

/-- GLOBAL_PROFILE.ACTIVE. -/
def State.profile (s : State) : Nat := if s.dev.latched then (if s.dev.card then 2 else 1) else 0

/-- What a report says of a shelf: its descriptor's, program's, model's and round's digests. [log 208 DEDUCED] -/
def shelfDigests (s : State) (scope : Nat) : Bytes :=
  if scope < 8 then
    let h := s.shelf scope
    let or0 (b : Bytes) : Bytes := if b.isEmpty then zeros 32 else b
    (match h.desc with | none => zeros 32 | some d => sha3 d.raw) ++ (if h.prog.loaded then or0 h.prog.digest else zeros 32) ++
    or0 h.modelDigest ++ or0 h.round.descDigest
  else zeros 128

/-- The signed bytes of a report. -/
def reportBody (s : State) (scope : Nat) (nonce eph : Bytes) (expiry : Nat) : Bytes :=
  let b := s.isl.fwImage
  let conf := decide (scope < 8) && (s.shelf scope).conf
  toLe 4 0x5254414B ++ toLe 2 1 ++ toLe 1 scope ++
  toLe 1 (b2n s.isl.debug + 2 * b2n conf + 4 * b2n (spareInUse s) + 8 * b2n (inHoldover s)) ++
  toLe 8 devId ++ toLe 8 s.epoch ++ toLe 1 s.lcs ++ toLe 1 s.profile ++ toLe 1 s.isl.fwSlot ++ toLe 1 (fwSvn b) ++ toLe 1 s.fuseSvn ++
  toLe 1 (fwKeyIndex b) ++ toLe 2 s.startCount ++ nonce ++ eph ++ toLe 8 expiry ++ toLe 8 (fwBuild b) ++
  (Config.romDigest ++ zeros 48).take 48 ++ fwDigest b ++ layoutDigest s ++ shelfDigests s scope ++ journalDigest s ++ zeros 112

/-- A report signed with both attestation keys; none where the chest does not hold them. [log 199 DESIGN CHOICE] -/
def report (scope : Nat) (nonce eph : Bytes) (expiry : Nat) (s : State) : Option Bytes × State :=
  match (s.slot 1).cur, (s.slot 0).cur with
  | some ec, some pq =>
    let m := reportBody s scope nonce eph expiry
    let (rnd, s) := drawBytes 32 s
    (some (m ++ p384.sign hmac384 (beNat ec.key) (sha384 m) ++ (mlDsa65.sign pq.key m rnd ++ zeros 3309).take 3309), s)
  | _, _ => (none, s)

/-- The attestation refresh at the start of OPEN (R52, R487). -/
def attestRefresh (k : Nat) (s : State) : State :=
  match report k (s.shelf k).round.descDigest (zeros 32) 0 s with
  | (none, s) => s
  | (some r, s) => s.onShelf k (fun h => { h with attest := r })

end Sys2Proof.Machine
end

