-- ==== Sys2Proof/Machine/RoundEnd.lean ====
section
/-!
DEFINITION. What the end of a round and the end of a phase do to the shelf (R53, R63, R77, R102,
R296, R341): the sequencers stop, unaccepted commands are discarded, records are dropped, and the
round's Casks, Kegs, ledger entries, client table and staging are zeroised.
-/
namespace Sys2Proof.Machine

/-- A sequencer stops at its next instruction boundary; a wait is abandoned, and the instruction that waits
retires with no effect on its destination (R296). A sequencer stopped on a fault keeps that state. [log 109 DEDUCED] -/
def seqStop (q : Seq) : Seq :=
  match q.run with
  | .stopped => { q with wait := .none }
  | .idle => { q with wait := .none }
  | .running => { q with run := .idle, wait := .none }
  | .waiting => { q with run := .idle, wait := .none, pc := q.pc + 8, retired := q.retired + 1 }

/-- Stop every sequencer of shelf k (R296). [log 109 DEDUCED] -/
def stopSeqs (k : Nat) (s : State) : State := (s.shelf k).seqs.foldl (fun s q => s.onSeq q seqStop) s

/-- Discard the commands of a queue that no unit has accepted (R341). [log 127 DESIGN CHOICE] -/
def queueDiscard (q : Queue) : Queue := { q with entries := [], wp := q.rp, placed := q.placed - q.entries.length }

/-- Discard in every queue of the shelf (R341). -/
def discardQueues (k : Nat) (s : State) : State :=
  (s.shelf k).seqs.foldl (fun s q => (List.range 12).foldl (fun s n => s.onQueue q n queueDiscard) s) s

/-- Drop every record in an inbox or waiting for delivery that meets p (R102). [log 27 DEDUCED] -/
def dropRecords (k : Nat) (p : CrateRecord → Bool) (s : State) : State :=
  let s := (s.shelf k).seqs.foldl (fun s q => s.onSeq q (fun x => { x with inbox := x.inbox.filter (fun r => !p r) })) s
  s.onIntake k (fun n => { n with rings := n.rings.map (fun e => (e.1, { e.2 with waiting := e.2.waiting.filter (fun r => !p r) })) })

/-- A Cask zeroised at the end of a round: every row fresh, every element the identity, no poison. -/
def caskZero (c : Cask) : Cask := { c with live := [], bad := [], words := [], kegs := [], kegBad := [], old := [], plain := false }

/-- A Cask's areas in the bay store and the Loft slice of bay b are zeroised. -/
def zeroAreas (b : Nat) (area keg : Nat × Nat) (s : State) : State :=
  memZero (memZero s (storeAddr b area.1) area.2) (loftAddr b keg.1) keg.2

/-- Zeroise the Casks and Kegs of the shelf's bays (R63, R77, R290). [log 18 DEDUCED, 106 DEDUCED] -/
def zeroCasks (k : Nat) (s : State) : State :=
  (s.shelf k).bays.foldl (fun s b =>
    let s := (s.bay b).casks.foldl (fun s e => if e.2.en then zeroAreas b e.2.areaAt e.2.kegAt s else s) s
    s.onBay b (fun y => { y with casks := y.casks.map (fun e => (e.1, caskZero e.2)) })) s

/-- Finish an accepted command: record its status and detail (R329). The i-th command in flight. -/
def finish (q n i : Nat) (st : Status) (detail : Nat) (s : State) : State :=
  s.onQueue q n (fun u => { u with inflight := u.inflight.zipIdx.map (fun e => if e.2 = i then { e.1 with result := some st, detail := detail } else e.1) })

/-- Finish every command in flight of the shelf that meets p. [log 70 DESIGN CHOICE] -/
def finishAll (k : Nat) (p : InFlight → Bool) (st : Status) (s : State) : State :=
  (s.shelf k).seqs.foldl (fun s q => (List.range 12).foldl (fun s n =>
    s.onQueue q n (fun u => { u with inflight := mapIf (fun c => c.result.isNone && p c) (fun c => { c with result := some st }) u.inflight })) s) s

/-- Zeroise the shelf's ledger slice (R164, R165): pending retractions go with it, and a COMMIT or
RETRACT whose entry is removed completes PARAM_UNSUPPORTED (R77). -/
def zeroLedger (k : Nat) (s : State) : State :=
  let s := finishAll k (fun c => c.kind == 0x10 || c.kind == 0x11) .paramUnsupported s
  let s := s.onLedger k (fun l => { l with entries := [] })
  (s.shelf k).bays.foldl (fun s b => s.onBay b (fun y => { y with retr := y.retr.filter (fun r => !(r.shelf == k)) })) s

/-- Commands that wait in a hold station when the round ends complete under their own rules (R341); they
are marked, for the Cask that they work on is zeroised after them (R63, R77, R290). [log 19 DESIGN CHOICE] -/
def markHeld (k : Nat) (s : State) : State :=
  (s.shelf k).bays.foldl (fun s b => s.onBay b (fun y => { y with hold := y.hold.map (fun h => { h with ended := true }) })) s

/-- Zero the client table (R60). -/
def zeroCtab (k : Nat) (s : State) : State :=
  vzero s k (s.shelf k).ctab.1 (ctabLen (s.shelf k).round.desc.clientCount)

/-- Zeroise a shelf-relative region. -/
def zeroRegion (k : Nat) (r : Nat × Nat) (s : State) : State := vzero s k r.1 r.2

/-- The refresh slots that stayed DONE for the round become FREE and are zeroised (R267). -/
def endRefreshes (k : Nat) (s : State) : State :=
  (s.shelf k).lat.slots.foldl (fun s e =>
    if e.2.state == .done && e.2.inRound then
      let h := s.shelf k
      (zeroRegion k (h.refSlotAt e.1, h.refUnits * 0x10000) s).onShelf k (fun h =>
        { h with lat := { h.lat with slots := h.lat.slots.map (fun x => if x.1 = e.1 then (x.1, { status := x.2.status }) else x) } })
    else s) s

/-- The state of the round's mode: the recovery region and what it holds (R185, R188), the verifier table
(R202), or the sum area, the partial region, the stream buffers and the round's refresh slots (R251,
R267). [log 50 DEDUCED, 82 DEDUCED] -/
def zeroMode (k : Nat) (s : State) : State :=
  let h := s.shelf k
  let d := h.round.desc
  match d.mode with
  | 1 => (zeroRegion k (region64k (h.reg rRecovCfg)) s).onShelf k (fun h =>
      { h with recov := { h.recov with shares := [], secrets := [], selfKeys := [], pairs := [], folded := [] } })
  | 2 => zeroRegion k ((region64k (h.reg rVerifTable)).1, verifTableLen d.clientCount d.groupSize h.roundInst) s
  | _ =>
    let s := zeroRegion k h.round.sum s
    let s := zeroRegion k (region64k (h.reg rSealPart)) s
    endRefreshes k ((List.range h.bays.length).foldl (fun s i => zeroRegion k (loftAddr i streamBuf.1, streamBuf.2) s) s)

/-- The release scratch, the shard copy and the sampler buffers, and, where the round had begun to write the
inactive buffer and did not flip, that buffer (R272, R279, R290). [log 106 DEDUCED] -/
def zeroRelease (k : Nat) (flipped : Bool) (s : State) : State :=
  let h := s.shelf k
  let d := h.round.desc
  let s := zeroRegion k (region64k (h.reg rRelScr)) s
  let s := if h.rel.copy then zeroRegion k (field h.rel.opt 0x20 8, shardLen (field h.rel.opt 6 1) d.elemCount) s else s
  let s := if h.rel.writing && !flipped then zeroRegion k (relBuf h.rel.relDesc (inactiveBuf h.rel.relDesc)) s else s
  let s := h.bays.foldl (fun s b => s.onBay b (fun y => { y with sampler := { y.sampler with fill := 0 } })) s
  s.onShelf k (fun h => { h with rel := { h.rel with copy := false, writing := false, waitAck := false, key := [], sigs := [], groups := [], steps := [], gather := [] } })

/-- The round interrupt, if ROUND_CTL.IRQ_EN is set (R51). -/
def roundIrq (k : Nat) (s : State) : State := if bit ((s.shelf k).reg 0x208) 2 then signalShelf k 1 s else s

/-- A transition taken in holdover, or in a start that runs marked as holdover before LOCKED, sets
ROUND_STATUS.HOLDOVER (R76, R520). [log 16 DESIGN CHOICE] -/
def markHoldover (k : Nat) (s : State) : State :=
  match s.tim.state with
  | .holdover => s.onRound k (fun r => { r with holdover := true })
  | .acquiring => s.onRound k (fun r => { r with holdover := true })
  | .free => s | .locked => s

/-- The round of shelf k ends with an outcome (R53): once set it does not change, so nothing
happens where no round is active. An FLPV still undecided completes as R199 has it when T_EXCHANGE finds no decision. [log 18 DEDUCED, 70 DESIGN CHOICE, 106 DEDUCED] -/
def endRound (k : Nat) (o : RoundOutcome) (d : Status) (s : State) : State :=
  if (s.shelf k).round.active then
    let s := markHoldover k s
    let s := finishAll k (fun c => c.kind == 0x13) .verdictReject (dropRecords k (fun _ => true) (discardQueues k (stopSeqs k s)))
    let s := markHeld k (zeroCasks k (zeroLedger k s))
    let s := match o with
      | .refusedCohort => zeroCtab k s | .abandoned => zeroCtab k s | .cancelled => zeroCtab k s
      | .none_ => s | .released => s | .refusedDescriptor => s | .expired => s | .faulted => s | .diverged => s
    let s := zeroRelease k (match o with
      | .released => true
      | .none_ => false | .refusedDescriptor => false | .refusedCohort => false | .abandoned => false | .expired => false
      | .cancelled => false | .faulted => false | .diverged => false) (zeroMode k s)
    let s := s.onRound k (fun r => { r with active := false, outcome := o, detail := d, restart := false })
    roundIrq k s
  else s

/-- The other members of the cohort group. -/
def Round.peers (r : Round) : List Nat := (List.range r.desc.groupSize).filter (fun j => j != r.desc.groupIndex)

/-- A peer's digest has come and differs. -/
def Round.differs (r : Round) (j : Nat) : Bool := tmem r.peerDigests j && tget [] r.peerDigests j != r.ownDigest

/-- A message with a cohort digest of shelf k's frozen round has failed (R67). [log 21 DEDUCED] -/
def digestFailed (k : Nat) (s : State) : State :=
  let r := (s.shelf k).round
  if r.active && r.frozen then endRound k .diverged (if r.peers.any r.differs then .verdictReject else .retryExhausted) s else s

/-- Go on where the client table can be read; where it cannot, the round ends FAULTED with the status of the read (R78). [log 25 DEDUCED] -/
def withTable (k : Nat) (f : State → State) (s : State) : State :=
  let h := s.shelf k
  let n := ctabLen h.round.desc.clientCount
  let st := vstat s k h.ctab.1 n
  if st = .ok then f s else endRound k .faulted st (noteRead k h.ctab.1 n s)

end Sys2Proof.Machine
end

