-- ==== Sys2Proof/Machine/Kis.lean ====
section
/-!
DEFINITION. The sequencer as a machine (11_sequencer_isa.md): instruction words and their checks
(R301-R303), fetch (R294, R309), faults and the return from one (R317, R318), retiring, register
access, and the shared step by which every instruction runs.
-/
namespace Sys2Proof.Machine

/-! ### Instruction words (R301) -/

/-- A word of the R format. -/
def wordR (major minor : Nat) (p : Pred) (d a b : BitVec 5) : Word :=
  BitVec.ofNat 8 major ++ BitVec.ofNat 8 minor ++ p.qp ++ BitVec.ofBool p.qn ++ d ++ a ++ b ++ (0 : BitVec 29)

/-- A word of the I format. -/
def wordI (major minor : Nat) (p : Pred) (d a : BitVec 5) (imm : BitVec 32) : Word :=
  BitVec.ofNat 8 major ++ BitVec.ofNat 8 minor ++ p.qp ++ BitVec.ofBool p.qn ++ d ++ a ++ (0 : BitVec 2) ++ imm

/-- IMM, sign-extended to 64 bits. -/
def simm (imm : BitVec 32) : Word := imm.signExtend 64

/-- How an instruction uses a register field: not at all, or as a g, p or d register (R301). -/
inductive Use where
  | no | gReg | pReg | dReg
  deriving DecidableEq, Repr

/-- A 5-bit field is legal for its use: unused fields zero, the upper bits of p and d numbers zero. -/
def Use.ok : Use → Nat → Bool
  | .no, v => v == 0
  | .gReg, _ => true
  | .pReg, v => decide (v < 8)
  | .dReg, v => decide (v < 16)

/-- What R303 defines for a MAJOR and MINOR: I format or not, the uses of D, A and B, and the
greatest IMM where some of its bits must be zero. -/
def shape (major minor : Nat) : Option (Bool × Use × Use × Use × Nat) :=
  let all := 2 ^ 32 - 1
  match major with
  | 0x01 => if minor ≤ 0x0F then some (false, .gReg, .gReg, .gReg, 0) else if minor ≤ 0x11 then some (false, .gReg, .gReg, .no, 0) else none
  | 0x02 =>
    if minor = 0x00 ∨ minor = 0x02 ∨ minor = 0x03 ∨ minor = 0x04 ∨ minor = 0x08 then some (true, .gReg, .gReg, .no, all)
    else if minor = 0x05 ∨ minor = 0x06 ∨ minor = 0x07 then some (true, .gReg, .gReg, .no, 0x3F) else none
  | 0x03 => if minor = 0 then some (true, .gReg, .no, .no, all) else if minor ≤ 4 then some (true, .gReg, .no, .no, 0xFFFF) else none
  | 0x04 => if minor ≤ 5 then some (false, .pReg, .gReg, .gReg, 0) else none
  | 0x05 => if minor ≤ 5 then some (true, .pReg, .gReg, .no, all) else none
  | 0x06 =>
    match minor with
    | 0 => some (false, .pReg, .pReg, .pReg, 0) | 1 => some (false, .pReg, .pReg, .pReg, 0) | 2 => some (false, .pReg, .pReg, .pReg, 0)
    | 3 => some (false, .pReg, .pReg, .no, 0) | 4 => some (true, .pReg, .no, .no, 1)
    | 5 => some (false, .gReg, .no, .no, 0) | 6 => some (false, .no, .gReg, .no, 0) | _ => none
  | 0x08 => if minor ≤ 6 then some (true, .gReg, .gReg, .no, all) else none
  | 0x09 => if minor ≤ 3 then some (true, .gReg, .gReg, .no, all) else none
  | 0x0A => if minor ≤ 1 then some (false, .gReg, .gReg, .gReg, 0) else none
  | 0x0B => if minor = 0 then some (false, .no, .no, .no, 0) else none
  | 0x10 =>
    match minor with
    | 0 => some (true, .no, .no, .no, all) | 1 => some (true, .no, .no, .no, all)
    | 2 => some (false, .no, .gReg, .no, 0) | 3 => some (false, .no, .gReg, .no, 0) | _ => none
  | 0x18 =>
    match minor with
    | 0 => some (true, .dReg, .gReg, .no, all) | 1 => some (true, .dReg, .gReg, .no, all)
    | 2 => some (true, .gReg, .dReg, .no, 8) | 3 => some (true, .dReg, .gReg, .no, 8)
    | 4 => some (false, .dReg, .gReg, .no, 0) | 5 => some (false, .dReg, .dReg, .no, 0) | _ => none
  | 0x20 => match minor with | 0 => some (true, .gReg, .no, .no, 0xFF) | 1 => some (true, .no, .gReg, .no, 0xFF) | _ => none
  | 0x28 => match minor with | 0 => some (false, .pReg, .gReg, .no, 0) | 1 => some (false, .pReg, .gReg, .gReg, 0) | _ => none
  | 0x30 => if minor ≤ 0x0B then some (true, .no, .gReg, .no, all) else none
  | 0x31 =>
    if minor ≤ 0x0B then some (false, .gReg, .no, .no, 0)
    else if 0x10 ≤ minor ∧ minor ≤ 0x1B then some (false, .pReg, .gReg, .gReg, 0) else none
  | 0x38 =>
    match minor with
    | 0 => some (false, .gReg, .no, .no, 0) | 1 => some (false, .no, .gReg, .no, 0)
    | 2 => some (true, .no, .no, .no, 0xFF) | 3 => some (true, .gReg, .no, .no, 0xFF) | _ => none
  | 0x39 => if minor ≤ 1 then some (false, .gReg, .no, .no, 0) else none
  | 0x3F =>
    match minor with
    | 0 => some (false, .no, .no, .no, 0) | 1 => some (false, .no, .no, .no, 0)
    | 2 => some (true, .no, .no, .no, 0xFFFF) | 3 => some (false, .no, .no, .no, 0)
    | 4 => some (false, .no, .gReg, .no, 0) | _ => none
  | _ => none

/-- Whether a word is a defined instruction with no encoding error (R301, R303, R308, R312). -/
def wordOk (w : Word) : Bool :=
  match shape (bits w 63 56) (bits w 55 48) with
  | none => false
  | some (i, d, a, b, m) =>
    d.ok (bits w 43 39) && a.ok (bits w 38 34) &&
    (if i then bits w 33 32 == 0 && (if m = 2 ^ 32 - 1 then true else decide (bits w 31 0 ≤ m))
     else b.ok (bits w 33 29) && bits w 28 0 == 0)

/-! ### Fetch (R294, R309) -/

/-- What a fetch finds. -/
inductive Fetch where
  | past
  | bad
  | word (w : Word)
  deriving DecidableEq, Repr

/-- The fetch of sequencer q at its PC from its bay's program store. [log 108 DESIGN CHOICE, 110 DEDUCED] -/
def fetch (s : State) (q : Nat) : Fetch :=
  match shelfOf s (q / 4) with
  | none => .past
  | some k =>
    let g := (s.shelf k).prog
    let i := (s.seq q).pc / 8
    match g.text[i]? with
    | none => .past
    | some w => if g.badText.contains (q / 4, i) then .bad else .word w

/-- Bytes of text of the program that sequencer q runs (TEXT_LEN). -/
def textLen (s : State) (q : Nat) : Nat :=
  match shelfOf s (q / 4) with | none => 0 | some k => (s.shelf k).prog.text.length * 8

/-! ### Registers (R298) -/

/-- g register; g0 reads 0. -/
def Seq.gr (x : Seq) (i : BitVec 5) : Word := if i = 0 then 0 else tget 0 x.g i.toNat

/-- Write a g register; writes to g0 are discarded. -/
def Seq.setG (x : Seq) (i : BitVec 5) (v : Word) : Seq := if i = 0 then x else { x with g := tput x.g i.toNat v }

/-- p register; p0 reads 1. -/
def Seq.pr (x : Seq) (i : Nat) : Bool := i == 0 || x.p.getLsbD i

/-- Write a p register; writes to p0 are discarded. -/
def Seq.setP (x : Seq) (i : Nat) (v : Bool) : Seq :=
  if i = 0 then x
  else { x with p := if v then x.p ||| BitVec.ofNat 8 (2 ^ i) else x.p &&& ~~~(BitVec.ofNat 8 (2 ^ i)) }

/-- d register. -/
def Seq.dr (x : Seq) (i : BitVec 5) : VDesc := tget {} x.d i.toNat

/-- Write a d register. -/
def Seq.setD (x : Seq) (i : BitVec 5) (v : VDesc) : Seq := { x with d := tput x.d i.toNat v }

/-- Whether the qualifying predicate lets an instruction execute (R302). -/
def predHolds (p : Pred) (x : Seq) : Bool := (x.pr p.qp.toNat).xor p.qn

/-! ### Faults (R317, R318) -/

def cIllegal : Nat := 0x01
def cFetch : Nat := 0x02
def cAlign : Nat := 0x03
def cAddress : Nat := 0x04
def cUncorrectable : Nat := 0x05
def cPoisoned : Nat := 0x06
def cSchedule : Nat := 0x07
def cPhase : Nat := 0x08
def cTrap : Nat := 0x09

/-- DETAIL of the FAULTED outcome that an unhandled fault causes (R318). -/
def faultDetail (cause : Nat) : Status :=
  if cause = cUncorrectable then .uncorrectable else if cause = cPoisoned then .poisoned else .paramUnsupported

/-- ECAUSE (R300): the cause, the status of a data or fetch error, the TRAP code. -/
def ecauseWord (cause trap : Nat) : Word :=
  packW [(8, cause), (8, if cause = cUncorrectable ∨ cause = cPoisoned then (faultDetail cause).code else 0), (16, trap)]

/-- Sequencer q raises a fault at its PC (R318). [log 110 DEDUCED] -/
def raise (q cause : Nat) (addr : Word) (trap : Nat) (s : State) : State :=
  let x := s.seq q
  let y := { x with epc := BitVec.ofNat 64 x.pc, ecause := ecauseWord cause trap, eaddr := addr, wait := .none }
  if !x.hmode && bit x.evec 0 then
    s.onSeq q (fun _ => { y with hmode := true, run := .running, pc := bits x.evec 16 3 * 8 })
  else
    let s := s.onSeq q (fun _ => { y with run := .stopped })
    match shelfOf s (q / 4) with
    | none => s
    | some k =>
      let s := signalShelf k 2 s
      if (s.shelf k).round.active then endRound k .faulted (faultDetail cause) s else s

/-- Raise a fault that concerns no address: what EADDR then holds is a free value (R300). [log 111 DESIGN CHOICE] -/
def raiseBare (q cause trap : Nat) (s : State) : State :=
  let (v, s) := draw 64 s
  raise q cause (BitVec.ofNat 64 v) trap s

/-! ### Running an instruction -/

/-- The instruction retires: PC moves to the next word. [log 109 DEDUCED] -/
def Seq.retire (x : Seq) : Seq := { x with pc := x.pc + 8, retired := x.retired + 1, run := .running, wait := .none }

/-- Retire after a change of the sequencer's registers. -/
def retireWith (q : Nat) (f : Seq → Seq) (s : State) : State := s.onSeq q (fun x => (f x).retire)

/-- Whether sequencer q is running, w is a defined instruction and the word at its PC. [log 108 DESIGN CHOICE] -/
def atWord (s : State) (q : Nat) (w : Word) : Bool :=
  wordOk w && (s.seq q).run == .running && fetch s q == .word w

/-- The word at the PC of sequencer q has an error that the program store's code corrects (R294). [log 117 DESIGN CHOICE] -/
def fixedAt (s : State) (q : Nat) : Bool :=
  match shelfOf s (q / 4) with
  | none => false
  | some k => (s.shelf k).prog.fixText.contains (q / 4, (s.seq q).pc / 8)

/-- A fetch that corrects the word at the PC counts it for the bay and for the shelf, and leaves the word corrected (R317, R556). [log 117 DESIGN CHOICE] -/
def fetched (q : Nat) (s : State) : State :=
  match shelfOf s (q / 4) with
  | none => s
  | some k =>
    if fixedAt s q then
      let s : State := { s with health := { s.health with psCorr := tupd 0 s.health.psCorr (s.physOf (q / 4)) (sat 16 1) } }
      (s.onCounts k (fun c => { c with psCorr := sat 16 1 c.psCorr })).onShelf k
        (fun h => { h with prog := { h.prog with fixText := h.prog.fixText.filter (fun e => e != (q / 4, (s.seq q).pc / 8)) } })
    else s

/-- One instruction of sequencer q: it runs when the sequencer is running and its PC holds the
word w (R293); under a false predicate it retires with no effect (R302). [log 2 DESIGN CHOICE, 108 DESIGN CHOICE, 118 DEDUCED] -/
def kis (q : Nat) (w : Word) (p : Pred) (f : State → State) (s : State) : State :=
  if atWord s q w then
    if predHolds p (s.seq q) then f (fetched q s) else retireWith q id (fetched q s)
  else s

/-- Branch to a target, which must be a multiple of 8 below TEXT_LEN (R309). -/
def branch (q : Nat) (target : Word) (f : Seq → Seq) (s : State) : State :=
  if target.toNat % 8 = 0 ∧ target.toNat < textLen s q then
    s.onSeq q (fun x => { (f x).retire with pc := target.toNat })
  else raise q cFetch target 0 s

/-- A compare (R303). -/
def condEval (c : Cond) (x y : Word) : Bool :=
  match c with
  | .eq => x == y
  | .ne => !(x == y)
  | .lt => x.slt y
  | .ge => !x.slt y
  | .ltu => x.ult y
  | .geu => !x.ult y

/-- MINOR of a compare. -/
def condMinor : Cond → Nat
  | .eq => 0 | .ne => 1 | .lt => 2 | .ge => 3 | .ltu => 4 | .geu => 5

/-- Leading zeros (R304). -/
def clz (x : Word) : Nat := if x.toNat = 0 then 64 else 63 - x.toNat.log2

/-- An R-format instruction with a result in gD from gA and gB. -/
def aluR (minor : Nat) (f : Word → Word → Word) (q : Nat) (p : Pred) (d a b : BitVec 5) (s : State) : State :=
  kis q (wordR 0x01 minor p d a b) p (retireWith q (fun x => x.setG d (f (x.gr a) (x.gr b)))) s

/-- An I-format instruction with a result in gD from gA and IMM. -/
def aluI (minor : Nat) (f : Word → Word → Word) (q : Nat) (p : Pred) (d a : BitVec 5) (imm : BitVec 32) (s : State) : State :=
  kis q (wordI 0x02 minor p d a imm) p (retireWith q (fun x => x.setG d (f (x.gr a) (simm imm)))) s

/-- A predicate operation of two operands. -/
def predOp (minor : Nat) (f : Bool → Bool → Bool) (q : Nat) (p : Pred) (d a b : BitVec 5) (s : State) : State :=
  kis q (wordR 0x06 minor p d a b) p (retireWith q (fun x => x.setP d.toNat (f (x.pr a.toNat) (x.pr b.toNat)))) s

/-- The shift amount of a shift (R304). -/
def shamt (y : Word) : Nat := bits y 5 0

/-! ### Scalar operations (R304) -/

def opSll (x y : Word) : Word := x <<< shamt y
def opSrl (x y : Word) : Word := x >>> shamt y
def opSra (x y : Word) : Word := x.sshiftRight (shamt y)
def opMulhu (x y : Word) : Word := BitVec.ofNat 64 (x.toNat * y.toNat / 2 ^ 64)
def opDivu (x y : Word) : Word := if y = 0 then BitVec.allOnes 64 else x / y
def opRemu (x y : Word) : Word := if y = 0 then x else x % y
def opMinS (x y : Word) : Word := if x.sle y then x else y
def opMaxS (x y : Word) : Word := if x.sle y then y else x
def opMinU (x y : Word) : Word := if x.ule y then x else y
def opMaxU (x y : Word) : Word := if x.ule y then y else x

/-- Halfword k replaced (MOVK). -/
def setHalf (k : Nat) (x : Word) (v : BitVec 16) : Word :=
  (x &&& ~~~((0xFFFF : Word) <<< (16 * k))) ||| (v.zeroExtend 64 <<< (16 * k))

/-! ### Descriptor fields (R308) -/

/-- DGET: STRIDE and SCALE_E sign-extended, the others zero-extended. -/
def VDesc.get (v : VDesc) (f : Nat) : Word :=
  match f with
  | 0 => v.base.zeroExtend 64
  | 1 => v.len.zeroExtend 64
  | 2 => v.rows.zeroExtend 64
  | 3 => v.stride.signExtend 64
  | 4 => v.off.zeroExtend 64
  | 5 => v.etype.zeroExtend 64
  | 6 => v.scaleE.signExtend 64
  | 7 => v.ring.zeroExtend 64
  | _ => BitVec.ofNat 64 (b2n v.rsrc)

/-- DSET: the low bits that the field holds. -/
def VDesc.set (v : VDesc) (f : Nat) (x : Word) : VDesc :=
  match f with
  | 0 => { v with base := x.setWidth 48 }
  | 1 => { v with len := x.setWidth 32 }
  | 2 => { v with rows := x.setWidth 32 }
  | 3 => { v with stride := x.setWidth 32 }
  | 4 => { v with off := x.setWidth 32 }
  | 5 => { v with etype := x.setWidth 8 }
  | 6 => { v with scaleE := x.setWidth 8 }
  | 7 => { v with ring := x.setWidth 6 }
  | _ => { v with rsrc := x.getLsbD 0 }

/-- DADV: BASE or OFF steps by gA × STRIDE. -/
def VDesc.adv (v : VDesc) (x : Word) : VDesc :=
  let step := x * v.stride.signExtend 64
  if v.rsrc then { v with off := v.off + step.setWidth 32 } else { v with base := v.base + step.setWidth 48 }

/-! ### Control registers (R300) -/

/-- Records in inboxes or waiting for delivery: UNTAKEN (R300). [log 27 DEDUCED] -/
def untaken (s : State) (k : Nat) : Nat :=
  ((s.shelf k).seqs.map (fun q => (s.seq q).inbox.length)).sum +
  ((s.shelf k).intake.rings.map (fun e => e.2.waiting.length)).sum

/-- PHASE (R300); CUT, EXCH and RESTART are those of a round that is active. [log 121 DEDUCED] -/
def phaseWord (h : Shelf) : Word :=
  let on (b : Bool) : Nat := b2n (h.round.active && b)
  packW [(4, if h.prog.service then 0 else h.round.phase.code), (1, on h.round.cutPassed), (1, on h.round.exchPassed),
    (1, b2n h.prog.service), (1, b2n h.conf), (1, on h.round.restart)]

/-- Whether an index is a readable control register. -/
def ctlDefined (i : Nat) : Bool := decide (i ≤ 0x06) || (decide (0x08 ≤ i) && decide (i ≤ 0x0C)) || (decide (0x10 ≤ i) && decide (i ≤ 0x13))

/-- Whether an index is a writable control register. -/
def ctlWritable (i : Nat) : Bool := i == 0x08 || i == 0x09 || i == 0x0C || (decide (0x10 ≤ i) && decide (i ≤ 0x13))

/-- Bits [9:0] zero on a confidential shelf (R300). -/
def coarse (h : Shelf) (v : Nat) : Word := BitVec.ofNat 64 (if h.conf then v / 1024 * 1024 else v)

/-- The value CRD reads. CYCLE counts bay-clock cycles from 0; how many have passed since it was last read is a timing the model
leaves open: a free value, by which it rises. [log 108 DESIGN CHOICE] -/
def ctlRead (s : State) (k q i : Nat) : Word × State :=
  let x := s.seq q
  let h := s.shelf k
  match i with
  | 0x00 => (packW [(2, q % 4), (4, h.bayIndex (q / 4)), (3, k), (7, 0), (5, h.bays.length)], s)
  | 0x01 => (phaseWord h, s)
  | 0x02 => (if h.round.active then BitVec.ofNat 64 h.round.desc.roundId else 0, s)
  | 0x03 => let (v, s) := draw 56 s; (coarse h (x.cycle + v), s.onSeq q (fun x => { x with cycle := x.cycle + v }))
  | 0x04 => (coarse h x.retired, s)
  | 0x05 => (BitVec.ofNat 64 x.inbox.length, s)
  | 0x06 => (BitVec.ofNat 64 (untaken s k), s)
  | 0x08 => (BitVec.ofNat 64 (b2n x.hmode), s)
  | 0x09 => (x.epc, s)
  | 0x0A => (x.ecause, s)
  | 0x0B => (x.eaddr, s)
  | 0x0C => (x.evec, s)
  | _ => (tget 0 x.scratch (i - 0x10), s)

/-- CWR: reserved bits are kept zero (R300). -/
def Seq.ctlWrite (x : Seq) (i : Nat) (v : Word) : Seq :=
  match i with
  | 0x08 => { x with hmode := v.getLsbD 0 }
  | 0x09 => { x with epc := v }
  | 0x0C => { x with evec := v &&& 0x1FFF9 }
  | _ => { x with scratch := tput x.scratch (i - 0x10) v }

/-- A counter c reaches n (R312). -/
def reaches (c n : BitVec 32) : Bool := (c - n).ult (BitVec.ofNat 32 (2 ^ 31))

end Sys2Proof.Machine
end

