-- ==== Sys2Proof/Machine/KisScalar.lean ====
section
/-!
DEFINITION. The scalar, predicate, move and branch instructions (R303, R304, R309).
-/
namespace Sys2Proof.Machine

/-- What a meaning answers. -/
abbrev Out := Host.Outcome State Fault Refusal

/-! ### R-format arithmetic -/

/-- ADD (R304): gD ← gA + gB modulo 2^64. -/
def execAdd (q : Nat) (p : Pred) (d a b : BitVec 5) (s : State) : Out := .next (aluR 0 (· + ·) q p d a b s)

/-- SUB (R304): gD ← gA − gB modulo 2^64. -/
def execSub (q : Nat) (p : Pred) (d a b : BitVec 5) (s : State) : Out := .next (aluR 1 (· - ·) q p d a b s)

/-- AND (R304): gD ← gA AND gB. -/
def execAnd (q : Nat) (p : Pred) (d a b : BitVec 5) (s : State) : Out := .next (aluR 2 (· &&& ·) q p d a b s)

/-- OR (R304): gD ← gA OR gB. -/
def execOr (q : Nat) (p : Pred) (d a b : BitVec 5) (s : State) : Out := .next (aluR 3 (· ||| ·) q p d a b s)

/-- XOR (R304): gD ← gA XOR gB. -/
def execXor (q : Nat) (p : Pred) (d a b : BitVec 5) (s : State) : Out := .next (aluR 4 (· ^^^ ·) q p d a b s)

/-- SLL (R304): gD ← gA shifted left by gB[5:0]. -/
def execSll (q : Nat) (p : Pred) (d a b : BitVec 5) (s : State) : Out := .next (aluR 5 opSll q p d a b s)

/-- SRL (R304): gD ← gA shifted right by gB[5:0], zeros in. -/
def execSrl (q : Nat) (p : Pred) (d a b : BitVec 5) (s : State) : Out := .next (aluR 6 opSrl q p d a b s)

/-- SRA (R304): gD ← gA shifted right by gB[5:0], sign in. -/
def execSra (q : Nat) (p : Pred) (d a b : BitVec 5) (s : State) : Out := .next (aluR 7 opSra q p d a b s)

/-- MUL (R304): gD ← bits [63:0] of the product. -/
def execMul (q : Nat) (p : Pred) (d a b : BitVec 5) (s : State) : Out := .next (aluR 8 (· * ·) q p d a b s)

/-- MULHU (R304): gD ← bits [127:64] of the unsigned product. -/
def execMulhu (q : Nat) (p : Pred) (d a b : BitVec 5) (s : State) : Out := .next (aluR 9 opMulhu q p d a b s)

/-- DIVU (R304): gD ← unsigned quotient; all ones by zero. -/
def execDivu (q : Nat) (p : Pred) (d a b : BitVec 5) (s : State) : Out := .next (aluR 10 opDivu q p d a b s)

/-- REMU (R304): gD ← unsigned remainder; the dividend by zero. -/
def execRemu (q : Nat) (p : Pred) (d a b : BitVec 5) (s : State) : Out := .next (aluR 11 opRemu q p d a b s)

/-- MIN (R304): gD ← signed minimum. -/
def execMin (q : Nat) (p : Pred) (d a b : BitVec 5) (s : State) : Out := .next (aluR 12 opMinS q p d a b s)

/-- MAX (R304): gD ← signed maximum. -/
def execMax (q : Nat) (p : Pred) (d a b : BitVec 5) (s : State) : Out := .next (aluR 13 opMaxS q p d a b s)

/-- MINU (R304): gD ← unsigned minimum. -/
def execMinu (q : Nat) (p : Pred) (d a b : BitVec 5) (s : State) : Out := .next (aluR 14 opMinU q p d a b s)

/-- MAXU (R304): gD ← unsigned maximum. -/
def execMaxu (q : Nat) (p : Pred) (d a b : BitVec 5) (s : State) : Out := .next (aluR 15 opMaxU q p d a b s)

/-- CLZ (R304): leading zeros of gA, 64 for zero. -/
def execClz (q : Nat) (p : Pred) (d a : BitVec 5) (s : State) : Out :=
  .next (aluR 0x10 (fun x _ => BitVec.ofNat 64 (clz x)) q p d a 0 s)

/-- POPC (R303): set bits of gA. -/
def execPopc (q : Nat) (p : Pred) (d a : BitVec 5) (s : State) : Out :=
  .next (aluR 0x11 (fun x _ => BitVec.ofNat 64 (popcount 64 x.toNat)) q p d a 0 s)

/-! ### I-format arithmetic -/

/-- ADDI (R303, R304): gD ← gA + IMM. -/
def execAddi (q : Nat) (p : Pred) (d a : BitVec 5) (imm : BitVec 32) (s : State) : Out := .next (aluI 0 (· + ·) q p d a imm s)

/-- ANDI (R303, R304): gD ← gA AND IMM, sign-extended. -/
def execAndi (q : Nat) (p : Pred) (d a : BitVec 5) (imm : BitVec 32) (s : State) : Out := .next (aluI 2 (· &&& ·) q p d a imm s)

/-- ORI (R303, R304): gD ← gA OR IMM, sign-extended. -/
def execOri (q : Nat) (p : Pred) (d a : BitVec 5) (imm : BitVec 32) (s : State) : Out := .next (aluI 3 (· ||| ·) q p d a imm s)

/-- XORI (R303, R304): gD ← gA XOR IMM, sign-extended. -/
def execXori (q : Nat) (p : Pred) (d a : BitVec 5) (imm : BitVec 32) (s : State) : Out := .next (aluI 4 (· ^^^ ·) q p d a imm s)

/-- SLLI (R303, R304): gD ← gA shifted left by IMM[5:0]. -/
def execSlli (q : Nat) (p : Pred) (d a : BitVec 5) (imm : BitVec 32) (s : State) : Out := .next (aluI 5 opSll q p d a imm s)

/-- SRLI (R303, R304): gD ← gA shifted right by IMM[5:0]. -/
def execSrli (q : Nat) (p : Pred) (d a : BitVec 5) (imm : BitVec 32) (s : State) : Out := .next (aluI 6 opSrl q p d a imm s)

/-- SRAI (R303, R304): gD ← gA shifted right by IMM[5:0], sign in. -/
def execSrai (q : Nat) (p : Pred) (d a : BitVec 5) (imm : BitVec 32) (s : State) : Out := .next (aluI 7 opSra q p d a imm s)

/-- MULI (R303, R304): gD ← bits [63:0] of gA × IMM. -/
def execMuli (q : Nat) (p : Pred) (d a : BitVec 5) (imm : BitVec 32) (s : State) : Out := .next (aluI 8 (· * ·) q p d a imm s)

/-! ### Moves, compares, predicates -/

/-- MOVI (R303): gD ← IMM, sign-extended. -/
def execMovi (q : Nat) (p : Pred) (d : BitVec 5) (imm : BitVec 32) (s : State) : Out :=
  .next (kis q (wordI 0x03 0 p d 0 imm) p (retireWith q (fun x => x.setG d (simm imm))) s)

/-- MOVK.k (R303): halfword k of gD ← IMM[15:0]. -/
def execMovk (q : Nat) (p : Pred) (k : BitVec 2) (d : BitVec 5) (imm : BitVec 16) (s : State) : Out :=
  .next (kis q (wordI 0x03 (k.toNat + 1) p d 0 (imm.zeroExtend 32)) p (retireWith q (fun x => x.setG d (setHalf k.toNat (x.gr d) imm))) s)

/-- CMP (R303): pD ← gA cond gB. -/
def execCmp (q : Nat) (p : Pred) (c : Cond) (d a b : BitVec 5) (s : State) : Out :=
  .next (kis q (wordR 0x04 (condMinor c) p d a b) p (retireWith q (fun x => x.setP d.toNat (condEval c (x.gr a) (x.gr b)))) s)

/-- CMPI (R303): pD ← gA cond IMM. -/
def execCmpi (q : Nat) (p : Pred) (c : Cond) (d a : BitVec 5) (imm : BitVec 32) (s : State) : Out :=
  .next (kis q (wordI 0x05 (condMinor c) p d a imm) p (retireWith q (fun x => x.setP d.toNat (condEval c (x.gr a) (simm imm)))) s)

/-- PAND (R303). -/
def execPand (q : Nat) (p : Pred) (d a b : BitVec 5) (s : State) : Out := .next (predOp 0 (· && ·) q p d a b s)

/-- POR (R303). -/
def execPor (q : Nat) (p : Pred) (d a b : BitVec 5) (s : State) : Out := .next (predOp 1 (· || ·) q p d a b s)

/-- PXOR (R303). -/
def execPxor (q : Nat) (p : Pred) (d a b : BitVec 5) (s : State) : Out := .next (predOp 2 Bool.xor q p d a b s)

/-- PNOT (R303): pD ← NOT pA. -/
def execPnot (q : Nat) (p : Pred) (d a : BitVec 5) (s : State) : Out := .next (predOp 3 (fun x _ => !x) q p d a 0 s)

/-- PSET (R303): pD ← IMM[0]. -/
def execPset (q : Nat) (p : Pred) (d : BitVec 5) (v : Bool) (s : State) : Out :=
  .next (kis q (wordI 0x06 4 p d 0 (BitVec.ofNat 32 (b2n v))) p (retireWith q (fun x => x.setP d.toNat v)) s)

/-- PMOV (R303): gD ← p7 … p0 in bits [7:0]; p0 reads 1. -/
def execPmov (q : Nat) (p : Pred) (d : BitVec 5) (s : State) : Out :=
  .next (kis q (wordR 0x06 5 p d 0 0) p (retireWith q (fun x => x.setG d ((x.p ||| 1).zeroExtend 64))) s)

/-- PLD (R303): p1 … p7 ← gA[7:1]. -/
def execPld (q : Nat) (p : Pred) (a : BitVec 5) (s : State) : Out :=
  .next (kis q (wordR 0x06 6 p 0 a 0) p (retireWith q (fun x => { x with p := (x.gr a).setWidth 8 ||| 1 })) s)

/-! ### Branches (R309) -/

/-- The target of a PC-relative branch: PC + 8 × IMM. -/
def relTarget (s : State) (q : Nat) (imm : BitVec 32) : Word := BitVec.ofNat 64 (s.seq q).pc + 8 * simm imm

/-- B (R303, R309). -/
def execB (q : Nat) (p : Pred) (imm : BitVec 32) (s : State) : Out :=
  .next (kis q (wordI 0x10 0 p 0 0 imm) p (fun s => branch q (relTarget s q imm) id s) s)

/-- CALL (R303, R309): g31 ← PC + 8. -/
def execCall (q : Nat) (p : Pred) (imm : BitVec 32) (s : State) : Out :=
  .next (kis q (wordI 0x10 1 p 0 0 imm) p (fun s => branch q (relTarget s q imm) (fun x => x.setG 31 (BitVec.ofNat 64 (x.pc + 8))) s) s)

/-- BRR (R303, R309): PC ← gA. -/
def execBrr (q : Nat) (p : Pred) (a : BitVec 5) (s : State) : Out :=
  .next (kis q (wordR 0x10 2 p 0 a 0) p (fun s => branch q ((s.seq q).gr a) id s) s)

/-- CALLR (R303, R309): t ← gA, g31 ← PC + 8, PC ← t. -/
def execCallr (q : Nat) (p : Pred) (a : BitVec 5) (s : State) : Out :=
  .next (kis q (wordR 0x10 3 p 0 a 0) p (fun s => branch q ((s.seq q).gr a) (fun x => x.setG 31 (BitVec.ofNat 64 (x.pc + 8))) s) s)

/-! ### Descriptor and control registers -/

/-- DGET (R308): gD ← field of dA; a number above 8 is an encoding error. -/
def execDget (q : Nat) (p : Pred) (d a : BitVec 5) (f : BitVec 4) (s : State) : Out :=
  .next (if f.toNat ≤ 8 then kis q (wordI 0x18 2 p d a (f.zeroExtend 32)) p (retireWith q (fun x => x.setG d ((x.dr a).get f.toNat))) s else s)

/-- DSET (R308): field of dD ← the low bits of gA. -/
def execDset (q : Nat) (p : Pred) (d a : BitVec 5) (f : BitVec 4) (s : State) : Out :=
  .next (if f.toNat ≤ 8 then kis q (wordI 0x18 3 p d a (f.zeroExtend 32)) p (retireWith q (fun x => x.setD d ((x.dr d).set f.toNat (x.gr a)))) s else s)

/-- DADV (R308). -/
def execDadv (q : Nat) (p : Pred) (d a : BitVec 5) (s : State) : Out :=
  .next (kis q (wordR 0x18 4 p d a 0) p (retireWith q (fun x => x.setD d ((x.dr d).adv (x.gr a)))) s)

/-- DCPY (R303): dD ← dA. -/
def execDcpy (q : Nat) (p : Pred) (d a : BitVec 5) (s : State) : Out :=
  .next (kis q (wordR 0x18 5 p d a 0) p (retireWith q (fun x => x.setD d (x.dr a))) s)

/-- CRD (R300): gD ← control register; an index not listed raises ILLEGAL. -/
def execCrd (q : Nat) (p : Pred) (d : BitVec 5) (i : BitVec 8) (s : State) : Out :=
  .next (kis q (wordI 0x20 0 p d 0 (i.zeroExtend 32)) p (fun s =>
    if ctlDefined i.toNat then
      let r := ctlRead s ((shelfOf s (q / 4)).getD 0) q i.toNat
      retireWith q (fun x => x.setG d r.1) r.2
    else raiseBare q cIllegal 0 s) s)

/-- CWR (R300): control register ← gA; an index not listed or read-only raises ILLEGAL. -/
def execCwr (q : Nat) (p : Pred) (a : BitVec 5) (i : BitVec 8) (s : State) : Out :=
  .next (kis q (wordI 0x20 1 p 0 a (i.zeroExtend 32)) p (fun s =>
    if ctlWritable i.toNat then retireWith q (fun x => x.ctlWrite i.toNat (x.gr a)) s
    else raiseBare q cIllegal 0 s) s)

/-- CREAD (R312): gD ← completion counter of the own queue QSEL. -/
def execCread (q : Nat) (p : Pred) (d : BitVec 5) (n : BitVec 4) (s : State) : Out :=
  .next (if n.toNat ≤ 11 then kis q (wordR 0x31 n.toNat p d 0 0) p (fun s => retireWith q (fun x => x.setG d ((s.queue q n.toNat).count.zeroExtend 64)) s) s else s)

/-- NOP (R303). -/
def execNop (q : Nat) (p : Pred) (s : State) : Out := .next (kis q (wordR 0x3F 0 p 0 0 0) p (retireWith q id) s)

/-- TRAP (R317): raises cause TRAP with a code. -/
def execTrap (q : Nat) (p : Pred) (code : BitVec 16) (s : State) : Out :=
  .next (kis q (wordI 0x3F 2 p 0 0 (code.zeroExtend 32)) p (raiseBare q cTrap code.toNat) s)

/-- ERET (R318): PC ← EPC and handler mode ends; outside handler mode it raises ILLEGAL. [log 110 DEDUCED] -/
def execEret (q : Nat) (p : Pred) (s : State) : Out :=
  .next (kis q (wordR 0x3F 3 p 0 0 0) p (fun s =>
    if (s.seq q).hmode then s.onSeq q (fun x => { x.retire with pc := bits x.epc 16 3 * 8, hmode := false })
    else raiseBare q cIllegal 0 s) s)

/-- An uncorrectable program-store word is found at a fetch (R556): counted for the bay and for the shelf, with the alert of R557. [log 260 DESIGN CHOICE] -/
def notePstore (q : Nat) (s : State) : State :=
  let n := s.physOf (q / 4)
  let s : State := { s with health := { s.health with psUncorr := tupd 0 s.health.psUncorr n (sat 8 1) } }
  let s := match shelfOf s (q / 4) with | none => s | some k => s.onCounts k (fun c => { c with psUncorr := sat 8 1 c.psUncorr })
  alertEvent 6 n s

/-- INSTRUCTION_FETCH_FAULT (R309, R317): a running sequencer fetches past the text (FETCH), an
uncorrectable word (UNCORRECTABLE, EADDR the PC), or a word that is no defined instruction (ILLEGAL). [log 110 DEDUCED] -/
def execInstructionFetchFault (q : Nat) (s : State) : Out :=
  .next (if (s.seq q).run == .running then
    match fetch s q with
    | .past => raise q cFetch (BitVec.ofNat 64 (s.seq q).pc) 0 s
    | .bad => raise q cUncorrectable (BitVec.ofNat 64 (s.seq q).pc) 0 (notePstore q s)
    | .word w => if wordOk w then s else raiseBare q cIllegal 0 (fetched q s)
  else s)

end Sys2Proof.Machine
end

