-- ==== Sys2Proof/Machine/RingFlow.lean ====
section
/-!
DEFINITION. The three parts of an intake ring (R91, R94): the tail that bytes arrive in, the middle in the Cellar that they spill to, and
the head that engines read, with the error counts of each.
-/
namespace Sys2Proof.Machine

/-- Put a byte string into another at an offset. -/
def splice (b : Bytes) (off : Nat) (p : Bytes) : Bytes := b.take off ++ p ++ b.drop (off + p.length)

/-- Bytes that a ring's head holds, and bytes that its tail holds (R42). -/
def ringPart : Nat := 0x4_0000

/-- Where bytes [i, i + n) of an entry lie while they are in the middle, which is circular. -/
def Ring.midPieces (x : Ring) (e : RingEntry) (i n : Nat) : List (Nat × Nat) :=
  if x.middleSize = 0 ∨ n = 0 then []
  else
    let o := (e.pos + i) % x.middleSize
    let m := min n (x.middleSize - o)
    (x.middleBase + o, m) :: (if m < n then [(x.middleBase, n - m)] else [])

/-- The status of a read of several ranges: that of the first that cannot be read. -/
def piecesStat (s : State) (k : Nat) (l : List (Nat × Nat)) : Status :=
  ((l.map (fun p => vstat s k p.1 p.2)).find? (· != .ok)).getD .ok

/-- Lines with a corrected error that a read of several ranges meets. -/
def fixedLines (s : State) (k : Nat) (l : List (Nat × Nat)) : Nat :=
  ((l.flatMap (fun p => linesOf p.1 p.2)).filter (fun a => ((dev? s k a).bind (lineMark s)) == some .corrected)).length

/-- Write a byte string into consecutive pieces. -/
def writePieces (k : Nat) : List (Nat × Nat) → Bytes → State → State
  | [], _, s => s
  | p :: l, b, s => writePieces k l (b.drop p.2) (vwrite s k p.1 (b.take p.2))

/-- Bytes [i, j) of an entry spill from the tail to the middle. [log 25 DEDUCED] -/
def spillEntry (k : Nat) (x : Ring) (e : RingEntry) (i j : Nat) (s : State) : State :=
  writePieces k (x.midPieces e i (j - i)) (slice e.data i (j - i)) s

/-- The head prefetches bytes [i, j) of an entry from the middle: the entry, and the corrected errors met. A line beyond correction stays
so in the head. [log 25 DEDUCED] -/
def prefetchEntry (k : Nat) (x : Ring) (e : RingEntry) (i j : Nat) (s : State) : RingEntry × Nat × State :=
  let l := x.midPieces e i (j - i)
  if l.isEmpty then (e, 0, s)
  else
    let bad := if piecesStat s k l = .ok then e.bad else (i, j - i) :: e.bad
    ({ e with data := splice e.data i (l.flatMap (fun p => vread s k p.1 p.2)), bad := bad }, fixedLines s k l, noteBlocks k l s)

/-- Every entry's bytes move on as far as they can, the oldest first: into the head while it has room, else out of the tail into the middle.
`p` is the place of the first entry from the front of the ring. [log 25 DEDUCED] -/
def flowEntries (k : Nat) (x : Ring) : List RingEntry → Nat → State → List RingEntry × Nat × State
  | [], _, s => ([], 0, s)
  | e :: l, p, s =>
    let h := max e.head (min e.len (ringPart - p))
    let m := max (max e.mid h) (min e.len (ringPart + x.middleSize - p))
    let (e', f, s) := prefetchEntry k x e e.head (min h e.mid) s
    let s := spillEntry k x e' (max e.mid h) m s
    let (l', f', s) := flowEntries k x l (p + roundUp e.len 64) s
    ({ e' with head := h, mid := m } :: l', f + f', s)

/-- The bytes of ring r of shelf k move on (R91). [log 25 DEDUCED] -/
def ringFlow (k r : Nat) (s : State) : State :=
  match (s.shelf k).intake.rings.find? (fun e => e.1 == r) with
  | none => s
  | some (_, x) =>
    let (l, f, s) := flowEntries k x x.entries 0 s
    s.onIntake k (fun n => { n with
      rings := mapIf (fun e => e.1 == r) (fun e => (e.1, { e.2 with entries := l, corrected := sat 32 f e.2.corrected })) n.rings })

/-- Count in RING_ECC what a read meets (R94). -/
def countRing (k r fixed bad : Nat) (s : State) : State :=
  if fixed + bad = 0 then s
  else s.onIntake k (fun n => { n with
    rings := mapIf (fun e => e.1 == r) (fun e => (e.1, { e.2 with corrected := sat 32 fixed e.2.corrected, uncorrected := sat 16 bad e.2.uncorrected })) n.rings })

/-- n bytes of an entry of ring r from byte off, from the head and tail SRAM and from the middle; none where a word or line of them is beyond
correction (R94, R110). [log 36 DEDUCED] -/
def ringRead (k r : Nat) (x : Ring) (e : RingEntry) (off n : Nat) (s : State) : Option Bytes × State :=
  let i := max off e.head
  let l := x.midPieces e i (min (off + n) e.mid - i)
  let fixed := (e.fixed.filter (fun a => overlap a 8 off n)).length + fixedLines s k l
  let bad := e.bad.any (fun b => overlap b.1 b.2 off n) || piecesStat s k l != .ok
  let got := slice (if l.isEmpty then e.data else splice e.data i (l.flatMap (fun p => vread s k p.1 p.2))) off n
  let s := noteBlocks k l s
  (if bad then none else some got, countRing k r fixed (b2n bad) s)

end Sys2Proof.Machine
end

