-- ==== Sys2Proof/Machine/Queues.lean ====
section
/-!
DEFINITION. Engine queues and chaining (12_engine_queues.md): descriptor layouts (R331-R336),
acceptance (R326, R327), completion, records, halt and skip (R329, R330, R337-R339), and the
queue-control commands.
-/
namespace Sys2Proof.Machine

/-! ### Descriptors (R331, R335, R336) -/

def dKind (d : Bytes) : Nat := field d 0 1
def dRec (d : Bytes) : Bool := nbit (field d 1 1) 0
def dHalt (d : Bytes) : Bool := nbit (field d 1 1) 1
def dUser (d : Bytes) : Nat := field d 4 4

/-- Queue classes (R323). -/
inductive QClass where
  | fold | general | fabric
  deriving DecidableEq, Repr

/-- The class of queue QSEL n. -/
def qclass (n : Nat) : QClass := if n ≤ 3 then .fold else if n ≤ 7 then .general else .fabric

/-- A defined command kind (R335). -/
def kindDefined (k : Nat) : Bool :=
  (decide (0x01 ≤ k) && decide (k ≤ 0x0B)) || (decide (0x10 ≤ k) && decide (k ≤ 0x16)) ||
  (decide (0x18 ≤ k) && decide (k ≤ 0x1A)) || (decide (0x20 ≤ k) && decide (k ≤ 0x26)) || k == 0x28 ||
  (decide (0x30 ≤ k) && decide (k ≤ 0x33)) || (decide (0x3C ≤ k) && decide (k ≤ 0x3E))

/-- The queue class accepts the kind (R323). -/
def classOk (n k : Nat) : Bool :=
  (decide (0x3C ≤ k) && decide (k ≤ 0x3E)) ||
  (match qclass n with
    | .fold => decide (0x01 ≤ k) && decide (k ≤ 0x0B)
    | .general => decide (0x10 ≤ k) && decide (k ≤ 0x28)
    | .fabric => decide (0x30 ≤ k) && decide (k ≤ 0x33))

/-- The operand bytes that a kind uses, as (offset, length) (R336). -/
def usedBytes (k opf : Nat) : List (Nat × Nat) :=
  let cask := (0x08, 1); let opfB := (0x09, 1); let coff := (0x0C, 4); let count := (0x10, 4)
  let aux := (0x14, 4); let wide := (0x18, 8); let v0 := (0x20, 0x20)
  match k with
  | 0x01 => [cask, opfB, coff, count, v0]
  | 0x02 => if nbit opf 1 then [cask, opfB, coff, count] else [cask, opfB, coff, count, v0]
  | 0x03 => [cask, opfB, (0x0A, 2), coff, count, wide, v0]
  | 0x04 => [cask]
  | 0x05 => [cask, opfB, coff, count, wide]
  | 0x06 => [cask, opfB, coff, count, wide]
  | 0x07 => [cask, (0x0B, 1), coff, count, aux, wide]
  | 0x08 => [cask, (0x0B, 1), coff, count, aux, wide]
  | 0x09 => [cask, (0x0A, 1), coff, count]
  | 0x0A => [cask, (0x0A, 1), coff, count, aux]
  | 0x0B => [cask, coff, wide]
  | 0x10 => [wide]
  | 0x11 => [(0x08, 1), wide]
  | 0x12 => [wide]
  | 0x13 => [wide]
  | 0x14 => [(0x09, 1), wide]
  | 0x15 => [(0x0C, 8)]
  | 0x16 => [(0x0C, 8)]
  | 0x18 => [(0x08, 1), (0x10, 0x20)]
  | 0x19 => [(0x10, 0x20)]
  | 0x1A => [(0x18, 0x18)]
  | 0x20 => [(0x08, 4), (0x10, 8), (0x20, 8)]
  | 0x21 => [(0x08, 4), (0x10, 8), (0x20, 8)]
  | 0x22 => [(0x08, 5), (0x10, 0x18)]
  | 0x23 => [(0x08, 1), (0x10, 0x1A)]
  | 0x24 => [(0x09, 2)]
  | 0x25 => [(0x08, 1), (0x0D, 3), (0x10, 8), (0x20, 8)]
  | 0x26 => [(0x0D, 3)]
  | 0x28 => [cask, (0x0A, 1), coff, count, aux]
  | 0x30 => [(0x08, 0x38)]
  | 0x31 => [(0x08, 0x38)]
  | 0x32 => [(0x08, 4), (0x0E, 0xA), v0]
  | 0x33 => [(0x0C, 0x34)]
  | 0x3C => [(0x08, 2), (0x0C, 4)]
  | 0x3D => [(0x08, 1)]
  | _ => []

/-- Flag bits of OPF that a kind uses (R336). -/
def opfMask (k : Nat) : Nat :=
  match k with | 0x01 => 1 | 0x02 => 2 | 0x03 => 1 | 0x05 => 0x3C | _ => 0

/-- Reserved bytes and bits zero (R331, R332, R336). -/
def layoutOk (d : Bytes) : Bool :=
  let k := dKind d
  let opf := field d 9 1
  let used := usedBytes k opf
  decide (field d 1 1 < 4) && zeroAt d 2 2 &&
  (List.range 56).all (fun i => used.any (fun u => decide (u.1 ≤ i + 8) && decide (i + 8 < u.1 + u.2)) || field d (i + 8) 1 == 0) &&
  (if k ≤ 0x0B ∨ k = 0x28 then decide (field d 8 1 < 64) else true) &&
  (if k = 0x01 ∨ k = 0x02 ∨ k = 0x03 ∨ k = 0x05 ∨ k = 0x06 then opf &&& (0xFF - opfMask k) == 0 else true) &&
  (if k = 0x14 then decide (field d 9 1 < 2) else true) &&
  (if k = 0x22 then decide (field d 0xC 1 < 4) else true)

/-! ### Acceptance (R326, R327) -/

/-- A command that holds its queue until it completes: WAITQ, FENCE, or HALT set (R337-R339). -/
def InFlight.holds (c : InFlight) : Bool := c.kind == 0x3C || c.kind == 0x3D || dHalt c.desc

/-- QSTATE.HELD. -/
def Queue.held (u : Queue) : Bool := match u.inflight.getLast? with | none => false | some c => c.holds

/-- The head command may be accepted by a unit: intact, no hold, window not full, and the queue
not halted unless the command is a FENCE (R325, R327, R339). -/
def Queue.ready (u : Queue) : Bool :=
  match u.entries with
  | [] => false
  | e :: _ => !e.bad && decide (u.inflight.length < 32) && !u.held && (!u.halted || dKind e.desc == 0x3D)

/-- Kinds that the lattice cluster serves (R335). -/
def latticeKind (k : Nat) : Bool := k == 0x0B || (decide (0x20 ≤ k) && decide (k ≤ 0x26))

/-- The lattice domain of a bay is gated (R497). -/
def latticeGated (s : State) (b : Nat) : Bool := (tget ({} : BayClk) s.pow.bays (s.physOf b)).latGated

/-- The unit that serves a command of shelf k (R335): 0 the fold unit, 1 the curve engine, 2 the field unit, 3 the keystream block, 4 the
Keccak cores, 5 the lattice cluster, 6 the vector unit, 7 the transport. COMMIT and RETRACT go to the ledger as they arrive, and WAITQ, FENCE and
NOP need no unit. [log 127 DESIGN CHOICE] -/
def unitOf (s : State) (k : Nat) (d : Bytes) : Option Nat :=
  let kind := dKind d
  if 0x01 ≤ kind ∧ kind ≤ 0x0B then some 0
  else if kind = 0x12 then
    some (match (s.shelf k).intake.log.find? (fun e => e.logSeq == field d 0x18 8) with | none => 1 | some e => if e.scheme = 3 then 2 else 1)
  else if kind = 0x16 then some 1
  else if 0x13 ≤ kind ∧ kind ≤ 0x15 then some 2
  else if kind = 0x18 then some 3
  else if kind = 0x19 ∨ kind = 0x1A then some 4
  else if 0x20 ≤ kind ∧ kind ≤ 0x26 then some 5
  else if kind = 0x28 then some 6
  else if 0x30 ≤ kind ∧ kind ≤ 0x33 then some 7
  else none

/-- Sequencer q's queue n offers a command of kind k. A gated lattice cluster takes none. -/
def offers (s : State) (q n k : Nat) : Bool :=
  let u := s.queue q n
  u.ready && (match u.entries with | [] => false | e :: _ => dKind e.desc == k) && classOk n k && (shelfOf s (q / 4)).isSome &&
  !(latticeKind k && latticeGated s (q / 4))

/-- Kinds that may wait while their unit serves other queues: FOLD.P for ledger space (R150), KEYSW for an object that is refreshed (R267), and
the fabric kinds for a flow or a flight entry (R327, R362). [log 127 DESIGN CHOICE] -/
def mayWait (k : Nat) : Bool := k == 0x03 || k == 0x23 || k == 0x30 || k == 0x31 || k == 0x32

/-- How far queue n of sequencer q is from its next turn at unit u: round-robin over the sequencers of the bay, then over the queues of
one (R128, R328). [log 127 DESIGN CHOICE] -/
def turnOf (s : State) (u q n : Nat) : Nat :=
  let t := (s.bay (q / 4)).turns
  (q % 4 + 3 - tget 3 t (8 * u)) % 4 * 12 + (n + 11 - tget 11 t (8 * u + 1 + q % 4)) % 12

/-- Queue n of sequencer q offers its unit u a command that the unit can take now. -/
def competes (s : State) (k u q n : Nat) : Bool :=
  match (s.queue q n).entries with
  | [] => false
  | e :: _ =>
    let kind := dKind e.desc
    unitOf s k e.desc == some u && offers s q n kind && !mayWait kind && !(u == 0 && (s.bay (q / 4)).hold.any (fun h => h.seq == q && h.queue == n))

/-- It is the turn of queue n of sequencer q at its head command's unit. [log 34 DEDUCED, 127 DESIGN CHOICE] -/
def inTurn (s : State) (q n : Nat) : Bool :=
  match (s.queue q n).entries with
  | [] => true
  | e :: _ =>
    let k := (shelfOf s (q / 4)).getD 0
    match unitOf s k e.desc with
    | none => true
    | some u =>
      [0, 1, 2, 3].all (fun i => (List.range 12).all (fun m =>
        let p := q / 4 * 4 + i
        decide (turnOf s u q n ≤ turnOf s u p m) || !competes s k u p m))

/-- Whether sequencer q's queue n presents a command of kind k for acceptance, in its turn. -/
def presents (s : State) (q n k : Nat) : Bool := offers s q n k && inTurn s q n

/-- What an engine answers when it takes a command: its status if it has finished, and DETAIL. -/
abbrev Answer := Option Status × Nat × State

/-- The head entry of a queue moves to the commands in flight. -/
def Queue.take (u : Queue) : Queue :=
  match u.entries with
  | [] => u
  | e :: r => { u with
      entries := r, rp := (u.rp + 1) % 512, corr := sat 16 e.fixed u.corr
      inflight := u.inflight ++ [{ desc := e.desc, kind := dKind e.desc, marks := e.marks }] }

/-- Set the result of the command that a queue had accepted last. -/
def Queue.answer (r : Option Status) (detail : Nat) (u : Queue) : Queue :=
  match u.inflight.reverse with
  | [] => u
  | c :: p => { u with inflight := ({ c with result := r, detail := detail } :: p).reverse }

/-- The head command of queue QSEL n is of no kind, or of a kind that the class does not take. [log 123 DEDUCED] -/
def Queue.misfit (n : Nat) (u : Queue) : Bool :=
  u.ready && (match u.entries with | [] => false | e :: _ => !(kindDefined (dKind e.desc) && classOk n (dKind e.desc)))

/-- Such heads are refused as soon as they are presented, as far as the window goes (R326, R335). [log 123 DEDUCED] -/
def Queue.absorb (n : Nat) : Nat → Queue → Queue
  | 0, u => u
  | i + 1, u => if u.misfit n then (u.take.answer (some .paramUnsupported) 0).absorb n i else u

/-- Refuse the heads of queue n of sequencer q that no unit takes. [log 123 DEDUCED] -/
def refuseHeads (q n : Nat) (s : State) : State := s.onQueue q n (Queue.absorb n 32)

/-- The head entry moves from the queue to the commands in flight. -/
def takeHead (q n : Nat) (s : State) : State := s.onQueue q n Queue.take

/-- The unit of the head command has served queue n of sequencer q. [log 127 DESIGN CHOICE] -/
def served (q n : Nat) (s : State) : State :=
  match (s.queue q n).entries with
  | [] => s
  | e :: _ =>
    match unitOf s ((shelfOf s (q / 4)).getD 0) e.desc with
    | none => s
    | some u => s.onBay (q / 4) (fun y => { y with turns := tput (tput y.turns (8 * u) (q % 4)) (8 * u + 1 + q % 4) n })

/-- Set the result of the command accepted last. -/
def setLast (q n : Nat) (r : Option Status) (detail : Nat) (s : State) : State := s.onQueue q n (Queue.answer r detail)

/-- The descriptor at the head of a queue. -/
def headDesc (s : State) (q n : Nat) : Bytes := match (s.queue q n).entries with | [] => [] | e :: _ => e.desc

/-- A unit accepts the head command of queue n of sequencer q, of kind k: a broken layout refuses
it at issue (R332), a fenced shelf refuses it (R542), otherwise the engine's operation f answers; then a head that no unit takes
is refused. Where the queue does not present such a command nothing happens. [log 126 DEDUCED] -/
def accept (k : Nat) (f : Nat → Bytes → State → Answer) (q n : Nat) (s : State) : State :=
  if presents s q n k then
    let d := headDesc s q n
    let s := takeHead q n (served q n s)
    refuseHeads q n (
      if (s.shelf ((shelfOf s (q / 4)).getD 0)).fenced then setLast q n (some .shelfFenced) 0 s
      else if layoutOk d then
        let r := f ((shelfOf s (q / 4)).getD 0) d s
        setLast q n r.1 r.2.1 r.2.2
      else setLast q n (some .paramUnsupported) 0 s)
  else s

/-- The command completes at acceptance with a status. [log 126 DEDUCED] -/
def done (st : Status) (s : State) : Answer := (some st, 0, s)

/-- Refused at issue with the default status (R326). -/
def refuse (s : State) : Answer := (some .paramUnsupported, 0, s)

/-! ### Completion (R329, R330) -/

/-- The completion record (R330). -/
def recBytes (c : BitVec 32) (st : Status) (kind : Nat) (skipped halted : Bool) (user detail : Nat) : Bytes :=
  toLe 4 c.toNat ++ toLe 1 st.code ++ toLe 1 kind ++ toLe 1 (b2n skipped + 2 * b2n halted) ++ zeros 1 ++ toLe 4 user ++ toLe 4 detail

/-- Where the record of sequence value c of queue n goes, as an offset in the bay store. -/
def recAt (e : QErr) (n : Nat) (c : BitVec 32) : Nat := bits e.qrec 23 12 * 4096 + n * 4096 + (c - 1).toNat % 256 * 16

/-- Whether a range of a bay store meets an enabled Cask area of that bay. -/
def hitsCask (y : Bay) (off len : Nat) : Bool := y.casks.any (fun e => e.2.en && overlap off len e.2.areaAt.1 e.2.areaAt.2)

/-- Write a completion record, or count it lost (R330). -/
def writeRecord (q n : Nat) (c : BitVec 32) (b : Bytes) (s : State) : State :=
  let off := recAt (s.qerr q) n c
  if hitsCask (s.bay (q / 4)) off 16 then s.onQErr q (fun e => { e with recLost := sat 16 1 e.recLost })
  else dwrite s (storeAddr (q / 4) off) b

/-- What one completion adds to a queue. -/
structure Completion where
  status  : Status
  kind    : Nat
  user    : Nat := 0
  detail  : Nat := 0
  wantRec : Bool := false
  skipped : Bool := false
  halts   : Bool := false
  clears  : Bool := false
  deriving DecidableEq, Repr

/-- Count one completion: its record first, then the counter, QERR and the halt (R329, R330, R339). [log 124 DEDUCED] -/
def countDone (q n : Nat) (x : Completion) (s : State) : State :=
  let c := (s.queue q n).count + 1
  let s :=
    if bit (s.qerr q).qrec 0 && (x.wantRec || !(x.status == .ok)) then
      writeRecord q n c (recBytes c x.status x.kind x.skipped x.halts x.user x.detail) s
    else s
  let s := s.onQueue q n (fun u => { u with
    count := c, counted := u.counted + 1, recent := (x.status :: u.recent).take 256
    halted := if x.clears then false else u.halted || x.halts
    haltStatus := if x.halts then x.status else u.haltStatus })
  if x.status.bad then
    s.onQErr q (fun e => { e with first := if e.first = 0 then x.status.code else e.first, nonok := sat 16 1 e.nonok })
  else s

/-- The condition of a WAITQ in flight, with the status it then takes (R337). [log 123 DEDUCED] -/
def waitqStatus (s : State) (k : Nat) (d : Bytes) : Option Status :=
  match (s.shelf k).seqs[field d 8 1]? with
  | none => none
  | some t =>
    let u := s.queue t (field d 9 1)
    let n := BitVec.ofNat 32 (field d 0xC 4)
    if reaches u.count n then
      if dHalt d then
        match u.recent[(u.count - n).toNat]? with
        | none => some .ok
        | some st => some (if st.bad then st else .ok)
      else some .ok
    else none

/-- The condition of a FENCE in flight: every earlier command of its queue counted (it is the
oldest in flight), and with SCOPE 1 the recorded commands of the other queues (R338). [log 125 DEDUCED] -/
def fenceReady (s : State) (q : Nat) (c : InFlight) : Bool :=
  field c.desc 8 1 == 0 ||
  (List.range 12).all (fun i => decide (min (c.marks.getD i 0) (s.queue q i).placed ≤ (s.queue q i).counted) || (s.queue q i).inflight.head? == some c)

/-- The status of the oldest command in flight, if it has finished or its condition now holds. -/
def headResult (s : State) (k q n : Nat) (c : InFlight) : Option Status :=
  match c.result with
  | some st => some st
  | none =>
    if c.kind = 0x3C then waitqStatus s k c.desc
    else if c.kind = 0x3D then
      if fenceReady s q c then some (if (s.queue q n).halted then (s.queue q n).haltStatus else .ok) else none
    else none

/-- Count the oldest command in flight with its status. [log 124 DEDUCED] -/
def countHead (q n : Nat) (c : InFlight) (st : Status) (s : State) : State :=
  let wasHalted := (s.queue q n).halted
  let clears := c.kind == 0x3D && c.result.isNone
  let x : Completion :=
    { status := st, kind := c.kind, user := dUser c.desc, detail := c.detail, wantRec := dRec c.desc
      halts := dHalt c.desc && st.bad && !wasHalted, clears := clears && wasHalted }
  countDone q n x (s.onQueue q n (fun u => { u with inflight := u.inflight.tail }))

/-- Remove the head entry without acceptance. -/
def dropHead (q n : Nat) (s : State) : State :=
  s.onQueue q n (fun u => match u.entries with | [] => u | e :: r => { u with entries := r, rp := (u.rp + 1) % 512, corr := sat 16 e.fixed u.corr })

/-- A head entry that is not accepted completes in its place: uncorrectable (R325), or skipped in a halted queue (R339). [log 122 DEDUCED] -/
def completeUnaccepted (q n : Nat) (e : QEntry) (s : State) : State :=
  let u := s.queue q n
  if e.bad then
    let s := (dropHead q n s).onQErr q (fun x => { x with uncorr := sat 16 1 x.uncorr })
    countDone q n { status := .uncorrectable, kind := 0xFF } s
  else if u.halted ∧ dKind e.desc ≠ 0x3D then
    countDone q n { status := u.haltStatus, kind := dKind e.desc, user := dUser e.desc, wantRec := dRec e.desc, skipped := true } (dropHead q n s)
  else s

/-- Kinds that name a crate by LOG_SEQ and so its ring entry: FOLD.P, SIGV, FLPV, LAGR.IN (R93, R336). -/
def namesCrate (k : Nat) : Bool := k == 0x03 || k == 0x12 || k == 0x13 || k == 0x14

/-- A command that names a crate of shelf k is outstanding (R93). [log 24 DEDUCED] -/
def crateNamed (s : State) (k seq : Nat) : Bool :=
  (s.shelf k).seqs.any (fun q => (List.range 12).any (fun n => (s.queue q n).inflight.any (fun c => namesCrate c.kind && field c.desc 0x18 8 == seq)))

/-- Ring entries are reclaimed from the oldest on, once settled and named by no outstanding command; RING_STATUS.FULL falls when space
frees (R93). [log 24 DEDUCED] -/
def Ring.reclaim (s : State) (k : Nat) (x : Ring) : Ring :=
  let l := x.entries.dropWhile (fun e => e.settled && !crateNamed s k e.logSeq)
  { x with entries := l, full := x.full && l.length == x.entries.length }

/-- The rings of shelf k after a command has been counted (R93). [log 24 DEDUCED] -/
def reclaimAfter (k : Nat) (c : InFlight) (s : State) : State :=
  if namesCrate c.kind then
    let s := s.onIntake k (fun x => { x with rings := x.rings.map (fun e => (e.1, e.2.reclaim s k)) })
    (s.shelf k).intake.rings.foldl (fun s e => ringFlow k e.1 s) s
  else s

/-- The commands at the front of a queue that have finished are counted, m at most. [log 125 DEDUCED] -/
def countFinished (q n : Nat) : Nat → State → State
  | 0, s => s
  | m + 1, s =>
    match (s.queue q n).inflight with
    | [] => s
    | c :: _ =>
      match headResult s ((shelfOf s (q / 4)).getD 0) q n c with
      | none => s
      | some st => countFinished q n m (countHead q n c st s)

/-- COMMAND_COMPLETE (R93, R329, R330, R337-R339): the oldest command of the queue is counted if it has
finished; with none in flight, a head entry that is not accepted completes in its place. [log 122 DEDUCED] -/
def execCommandComplete (q n : Nat) (s : State) : Out :=
  .next (
    let s := refuseHeads q n s
    match (s.queue q n).inflight with
    | c :: _ =>
      let k := (shelfOf s (q / 4)).getD 0
      match headResult s k q n c with
      | some st => refuseHeads q n (reclaimAfter k c (countHead q n c st s))
      | none => s
    | [] =>
      match (s.queue q n).entries with
      | [] => s
      | e :: _ => refuseHeads q n (completeUnaccepted q n e s))

/-! ### WAITQ, FENCE, NOP -/

/-- WAITQ (R337): its operands are checked; then it holds its queue. -/
def execWaitq (q n : Nat) (s : State) : Out :=
  .next (accept 0x3C (fun k d s =>
    let t := field d 8 1
    let seqs := (s.shelf k).seqs
    if t < seqs.length ∧ field d 9 1 ≤ 11 ∧ ¬(seqs[t]? = some q ∧ field d 9 1 = n) then (none, 0, s) else refuse s) q n s)

/-- FENCE (R338): a SCOPE other than 0 or 1 is refused at issue; otherwise it holds its queue. -/
def execFence (q n : Nat) (s : State) : Out :=
  .next (accept 0x3D (fun _ d s => if field d 8 1 ≤ 1 then (none, 0, s) else refuse s) q n s)

/-- The NOP command (R335) completes at acceptance. -/
def execQueueNop (q n : Nat) (s : State) : Out := .next (accept 0x3E (fun _ _ s => done .ok s) q n s)

/-- QREC_WRITE (R342): a record area outside the populated store is ignored and sets CFG_ERR. -/
def qrecWrite (q : Nat) (v : Word) (s : State) : State :=
  if bits v 23 12 * 4096 + 49152 ≤ 0xC0_0000 then s.onQErr q (fun e => { e with qrec := v &&& 0xFFF001 })
  else s.onQErr q (fun e => { e with cfgErr := true })

def execQrecWrite (q : Nat) (v : Word) (s : State) : Out := .next (qrecWrite q v s)

end Sys2Proof.Machine
end

