-- ==== Sys2Proof/Machine/Wire.lean ====
section
/-!
DEFINITION. Basdo on the wire (13_basdo_transport.md): the transport's configuration registers (R373,
R374, R376), packets and frames (R346-R350), and the entering of a message at its sender (R353, R362).
-/
namespace Sys2Proof.Machine

/-! ### Device registers by BAR0 offset -/

/-- An RW register outside the shelf and bay blocks, with its Reset value. -/
def State.dreg (s : State) (off : Nat) (reset : Word := 0) : Word := tget reset s.cfg off

/-- Set such a register. -/
def State.setDreg (s : State) (off : Nat) (v : Word) : State := { s with cfg := tput s.cfg off v }

def portBase (n : Nat) : Nat := 0x40_0000 + n * 0x1000
def tpBase : Nat := 0x60_0000

def State.portCfg (s : State) (n : Nat) : Word := s.dreg (portBase n)
def State.portMac (s : State) (k : Nat) : Word := s.dreg (portBase (k / 4) + 0x100 + k % 4 * 0x10) ((Config.fuseMac k).zeroExtend 64)
def State.nextHop (s : State) (k : Nat) : Word := s.dreg (portBase (k / 4) + 0x108 + k % 4 * 0x10)
def tpCfgReset : Word := 0x0040_C000_4D96_2E68
def tpTimerReset : Word := 0x0004_07D0_0404_8708
def tpRateReset : Word := 0x0000_0508_4080_0400
def State.tpCfg (s : State) : Word := s.dreg tpBase tpCfgReset
def State.tpNode (s : State) : Word := s.dreg (tpBase + 8)
/-- TP_TIMER (R374). [log 144 DEDUCED] -/
def State.tpTimer (s : State) : Word := s.dreg (tpBase + 0x10) tpTimerReset
/-- TP_RATE (R371, R374). [log 144 DEDUCED] -/
def State.tpRate (s : State) : Word := s.dreg (tpBase + 0x18) tpRateReset
def State.tpSeal (s : State) : Word := s.dreg (tpBase + 0x40)
/-- The IPv6 address of channel k. -/
def State.tpAddr (s : State) (k : Nat) : Nat :=
  (s.dreg (tpBase + 0x1000 + k * 0x10)).toNat * 2 ^ 64 + (s.dreg (tpBase + 0x1008 + k * 0x10)).toNat
/-- TP_NODE.NODE. -/
def State.node (s : State) : Nat := bits s.tpNode 15 0
/-- Packets are sent and received (TP_NODE.EN). -/
def State.tpEn (s : State) : Bool := bit s.tpNode 16
/-- MSS (R348). -/
def State.mss (s : State) : Nat := if bit s.tpCfg 0 then 8192 else 4096

/-! ### The destination table (R376) -/

/-- What a destination entry supplies. -/
structure Dest where
  valid  : Bool
  addr   : Nat
  tshelf : Nat
  paths  : Nat
  chan   : Nat
  alt    : Nat
  shelves : Nat
  node   : Nat

def destBase (i : Nat) : Nat := tpBase + 0x2_0000 + i * 0x20

/-- Destination entry i. -/
def State.dest (s : State) (i : Nat) : Dest :=
  let c := s.dreg (destBase i + 0x10)
  { valid := bit c 0 && decide (i < 4096)
    addr := (s.dreg (destBase i)).toNat * 2 ^ 64 + (s.dreg (destBase i + 8)).toNat
    tshelf := bits c 3 1, paths := bits c 6 4 + 1, chan := bits c 13 8, alt := bits c 21 16
    shelves := bits c 31 24, node := bits c 47 32 }

/-- Shelf k may name entry i. -/
def Dest.usable (d : Dest) (k : Nat) : Bool := d.valid && nbit d.shelves k

/-! ### Frames (R347) -/

/-- The ones' complement sum of 16-bit words. -/
def onesSum (b : Bytes) : Nat :=
  let t := ((chunks 2 b).map (fun w => beNat (w ++ zeros (2 - w.length)))).sum
  let t := t % 0x10000 + t / 0x10000
  let t := t % 0x10000 + t / 0x10000
  t % 0x10000 + t / 0x10000

/-- The IPv6 pseudo-header for UDP (RFC 8200). -/
def pseudo (src dst len : Nat) : Bytes := toBe 16 src ++ toBe 16 dst ++ toBe 4 len ++ zeros 3 ++ [17]

/-- The UDP checksum as it is sent: a computed 0 as 0xFFFF. -/
def udpSum (src dst : Nat) (udp : Bytes) : Nat :=
  let c := 0xFFFF - onesSum (pseudo src dst udp.length ++ udp)
  if c = 0 then 0xFFFF else c

/-- One frame of channel k to IPv6 address dst, without the FCS. [log 133 DEDUCED] -/
def frameOf (s : State) (k dst dscp ecn flowLabel sport dport : Nat) (pkt : Bytes) : Bytes :=
  let pc := s.portCfg (k / 4)
  let src := s.tpAddr k
  let len := 8 + pkt.length
  let head := toBe 2 sport ++ toBe 2 dport ++ toBe 2 len
  let udp := head ++ toBe 2 (udpSum src dst (head ++ zeros 2 ++ pkt)) ++ pkt
  toBe 6 (s.nextHop k).toNat ++ toBe 6 (s.portMac k).toNat ++
  (if bit pc 2 then toBe 2 0x8100 ++ toBe 2 (bits pc 6 4 * 0x2000 + bits pc 19 8) else []) ++ toBe 2 0x86DD ++
  toBe 4 (6 * 2 ^ 28 + (dscp * 4 + ecn) * 2 ^ 20 + flowLabel % 2 ^ 20) ++ toBe 2 len ++ [17, BitVec.ofNat 8 (bits s.tpCfg 55 48)] ++
  toBe 16 src ++ toBe 16 dst ++ udp

/-- Send a frame on channel k. [log 133 DEDUCED] -/
def emit (k : Nat) (f : Bytes) (s : State) : State := { s with tp := { s.tp with wire := (k, f) :: s.tp.wire } }

/-- The flow label and source port of a packet of a flow on a path. -/
def flowLabelOf (flow path : Nat) : Nat := flow * 8 + path
def sportOf (s : State) (flow path : Nat) : Nat := bits s.tpCfg 47 32 + flow % 1024 * 8 + path

/-- The channel is up. -/
def chanUp (s : State) (k : Nat) : Bool := nbit (tget ({} : Port) s.ports (k / 4)).up (k % 4)

/-- The egress channel of a message now: its own, or the alternate while that is down (R372). -/
def egress (s : State) (m : TxMsg) : Nat := if chanUp s m.chan then m.chan else m.alt

/-! ### Data packets (R348, R349) -/

/-- Packets of a message of n bytes; a message of length 0 is one packet, and so is a READ_REQ. -/
def packetCount (mss n : Nat) : Nat := max 1 ((n + mss - 1) / mss)

/-- Packets that a sender's message has. -/
def TxMsg.packets (m : TxMsg) (mss : Nat) : Nat := if m.op = 3 then 1 else packetCount mss m.len

/-- The part of a source's blocks that n bytes from offset off lie in. -/
def blocksAt : List (Nat × Nat) → Nat → Nat → List (Nat × Nat)
  | [], _, _ => []
  | e :: r, off, n =>
    let from_ := min off e.2
    let m := min (e.2 - from_) n
    if m = 0 then blocksAt r (off - from_) n else (e.1 + from_, m) :: blocksAt r (off - from_) (n - m)

/-- The memory that packet k of a message is read from. -/
def TxMsg.reads (m : TxMsg) (mss k : Nat) : List (Nat × Nat) :=
  if m.op = 3 then [] else match m.source with | .held _ => [] | .blocks l => blocksAt l (k * mss) mss

/-- The bytes of a packet of a message, read from its source, with the status of the read (R361). -/
def TxMsg.payload (s : State) (m : TxMsg) (mss k : Nat) : Status × Bytes :=
  if m.op = 3 then (.ok, [])
  else match m.source with
    | .held b => (.ok, slice b (k * mss) mss)
    | .blocks _ =>
      let l := m.reads mss k
      (((l.map (fun b => vstat s m.shelf b.1 b.2)).find? (fun st => st != .ok)).getD .ok, l.flatMap (fun b => vread s m.shelf b.1 b.2))

/-- The 56-byte header of packet k of a message (R349). -/
def dataHeader (s : State) (seq : Nat) (m : TxMsg) (k path : Nat) (retx ackNow : Bool) : Bytes :=
  let last := k + 1 == m.packets s.mss
  toBe 1 0x11 ++ toBe 1 (b2n last + 2 * b2n retx + 4 * b2n ackNow + 8 * b2n (bit s.tpCfg 0)) ++ toBe 2 m.flow ++ toBe 4 seq ++
  toBe 4 m.prev ++ toBe 4 m.len ++ toBe 4 (k * s.mss) ++ toBe 1 m.op ++ toBe 1 path ++
  toBe 2 (if m.op = 1 ∨ m.op = 3 then m.index else 0) ++ toBe 8 m.keyTag ++ toBe 8 m.roff ++ toBe 1 m.tshelf ++ toBe 1 m.shelf ++
  toBe 2 s.node ++ toBe 4 (s.epoch % 2 ^ 32) ++ zeros 8

/-- Transmit packet k on a path of the message's egress channel. [log 145 DEDUCED] -/
def sendPacket (seq : Nat) (m : TxMsg) (k path : Nat) (retx ackNow : Bool) (s : State) : State :=
  let (st, b) := m.payload s s.mss k
  if st = .ok then
    let c := egress s m
    let pkt := dataHeader s seq m k path retx ackNow ++ b
    let s := emit c (frameOf s c m.addr (bits s.tpCfg 7 2) 2 (flowLabelOf m.flow path) (sportOf s m.flow path) (bits s.tpCfg 31 16) pkt) s
    { s with tp := { s.tp with tx := tput s.tp.tx seq { m with sent := tput m.sent k path, onChan := tput m.onChan k c } } }
  else s

/-! ### Entering a message (R353, R362, R365) -/

/-- The next MSG_SEQ, which skips 0 (R353). -/
def nextSeqNo (n : Nat) : Nat := let m := (n + 1) % 2 ^ 32; if m = 0 then 1 else m

/-- A message belongs to the flow (R362); reads are excepted. [log 138 DEDUCED] -/
def TxMsg.ofFlow (m : TxMsg) (k dest flow : Nat) : Bool := m.shelf == k && m.dest == dest && m.flow == flow && (m.op == 1 || m.op == 2)

/-- The latest message of a flow that has not ended (R362). -/
def flowLast (s : State) (k dest flow : Nat) : Nat :=
  let l := s.tp.tx.filter (fun e => e.2.ofFlow k dest flow)
  (l.foldl (fun (a : Nat × Nat) e => if a.1 ≤ e.2.order then (e.2.order, e.1) else a) (0, 0)).2

/-- Enter a message at its sender: it takes the next MSG_SEQ and waits for its first packet. A flow record that its flow has, it holds
too (R368). -/
def enter (m : TxMsg) (s : State) : State :=
  let seq := nextSeqNo s.tp.seq
  let prev := if m.op = 1 ∨ m.op = 2 then flowLast s m.shelf m.dest m.flow else 0
  { s with tp := { s.tp with
    seq := seq, order := s.tp.order + 1
    tx := tput s.tp.tx seq { m with
      prev := prev, order := s.tp.order + 1, timer := s.clk
      flowRec := (m.op == 1 || m.op == 2) && s.tp.tx.any (fun e => e.2.flowRec && e.2.ofFlow m.shelf m.dest m.flow) } } }

/-- The fields of a message that its destination entry binds (R376). -/
def TxMsg.toDest (m : TxMsg) (i : Nat) (d : Dest) : TxMsg :=
  { m with dest := i, node := d.node, addr := d.addr, paths := d.paths, chan := d.chan, alt := d.alt, tshelf := d.tshelf }

/-- Flight entries of shelf k in use at a stop (0: channels 0-31; 1: channels 32-63) (R368). [log 139 DEDUCED] -/
def flightUsed (s : State) (k stop : Nat) : Nat :=
  (s.tp.tx.filter (fun e => e.2.shelf == k && e.2.chan / 32 == stop)).length +
  (s.tp.rx.filter (fun e => e.2.tshelf == k && e.2.cause / 32 == stop)).length

/-- The flight slice of shelf k at a stop (R443). [log 139 DEDUCED] -/
def flightSlice (h : Shelf) (stop : Nat) : Nat :=
  match h.desc with | none => 0 | some d => (if stop = 0 then d.flightA else d.flightB) * 64

end Sys2Proof.Machine
end

