-- ==== Sys2Proof/Machine/Events.lean ====
section
/-!
DEFINITION. Windows, bins, notify words and events as the target keeps them (R377-R389), and transport sealing
(R390, R391).
-/
namespace Sys2Proof.Machine

def rWinCmd : Nat := 0x1908
def rWinInfo : Nat := 0x1910
def rBinCmd : Nat := 0x1918
def rEvtCfg : Nat := 0x1920
def rNotifyCfg : Nat := 0x1930
def rUnexCfg : Nat := 0x1938
def rUnexStatus : Nat := 0x1940
def rBuddyKey : Nat := 0x1950

/-- LOG2_N of EVT_CFG resets to 6. -/
def evtCfgReset : Word := 0x18
def Shelf.evtCfg (h : Shelf) : Word := h.reg rEvtCfg evtCfgReset

/-- Change the remote-access state of shelf k. -/
def State.onRemote (s : State) (k : Nat) (f : Remote → Remote) : State := s.onShelf k (fun h => { h with remote := f h.remote })

/-! ### Windows and bins -/

/-- The key of window or bin i of shelf k. [log 147 DEDUCED] -/
def slotKey (k i : Nat) : Nat := k * 65536 + i

/-- Windows and bins granted to a shelf (R398 RMA_SLICE). [log 147 DEDUCED] -/
def winSlice (h : Shelf) : Nat := match h.desc with | none => 0 | some d => d.win256 * 256
/-- The bins granted to a shelf (R398 RMA_SLICE). [log 147 DEDUCED] -/
def binSlice (h : Shelf) : Nat := match h.desc with | none => 0 | some d => d.bin256 * 256

def State.win (s : State) (w : Nat) : Window := tget {} s.windows w
def State.onWin (s : State) (w : Nat) (f : Window → Window) : State := { s with windows := tput s.windows w (f (s.win w)) }
def State.bin (s : State) (b : Nat) : Bin := tget {} s.bins b
def State.onBin (s : State) (b : Nat) (f : Bin → Bin) : State := { s with bins := tput s.bins b (f (s.bin b)) }

/-- GEN of a window: drawn at power-on and cold starts, and raised by revocations (R379). [log 146 DESIGN CHOICE] -/
def State.gen (s : State) (w : Nat) : Nat := tget ((Config.freeValue (s.genBase + w)).toNat % 2 ^ 32) s.gens w

/-- ATTR bits of a window (R378). -/
def Window.canWrite (w : Window) : Bool := nbit w.attr 0
def Window.canRead (w : Window) : Bool := nbit w.attr 1
def Window.sealedOnly (w : Window) : Bool := nbit w.attr 2
def Window.notifyEn (w : Window) : Bool := nbit w.attr 3
def Window.eventEn (w : Window) : Bool := nbit w.attr 4

/-! ### Notify words (R388) -/

/-- Add 1 to notify word n of shelf k, while notify words are in use. [log 156 DESIGN CHOICE] -/
def notifyWord (k n v : Nat) (s : State) : State :=
  let c := (s.shelf k).reg rNotifyCfg
  if bit c 0 then
    let a := bits c 47 11 * 2048 + n * 8
    if vstat s k a 8 = .ok then vwrite s k a (toLe 8 (leNat (vread s k a 8) + v)) else noteRead k a 8 s
  else s

/-! ### The event ring (R389) -/

/-- Events not yet consumed. -/
def evtUsed (h : Shelf) : Nat := (h.remote.evtHead + 65536 - h.remote.evtTail) % 65536

/-- Entries of the ring. -/
def evtSize (h : Shelf) : Nat := 2 ^ bits h.evtCfg 5 2

/-- An event can be written now, or none needs to be. -/
def evtRoom (s : State) (k : Nat) : Bool :=
  let h := s.shelf k
  !bit h.evtCfg 0 || evtUsed h != evtSize h

/-- An event entry. -/
def evtEntry (typ : Nat) (st : Status) (sshelf snode index tag len gen time : Nat) : Bytes :=
  toLe 1 typ ++ toLe 1 st.code ++ toLe 1 sshelf ++ zeros 1 ++ toLe 2 snode ++ toLe 2 index ++ toLe 8 tag ++ toLe 4 len ++ toLe 4 gen ++ toLe 8 time

/-- Write one entry at HEAD. -/
def putEvent (k : Nat) (e : Bytes) (s : State) : State :=
  let h := s.shelf k
  let s := vwrite s k (bits h.evtCfg 47 12 * 4096 + h.remote.evtHead % evtSize h * 32) e
  let s := s.onRemote k (fun r => { r with evtHead := (r.evtHead + 1) % 65536 })
  if bit h.evtCfg 1 then signalShelf k 3 s else s

/-- Write an event; while the ring is full it waits for space. [log 153 DEDUCED] -/
def writeEvent (k : Nat) (e : Bytes) (s : State) : State :=
  if bit (s.shelf k).evtCfg 0 then
    if evtRoom s k && (s.shelf k).remote.evtQueue.isEmpty then putEvent k e s
    else s.onRemote k (fun r => { r with evtQueue := r.evtQueue ++ [e] })
  else s

/-- Write waiting events, as far as there is space. [log 153 DEDUCED] -/
def flushEvents : Nat → Nat → State → State
  | 0, _, s => s
  | n + 1, k, s =>
    match (s.shelf k).remote.evtQueue with
    | [] => s
    | e :: r => if evtRoom s k then flushEvents n k (putEvent k e (s.onRemote k (fun x => { x with evtQueue := r }))) else s

/-! ### A window becomes FREE (R383) -/

/-- A DRAINING window with nothing in flight becomes FREE with a REVOKED event, once the event has space. [log 153 DEDUCED] -/
def tryFree (w : Nat) (s : State) : State :=
  let x := s.win w
  let k := w / 65536
  match x.state with
  | .draining =>
    if x.inflight = 0 && evtRoom s k then
      writeEvent k (evtEntry 3 .ok 0 0 (w % 65536) 0 0 (s.gen w) s.epoch) { s with windows := tdel s.windows w }
    else s
  | .free => s | .open_ => s

/-- One message of a window leaves its in-flight count. -/
def leaveWindow (w : Nat) (s : State) : State := tryFree w (s.onWin w (fun x => { x with inflight := x.inflight - 1 }))

/-! ### Sealing (R390, R391) -/

/-- The use of the rack-group key. -/
def rackUse (k : Nat) : KeyUse := { usages := [uEncrypt, uDecrypt], kinds := [1], master := .intakeDma, shelf := some k }

/-- TP_SEAL.SLOT and EN. -/
def State.rackSlot (s : State) : Nat := bits s.tpSeal 7 0
def State.rackEn (s : State) : Bool := bit s.tpSeal 8

/-- TP_SEAL.SESSION. -/
def State.session (s : State) : Nat := s.startCount % 65536

/-- The nonce of a sealed message. -/
def tpNonce (node session seq op requester : Nat) : Bytes :=
  toBe 2 node ++ toBe 2 session ++ toBe 4 seq ++ toBe 1 op ++ zeros 1 ++ toBe 2 requester

/-- Its additional authenticated data. -/
def tpAad (index tshelf sshelf len keyOrOff : Nat) : Bytes :=
  toBe 2 index ++ toBe 1 tshelf ++ toBe 1 sshelf ++ toBe 4 len ++ toBe 8 keyOrOff

/-- The keys of the rack-group slot that may verify: the current half, then the other (R391). -/
def rackKeys (s : State) (k : Nat) : List Bytes :=
  let x := s.slot s.rackSlot
  ([x.cur, x.prev].filterMap id |>.filter (halfOk s (rackUse k))).map (·.key)

/-- Open a sealed message with either half. -/
def rackOpen (s : State) (k : Nat) (nonce aad c tag : Bytes) : Option Bytes :=
  (rackKeys s k).findSome? (fun key => gcmOpen key nonce aad c tag)

end Sys2Proof.Machine
end

