-- ==== Sys2Proof/Machine/Float32.lean ====
section
/-!
DEFINITION. FP32 arithmetic of the optimiser (R280, R281): IEEE 754 binary32, every operation rounded
once to nearest, ties to even, subnormals kept. A value is the number that its 32 bits spell.
-/
namespace Sys2Proof.Machine.F32

def neg? (x : Nat) : Bool := nbit x 31
def expo (x : Nat) : Nat := nbits x 30 23
def frac (x : Nat) : Nat := nbits x 22 0
def isNan (x : Nat) : Bool := expo x == 255 && frac x != 0
def isInf (x : Nat) : Bool := expo x == 255 && frac x == 0
def finite (x : Nat) : Bool := expo x != 255

def inf : Nat := 0x7F80_0000

/-- A sign and a magnitude. -/
def signed (s : Bool) (m : Nat) : Nat := if s then 2 ^ 31 + m else m

/-- A NaN result: quiet, its sign and payload open. [log 98 DESIGN CHOICE] -/
def nan (a b : Nat) : Nat := (Config.nanOf a b ||| 0x7FC0_0000#32).toNat

/-- The magnitude of a finite value in units of 2^-149. -/
def units (x : Nat) : Nat := if expo x = 0 then frac x else (frac x + 2 ^ 23) * 2 ^ (expo x - 1)

/-- A finite value in units of 2^-149. -/
def toInt (x : Nat) : Int := if neg? x then -(units x : Int) else units x

/-- num / den rounded to an integer, ties to even. -/
def nearestDiv (num den : Nat) : Nat :=
  let q := num / den
  let r := num % den
  if den < 2 * r ∨ (2 * r = den ∧ q % 2 = 1) then q + 1 else q

/-- The magnitude num / den, in units of 2^-149, rounded to FP32; beyond the range it is infinity. -/
def roundMag (num den : Nat) : Nat :=
  let e := num.log2 - den.log2
  let e := if num < den * 2 ^ e then e - 1 else e
  let k := e - 23
  min (k * 2 ^ 23 + nearestDiv num (den * 2 ^ k)) inf

def add (a b : Nat) : Nat :=
  if isNan a || isNan b || (isInf a && isInf b && neg? a != neg? b) then nan a b
  else if isInf a then a
  else if isInf b then b
  else
    let t := toInt a + toInt b
    if t = 0 then signed (neg? a && neg? b) 0
    else signed (decide (t < 0)) (roundMag t.natAbs 1)

/-- The negative of a value. -/
def neg (a : Nat) : Nat := signed (!neg? a) (a % 2 ^ 31)

def sub (a b : Nat) : Nat := if isNan b then nan a b else add a (neg b)

def mul (a b : Nat) : Nat :=
  let s := neg? a != neg? b
  if isNan a || isNan b || (isInf a && b % 2 ^ 31 == 0) || (isInf b && a % 2 ^ 31 == 0) then nan a b
  else if isInf a || isInf b then signed s inf
  else signed s (roundMag (units a * units b) (2 ^ 149))

def div (a b : Nat) : Nat :=
  let s := neg? a != neg? b
  if isNan a || isNan b || (isInf a && isInf b) || (a % 2 ^ 31 == 0 && b % 2 ^ 31 == 0) then nan a b
  else if isInf a || b % 2 ^ 31 == 0 then signed s inf
  else if isInf b then signed s 0
  else signed s (roundMag (units a * 2 ^ 149) (units b))

/-- The integer square root, by its bits from n - 1 down. -/
def isqrt (v : Nat) : Nat → Nat → Nat
  | 0, r => r
  | n + 1, r => isqrt v n (if (r + 2 ^ n) * (r + 2 ^ n) ≤ v then r + 2 ^ n else r)

/-- The square root of x units is the square root of x × 2^149, in units; it is taken with 30 more bits and
a sticky bit, so that one rounding is exact. -/
def sqrt (a : Nat) : Nat :=
  if isNan a then nan a 0
  else if a % 2 ^ 31 = 0 then a
  else if neg? a then nan a 0
  else if isInf a then a
  else
    let v := units a * 2 ^ 209
    let r := isqrt v 256 0
    roundMag (2 * r + b2n (decide (r * r < v))) (2 ^ 31)

/-- sign(x): 0 for zero, a NaN for a NaN (R281). -/
def sign (a : Nat) : Nat :=
  if isNan a then nan a 0 else if a % 2 ^ 31 = 0 then 0 else signed (neg? a) 0x3F80_0000

/-- The rational n × 2^e / d, rounded once (R280). -/
def ofRat (n : Int) (e : Int) (d : Nat) : Nat :=
  let k := e + 149
  signed (decide (n < 0)) (if 0 ≤ k then roundMag (n.natAbs * 2 ^ k.toNat) d else roundMag n.natAbs (d * 2 ^ (-k).toNat))

/-- 1 - x. -/
def oneMinus (a : Nat) : Nat := sub 0x3F80_0000 a

end Sys2Proof.Machine.F32
end

