-- ==== Sys2Proof/Machine/Descriptor.lean ====
section
/-!
DEFINITION. Operand fields of command descriptors (R299, R331, R334, R336) and the memory that an accepted command writes (R316).
-/
namespace Sys2Proof.Machine

/-! ### Vector images (R299, R334) -/

/-- The vector image V0 of a descriptor. -/
def v0 (d : Bytes) : VDesc := imgParse (slice d 0x20 0x20)

/-- ROWS 0 is read as 1. -/
def VDesc.rowsN (v : VDesc) : Nat := max 1 v.rows.toNat

/-- Bytes of one block of a source type. -/
def blockBytes (etype len : Nat) : Nat := if etype = 0x0B then (len + 7) / 8 else len * srcBytes etype

/-- The blocks of an image as (address, bytes). [log 39 DEDUCED] -/
def VDesc.blocks (v : VDesc) : List (Nat × Nat) :=
  (List.range v.rowsN).map (fun b =>
    (wrap 48 ((v.base.toNat : Int) + Int.ofNat b * sext 32 v.stride.toNat), blockBytes v.etype.toNat v.len.toNat))

/-! ### Operand blocks F and L (R336) -/

def fOpf (d : Bytes) : Nat := field d 9 1
def fCount (d : Bytes) : Nat := field d 0x10 4
def fWide (d : Bytes) : Nat := field d 0x18 8
def lFirst (d : Bytes) : Nat := field d 9 1
def lCount (d : Bytes) : Nat := field d 0xA 1
def lPolys (d : Bytes) : Nat := field d 0xB 1
def lSrc (d : Bytes) : Nat := field d 0x10 8
def lSrc2 (d : Bytes) : Nat := field d 0x18 8
def lDst (d : Bytes) : Nat := field d 0x20 8

/-- Bytes of a residue operand: POLYS × COUNT blocks of N residues. -/
def resLen (p : PSet) (d : Bytes) : Nat := lPolys d * lCount d * p.n * 8

/-- Bytes of SCR at a level (R234). -/
def scrLen (p : PSet) (level : Nat) : Nat := 16 * (level + p.special) * p.n

/-! ### What a command writes -/

/-- The memory open to loads that a command in flight writes, as ranges of shelf-relative addresses: drains, keystream and digests,
lattice operands and reads from other nodes. [log 120 DEDUCED] -/
def cmdWrites (h : Shelf) (c : InFlight) : List (Nat × Nat) :=
  let d := c.desc
  let set := (h.kset (field d 8 1)).bind (fun x => h.pset x.pset)
  match c.kind with
  | 0x05 => if nbit (fOpf d) 2 then [] else [(fWide d, fCount d * (if nbit (fOpf d) 4 then 8 else 16))]
  | 0x06 => [(fWide d, fCount d * 16)]
  | 0x18 => [(field d 0x18 8, field d 0x10 8)]
  | 0x19 => [(field d 0x18 8, field d 0x10 8)]
  | 0x1A => [(field d 0x18 8, 32)]
  | 0x20 => (match h.pset (field d 8 1) with | none => [] | some p => [(lDst d, resLen p d)])
  | 0x21 => (match h.pset (field d 8 1) with | none => [] | some p => [(lDst d, resLen p d)])
  | 0x22 => (match h.pset (field d 8 1) with | none => [] | some p => [(lDst d, resLen p d)])
  | 0x23 => (match set with | none => [] | some p => [(lDst d, p.obj), (lSrc2 d, scrLen p p.limbs)])
  | 0x25 => (match set with | none => [] | some p => if lDst d = 0 then [] else [(lDst d, p.obj)])
  | 0x26 => let x := tget {} h.lat.slots (field d 0xD 1); if x.dst = 0 then [] else [(x.dst, x.outLen)]
  | 0x31 => (v0 d).blocks
  | _ => []

/-- A command whose writes are under way or done and not yet counted; one that was refused writes nothing. -/
def InFlight.writes (c : InFlight) : Bool :=
  match c.result with
  | none => true
  | some st => st == .ok || st == .provisional || st == .poisoned || st == .uncorrectable

/-- The ranges that the commands in flight of a shelf write (R316). [log 120 DEDUCED] -/
def inProgress (s : State) (k : Nat) : List (Nat × Nat) :=
  (s.shelf k).seqs.flatMap (fun q => (List.range 12).flatMap (fun n => ((s.queue q n).inflight.filter InFlight.writes).flatMap (cmdWrites (s.shelf k))))

end Sys2Proof.Machine
end

