-- ==== Sys2Proof/Machine/SealArea.lean ====
section
/-!
DEFINITION. The sum area of a sealed round (R242, R243) and the checks of partials' digests that wait for
it (R246, R247).
-/
namespace Sys2Proof.Machine

/-- Change the sealed-round state of shelf k. -/
def State.onSeal (s : State) (k : Nat) (f : SealSt → SealSt) : State := s.onShelf k (fun h => { h with sealSt := f h.sealSt })

/-- Whether n bytes at payload offset off lie in the body of one object, at a multiple of `al` from its
start: the body's object, and the offset in the body. -/
def inBody (p : PSet) (off n al : Nat) : Option (Nat × Nat) :=
  let o := off / p.obj
  let x := off % p.obj
  if o < p.cts ∧ 64 ≤ x ∧ x + n ≤ p.obj ∧ (x - 64) % al = 0 then some (o, x - 64) else none

/-- The conditions of R242 on a FOLD.P into an ADDRNS Cask in a sealed round. -/
def sealedFoldOk (h : Shelf) (c : Cask) (mods : Tab Word) (off coff count : Nat) : Bool :=
  match h.roundSet with
  | none => false
  | some p =>
    let n := p.n
    match inBody p off (8 * count) (8 * n) with
    | none => false
    | some (_, x) =>
      c.limbShift == p.log2n && coff % n == 0 && count % n == 0 &&
      (List.range (count / n)).all (fun i => c.modulus mods (coff + i * n) == p.prime ((x / (8 * n) + i) % p.limbs))

/-! ### Drains into the sum area (R243) -/

/-- A drain with OUT64 of an ADDRNS Cask may go to n bytes at a: in UNMASK of a sealed round, inside one
object's body of the sum area, over residues not yet drained. [log 78 DEDUCED] -/
def sumDrainOk (h : Shelf) (c : Cask) (a n : Nat) : Bool :=
  match h.roundSet with
  | none => false
  | some p =>
    let s := h.sumArea p
    h.sealedRound && h.round.phase == .unmask && h.round.begun && c.op == opAddRns && within a n s.1 s.2 &&
    (inBody p (a - s.1) n 8).isSome && h.sealSt.drained.all (fun r => !overlap (a - s.1) n r.1 r.2)

/-- Whether a drain's destination meets the sum area. -/
def hitsSum (h : Shelf) (a n : Nat) : Bool :=
  h.sealedRound && overlap a n h.round.sum.1 h.round.sum.2

/-! ### Partials (R246, R247) -/

/-- The members of the combination set, once this member's own partial is complete and THRESHOLD − 1
peers have passed. [log 84 DEDUCED] -/
def combSet (h : Shelf) : Option (List Nat) :=
  let t := h.round.desc.threshold
  if h.sealSt.pdecDone ∧ t ≤ h.sealSt.passed.length + 1 then some (h.round.desc.groupIndex :: h.sealSt.passed.take (t - 1)) else none

/-- Fix the combination set when it is complete. [log 84 DEDUCED] -/
def fixSet (k : Nat) (s : State) : State :=
  match combSet (s.shelf k) with
  | none => s
  | some l => s.onSeal k (fun x => if x.set_.isEmpty then { x with set_ := l } else x)

/-- The digest check on the partial that holder j's slot holds (R246): it passes, or is discarded and
counted; one that cannot be read ends the round FAULTED (R78). [log 83 DESIGN CHOICE] -/
def checkDigests (k j : Nat) (s : State) : State :=
  let h := s.shelf k
  match h.roundSet with
  | none => s
  | some p =>
    let st := vstat s k (h.partSlot p j) 128
    let b := vread s k (h.partSlot p j) 128
    if st ≠ .ok then endRound k .faulted st (noteRead k (h.partSlot p j) 128 s)
    else if slice b 8 32 == h.round.ownDigest && slice b 0x28 32 == h.sealSt.sumDigest then
      fixSet k (s.onSeal k (fun x => { x with passed := x.passed ++ [j] }))
    else
      (s.onSeal k (fun x => { x with stored := x.stored.filter (· != j) })).onRound k (fun r => { r with divergent := sat 32 1 r.divergent })

/-- Note a drain into the sum area; when every residue has been drained the digest is formed, and the
partials that wait are checked (R243, R246). [log 78 DEDUCED] -/
def noteDrain (k a n : Nat) (s : State) : State :=
  let h := s.shelf k
  match h.roundSet with
  | none => s
  | some p =>
    let sum := h.sumArea p
    let l := h.sealSt.drained ++ [(a - sum.1, n)]
    let s := s.onSeal k (fun x => { x with drained := l })
    if (l.map (·.2)).sum = p.cts * (p.obj - 64) then
      let wait := h.sealSt.waiting
      let st := vstat s k sum.1 sum.2
      if st ≠ .ok then endRound k .faulted st (noteRead k sum.1 sum.2 s)
      else
        let s := s.onSeal k (fun x => { x with sumReady := true, waiting := [], sumDigest := sha3 (vread s k sum.1 sum.2) })
        wait.foldl (fun s j => checkDigests k j s) s
    else s

end Sys2Proof.Machine
end

