-- ==== Sys2Proof/Machine/Fold.lean ====
section
/-!
DEFINITION. The fold unit (04_folding.md): enabling and disabling Casks (R115), fold sources (R124,
R334), FOLD.A and FOLD.O (R124-R126, R129), spills (R130-R132), drains (R134-R138), the hold station
(R128) and CASK_KEG.SEL (R139).
-/
namespace Sys2Proof.Machine

/-! ### Rows -/

/-- The rows that elements first to first + n − 1 touch. -/
def Cask.rowsOf (c : Cask) (first n : Nat) : List Nat :=
  if n = 0 then [] else (List.range (c.rowOf (first + n - 1) + 1 - c.rowOf first)).map (fun i => c.rowOf first + i)

/-- Whether row r lies wholly in elements first to first + n − 1. -/
def Cask.rowWhole (c : Cask) (r first n : Nat) : Bool :=
  decide (first ≤ r * rowElems c.op) && decide (min ((r + 1) * rowElems c.op) c.len ≤ first + n)

/-- Add rows to a rising list of rows. -/
def addRows (l rows : List Nat) : List Nat := rows.foldl (fun l r => insSet r l) l

/-- The Cask word of element e; an element that no fold has reached reads as the identity (R118). -/
def Cask.word (c : Cask) (e : Nat) : Nat := tget c.ident c.words e

/-- Element e of tile t of the Keg. -/
def Cask.kegWord (c : Cask) (t e : Nat) : Nat := tget c.kegIdent c.kegs (t * c.len + e)

/-- The 512-byte Keg row of element e of tile t. -/
def Cask.kegRowOf (c : Cask) (t e : Nat) : Nat := (t * c.len + e) / 32

/-- The combined value of element e, in Keg form (R134). -/
def Cask.combined (c : Cask) (mods : Tab Word) (e : Nat) : Nat := c.kegCombine mods e (c.kegWord c.sel e) (c.word e)

/-- Whether element e lies in a poisoned Cask or Keg row (R138). -/
def Cask.elemBad (c : Cask) (e : Nat) : Bool := c.bad.contains (c.rowOf e) || c.kegBad.contains (c.kegRowOf c.sel e)

/-- Whether an element of first to first + n − 1 lies in a poisoned row: of the Cask rows touched,
or of the Keg rows. -/
def Cask.rangeBad (c : Cask) (first n : Nat) : Bool :=
  c.bad.any (fun r => (c.rowsOf first n).contains r) ||
  c.kegBad.any (fun r => decide (c.kegRowOf c.sel first ≤ r) && decide (r ≤ c.kegRowOf c.sel (first + n - 1)))

/-! ### Folding elements (R118, R122, R129) -/

/-- A 48-bit event counter counts n more, or n fewer when a retraction derives the same terms again;
at its greatest value it stays (R122). -/
def evCount (undo : Bool) (v n : Nat) : Nat := if undo then (if v = 2 ^ 48 - 1 then v else v - n) else Machine.sat 48 n v

/-- Count the events of a term. -/
def Cask.count (c : Cask) (undo : Bool) (t : Term) : Cask :=
  { c with inexact := evCount undo c.inexact t.inexact, sat := evCount undo c.sat t.sat, nan := evCount undo c.nan t.nan }

/-- Fold one source element into element e: `over` overwrites. -/
def Cask.foldElem (c : Cask) (mods : Tab Word) (etype : Nat) (scale : Int) (neg undo repl : Bool) (e raw : Nat) : Cask :=
  let t := c.term mods e etype raw scale
  let c := c.count undo t
  let t := if neg then c.negTerm t else t
  { c with words := tput c.words e (if repl then c.termWord mods e t.val else c.combine mods e (c.word e) t.val) }

/-- Fold source elements into elements first, first + 1, …. -/
def Cask.foldElems (c : Cask) (mods : Tab Word) (etype : Nat) (scale : Int) (neg undo repl : Bool) : Nat → List Nat → Cask
  | _, [] => c
  | e, raw :: r => (c.foldElem mods etype scale neg undo repl e raw).foldElems mods etype scale neg undo repl (e + 1) r

/-- A whole fold: the rows it touches hold data afterwards (R129). -/
def Cask.foldRange (c : Cask) (mods : Tab Word) (etype : Nat) (scale : Int) (neg undo repl : Bool) (first : Nat) (raws : List Nat) : Cask :=
  let c := c.foldElems mods etype scale neg undo repl first raws
  { c with live := addRows c.live (c.rowsOf first raws.length) }

/-! ### Spill (R130-R132) -/

/-- Combine elements of the rows that p selects into tile SEL. -/
def Cask.spillWords (c : Cask) (mods : Tab Word) (p : Nat → Bool) : Tab Nat :=
  c.words.foldl (fun k e =>
    if p (c.rowOf e.1) then tput k (c.sel * c.len + e.1) (c.kegCombine mods e.1 (tget c.kegIdent k (c.sel * c.len + e.1)) e.2) else k) c.kegs

/-- The Keg rows that the elements of Cask row r combine into. -/
def Cask.kegRowsOf (c : Cask) (r : Nat) : List Nat :=
  let first := r * rowElems c.op
  let last := min ((r + 1) * rowElems c.op) c.len - 1
  (List.range (c.kegRowOf c.sel last + 1 - c.kegRowOf c.sel first)).map (fun i => c.kegRowOf c.sel first + i)

/-- The stored words of the rows that p selects, kept when they become fresh (R142). -/
def Cask.keepOld (c : Cask) (p : Nat → Bool) : Tab Nat :=
  (List.range (c.rows * rowElems c.op)).foldl (fun t e => if p (c.rowOf e) && c.live.contains (c.rowOf e) then tput t e (c.word e) else t) c.old

/-- Move the non-fresh rows that p selects into the Keg: they become fresh and unpoisoned, and a
poisoned row poisons the Keg rows it reaches (R126, R131). [log 33 DEDUCED, 34 DEDUCED] -/
def Cask.spillRows (c : Cask) (mods : Tab Word) (p : Nat → Bool) : Cask :=
  let hit (r : Nat) : Bool := p r && c.live.contains r
  { c with
    kegs := c.spillWords mods hit
    kegBad := (c.bad.filter hit).foldl (fun l r => addRows l (c.kegRowsOf r)) c.kegBad
    words := c.words.filter (fun e => !hit (c.rowOf e.1))
    old := c.keepOld hit
    live := c.live.filter (fun r => !p r)
    bad := c.bad.filter (fun r => !hit r)
    kegInit := false }

/-- A spill of the whole Cask: FOLDS 0 and SPILLS + 1. It waits for Keg initialisation (R115). -/
def Cask.spill (c : Cask) (mods : Tab Word) : Cask :=
  { c.spillRows mods (fun _ => true) with folds := 0, spills := Machine.sat 32 1 c.spills }

/-- Count one accepted fold in FOLDS, and spill when it reaches the interval (R130, R131). -/
def Cask.countFold (c : Cask) (mods : Tab Word) : Cask :=
  let c := { c with folds := min (c.folds + 1) (2 ^ 62 - 1) }
  if opSpills c.op && decide (2 ^ c.log2Interval ≤ c.folds) then c.spill mods else c

/-! ### Errors in stored rows (R126, R138, R140) -/

/-- The fold unit reads the 64 bytes at device address a of row r of a Cask: FOLD_ECC counts what it meets, a corrected error is written
back, and one beyond correction poisons the row. [log 36 DEDUCED] -/
def readCaskLine (b ci r a : Nat) (s : State) : State :=
  let poison (s : State) : State := s.onCask b ci (fun c => { c with bad := insSet r c.bad })
  match markOf s a with
  | none => s
  | some .corrected => (unmark (a / 64) s).onBay b (fun y => { y with eccCorr := sat 32 1 y.eccCorr })
  | some .uncorrectable => poison ((unmark (a / 64) s).onBay b (fun y => { y with eccUncorr := sat 16 1 y.eccUncorr }))
  | some .poisoned => poison (unmark (a / 64) s)

/-- Rows of a Cask are read. A fresh row is written without its stored words (R129). [log 36 DEDUCED] -/
def readCask (b ci : Nat) (rows : List Nat) (s : State) : State :=
  let c := s.cask b ci
  let at_ (r i : Nat) : Nat := storeAddr b (c.areaAt.1 + 256 * r + 64 * i)
  rows.foldl (fun s r => [0, 1, 2, 3].foldl (fun s i => if c.live.contains r then readCaskLine b ci r (at_ r i) s else unmark (at_ r i / 64) s) s) s

/-- The fold unit reads the 64 bytes at device address a of Keg row r: one beyond correction poisons the Keg row (R138). [log 36 DEDUCED] -/
def readKegLine (b ci r a : Nat) (s : State) : State :=
  let poison (s : State) : State := s.onCask b ci (fun c => { c with kegBad := insSet r c.kegBad })
  match markOf s a with
  | none => s
  | some .corrected => noteCorrected a s
  | some .uncorrectable => poison (unmark (a / 64) (noteBad a s))
  | some .poisoned => poison (unmark (a / 64) s)

/-- Rows of a Keg are read. [log 36 DEDUCED, 97 DEDUCED] -/
def readKeg (b ci : Nat) (rows : List Nat) (s : State) : State :=
  let c := s.cask b ci
  rows.foldl (fun s r => (List.range 8).foldl (fun s i => readKegLine b ci r (loftAddr b (c.kegAt.1 + 512 * r + 64 * i)) s) s) s

/-- The Keg rows of elements first to first + n − 1 of tile t. -/
def Cask.kegSpan (c : Cask) (t first n : Nat) : List Nat :=
  if n = 0 then [] else (List.range (c.kegRowOf t (first + n - 1) + 1 - c.kegRowOf t first)).map (fun i => c.kegRowOf t first + i)

/-- Rows of a Cask are read to be moved into tile SEL, with the Keg rows that they reach. -/
def readMove (b ci : Nat) (rows : List Nat) (s : State) : State :=
  let c := s.cask b ci
  let l := rows.filter (fun r => c.live.contains r)
  readKeg b ci (l.foldl (fun t r => addRows t (c.kegRowsOf r)) []) (readCask b ci l s)

/-- The next counted fold brings FOLDS to the interval (R131). -/
def Cask.spillsNext (c : Cask) : Bool := opSpills c.op && decide (2 ^ c.log2Interval ≤ min (c.folds + 1) (2 ^ 62 - 1))

/-- A fold into elements first to first + n − 1 reads its rows, and every row where the spill of R131 follows it. -/
def readFold (b ci first n : Nat) (s : State) : State :=
  let s := readCask b ci ((s.cask b ci).rowsOf first n) s
  let c := s.cask b ci
  if c.spillsNext then readKeg b ci ((c.rowsOf first n).foldl (fun t r => addRows t (c.kegRowsOf r)) []) (readMove b ci c.live s) else s

/-! ### Sources (R124, R334) -/

/-- Bits of a BIT block in order (R82). -/
def bitsOf (len : Nat) (b : Bytes) : List Bool := (List.range len).map (fun i => nbit (b.getD (i / 8) 0).toNat (i % 8))

/-- A list cut into n groups of m. -/
def groups {α : Type} (m : Nat) : Nat → List α → List (List α)
  | 0, _ => []
  | n + 1, l => l.take m :: groups m n (l.drop m)

/-- The number whose bit i is the i-th of a list. -/
def bitsNat : List Bool → Nat
  | [] => 0
  | b :: r => b2n b + 2 * bitsNat r

/-- The source elements of `count` Cask elements, from the bytes of the blocks: one number for each
Cask element, for BIT its group of coordinates (R117, R334). -/
def Cask.raws (c : Cask) (etype len count : Nat) (bs : List Bytes) : List Nat :=
  if etype = 0x0B then (groups (c.coords etype) count (bs.flatMap (bitsOf len))).map bitsNat
  else (chunks (srcBytes etype) bs.flatten).map leNat

/-- The blocks of an image lie in open memory of the shelf, aligned to the element size, at least 8
for BIT (R124, R333). -/
def VDesc.blocksOk (s : State) (k : Nat) (v : VDesc) : Bool :=
  let al := if v.etype.toNat = 0x0B then 8 else srcBytes v.etype.toNat
  v.blocks.all (fun b => operandOk s k b.1 b.2 al)

/-- The checks on an image that names a fold source in memory (R124, R125, R334). -/
def memSourceOk (s : State) (k : Nat) (c : Cask) (d : Bytes) (count : Nat) : Bool :=
  let v := v0 d
  imgClean (slice d 0x20 0x20) && !v.rsrc && v.off == 0 && v.ring == 0 &&
  c.accepts v.etype.toNat && decide (v.len.toNat * v.rowsN = count * c.coords v.etype.toNat) && v.blocksOk s k

/-- The status of reading the blocks. -/
def blocksStat (s : State) (k : Nat) (l : List (Nat × Nat)) : Status :=
  ((l.map (fun b => vstat s k b.1 b.2)).find? (fun st => !(st == .ok))).getD .ok

/-- The bytes of the blocks. -/
def blocksRead (s : State) (k : Nat) (l : List (Nat × Nat)) : List Bytes := l.map (fun b => vread s k b.1 b.2)

/-! ### Operands of block F (R336) -/

def fCask (d : Bytes) : Nat := field d 8 1 % 64
def fCoff (d : Bytes) : Nat := field d 0xC 4

/-- The device bay whose fold unit serves sequencer q (R31). -/
def foldBay (q : Nat) : Nat := q / 4

/-- CASK enabled, COUNT at least 1, the range within LEN (R125). -/
def rangeOk (c : Cask) (coff count : Nat) : Bool := c.en && decide (1 ≤ count) && decide (coff + count ≤ c.len)

/-! ### The hold station (R128, R135) -/

/-- The descriptor of a held command: the last one its queue had accepted. -/
def heldDesc (s : State) (h : Held) : Bytes :=
  match (s.queue h.seq h.queue).inflight.getLast? with | none => [] | some c => c.desc

/-- The first and last row of a Cask that a block F command works on; a SPILL works on every row. [log 33 DEDUCED] -/
def rowSpan (c : Cask) (d : Bytes) : Nat × Nat :=
  if dKind d = 0x04 then (0, c.rows - 1) else (c.rowOf (fCoff d), c.rowOf (fCoff d + fCount d - 1))

/-- A command only reads its rows: DRAIN.K, or DRAIN.W without CLEAR. -/
def readsOnly (d : Bytes) : Bool := dKind d == 0x06 || (dKind d == 0x05 && !nbit (fOpf d) 5)

/-- A command must wait for an earlier held command that works on a row of its own; two that only
read do not wait for one another. [log 33 DEDUCED] -/
def conflicts (s : State) (b : Nat) (d : Bytes) (h : Held) : Bool :=
  let e := heldDesc s h
  let c := s.cask b (fCask d)
  let x := rowSpan c d
  let y := rowSpan c e
  fCask e == fCask d && decide (x.1 ≤ y.2) && decide (y.1 ≤ x.2) && !(readsOnly d && readsOnly e)

/-- The pending ledger entries of a Cask range (R159); bi is the shelf's own bay number. -/
def pendingEntries (s : State) (k bi c coff count : Nat) : List LedgerEntry :=
  (s.shelf k).ledger.entries.filter (fun e => e.segs.any (fun g =>
    g.bay == bi && g.cask == c && overlap coff count g.coff g.count &&
    (match e.verdict with | .pending => !e.unreadable || !g.retired | .commit => e.unreadable && !g.retired | .retract => !g.retired)))

/-- Pending entries of the range of a block F command of sequencer q. -/
def pendingOf (s : State) (k q : Nat) (d : Bytes) : List LedgerEntry :=
  pendingEntries s k ((s.shelf k).bayIndex (foldBay q)) (fCask d) (fCoff d) (fCount d)

/-- A command waits: for an earlier held command, or, for DRAIN.W and FOLD.O, for verdicts. [log 33 DEDUCED] -/
def foldWaits (s : State) (k q : Nat) (d : Bytes) (early : List Held) : Bool :=
  early.any (conflicts s (foldBay q) d) ||
  ((dKind d == 0x05 || dKind d == 0x02) && !(pendingOf s k q d).isEmpty)

/-- Whether a command of queue n of sequencer q sits in the hold station. -/
def isHeld (s : State) (q n : Nat) : Bool := (s.bay (foldBay q)).hold.any (fun h => h.seq == q && h.queue == n)

/-- Put the command accepted last from queue n into the hold station. -/
def hold (q n : Nat) (s : State) : State :=
  s.onBay (foldBay q) (fun y => { y with hold := y.hold ++ [{ seq := q, queue := n }] })

/-- The fold unit takes a command: it accepts nothing while the hold station is full or a ledger
retraction waits, and nothing behind a held command of the same queue (R128, R156). `check` refuses at
issue; a command that must wait goes to the hold station; otherwise `run` answers. [log 34 DEDUCED] -/
def foldAccept (kind : Nat) (check : Nat → Bytes → State → Option Status) (run : Nat → Bytes → State → Answer)
    (q n : Nat) (s : State) : State :=
  let y := s.bay (foldBay q)
  if y.retr.isEmpty && decide (y.hold.length < 8) && !isHeld s q n then
    accept kind (fun k d s =>
      match check k d s with
      | some st => done st s
      | none => if foldWaits s k q d (s.bay (foldBay q)).hold then (none, 0, hold q n s) else run k d s) q n s
  else s

/-! ### FOLD.A and FOLD.O (R124-R126) -/

/-- The phases from NOISE to the end of a round: they refuse a peek (R137), and FOLD.A, FOLD.O, SPILL and
DRAIN.W (R270). -/
def latePhase : Phase → Bool
  | .noise => true | .step => true | .seal => true | .release => true
  | .idle => false | .open_ => false | .collect => false | .recover => false | .unmask => false

/-- The shelf's round is in such a phase. -/
def foldShut (h : Shelf) : Bool := h.round.active && latePhase h.round.phase

/-- The refusals of FOLD.A (R125, R148, R270). -/
def foldACheck (q k : Nat) (d : Bytes) (s : State) : Option Status :=
  let c := s.cask (foldBay q) (fCask d)
  let neg := nbit (fOpf d) 0
  if !foldShut (s.shelf k) && rangeOk c (fCoff d) (fCount d) && !(neg && !opInvertible c.op) && memSourceOk s k c d (fCount d) then none
  else some .paramUnsupported

/-- The refusals of FOLD.O (R125, R148, R270). -/
def foldOCheck (q k : Nat) (d : Bytes) (s : State) : Option Status :=
  let c := s.cask (foldBay q) (fCask d)
  if !foldShut (s.shelf k) && rangeOk c (fCoff d) (fCount d) && (nbit (fOpf d) 1 || memSourceOk s k c d (fCount d)) then none
  else some .paramUnsupported

/-- The signed scale exponent of an image. -/
def VDesc.scale (v : VDesc) : Int := sext 8 v.scaleE.toNat

/-- Whether source element i of an image, as `Cask.raws` numbers them, can be read. -/
def sourceOk (s : State) (k : Nat) (c : Cask) (v : VDesc) (i : Nat) : Bool :=
  let sz := srcBytes v.etype.toNat
  let len := v.len.toNat
  let at_ (j off n : Nat) : Bool := match v.blocks[j]? with | none => true | some b => vstat s k (b.1 + off) n == .ok
  if v.etype.toNat = 0x0B then (List.range (c.coords 0x0B)).all (fun x => let g := i * c.coords 0x0B + x; at_ (g / len) (g % len / 8) 1)
  else at_ (i / len) (i % len * sz) sz

/-- The part of elements first to first + n − 1 that lies in row r: its place in them, and its length. -/
def Cask.rowPart (c : Cask) (r first n : Nat) : Nat × Nat :=
  let a := max first (r * rowElems c.op)
  (a - first, min (first + n) ((r + 1) * rowElems c.op) - a)

/-- The rows of a stopped fold that remain changed (R126): those before the first whose source read failed that the second read cannot read
either. `ok1` and `ok2` say which rows the two reads can read. [log 36 DEDUCED] -/
def remain (ok1 ok2 : Nat → Bool) (rows : List Nat) : List Nat := (rows.takeWhile ok1).filter (fun r => !ok2 r)

/-- Rows that a stopped fold leaves changed keep its terms and are poisoned. `raws` are the source elements of a part of the range. [log 36 DEDUCED] -/
def Cask.keepChanged (c : Cask) (mods : Tab Word) (etype : Nat) (scale : Int) (neg : Bool) (first n : Nat) (raws : Nat × Nat → List Nat) (rows : List Nat) : Cask :=
  rows.foldl (fun c r =>
    let p := c.rowPart r first n
    let c := c.foldRange mods etype scale neg false false (first + p.1) (raws p)
    { c with bad := insSet r c.bad }) c

/-- A failed source read poisons every row of the range (R126). -/
def Cask.poisonRange (c : Cask) (first n : Nat) : Cask :=
  { c with bad := addRows c.bad (c.rowsOf first n), live := addRows c.live (c.rowsOf first n) }

/-- FOLD.A runs: a failed read leaves an invertible Cask as it was, but for rows that a second read cannot take back (R126). [log 36 DEDUCED] -/
def foldARun (q k : Nat) (d : Bytes) (s : State) : Answer :=
  let b := foldBay q
  let c := s.cask b (fCask d)
  let mods := (s.bay b).mods
  let v := v0 d
  let st := blocksStat s k v.blocks
  let raws := c.raws v.etype.toNat v.len.toNat (fCount d) (blocksRead s k v.blocks)
  let ok (s : State) (r : Nat) : Bool := let p := c.rowPart r (fCoff d) (fCount d); (List.range p.2).all (fun i => sourceOk s k c v (p.1 + i))
  let ok1 := ok s
  let s := readFold b (fCask d) (fCoff d) (fCount d) (noteBlocks k v.blocks s)
  if st = .ok then
    done .ok (s.onCask b (fCask d) (fun c =>
      (c.foldRange mods v.etype.toNat v.scale (nbit (fOpf d) 0) false false (fCoff d) raws).countFold mods))
  else if opInvertible c.op then
    let rows := remain ok1 (ok s) (c.rowsOf (fCoff d) (fCount d))
    done st (s.onCask b (fCask d) (fun c =>
      (c.keepChanged mods v.etype.toNat v.scale (nbit (fOpf d) 0) (fCoff d) (fCount d) (fun p => (raws.drop p.1).take p.2) rows).countFold mods))
  else done st (s.onCask b (fCask d) (fun c => (c.poisonRange (fCoff d) (fCount d)).countFold mods))

/-- Overwrite the range with the identity (ZERO). -/
def Cask.zeroRange (c : Cask) (first n : Nat) : Cask :=
  { c with
    words := (List.range n).foldl (fun w i => tput w (first + i) c.ident) c.words
    live := addRows c.live (c.rowsOf first n) }

/-- A FOLD.O that covers every element of a row clears its poison (R126). -/
def Cask.clearWhole (c : Cask) (first n : Nat) : Cask := { c with bad := c.bad.filter (fun r => !c.rowWhole r first n) }

/-- FOLD.O runs (R124, R126). -/
def foldORun (q k : Nat) (d : Bytes) (s : State) : Answer :=
  let b := foldBay q
  let c := s.cask b (fCask d)
  let mods := (s.bay b).mods
  let v := v0 d
  if nbit (fOpf d) 1 then
    done .ok ((readFold b (fCask d) (fCoff d) (fCount d) s).onCask b (fCask d) (fun c => ((c.zeroRange (fCoff d) (fCount d)).clearWhole (fCoff d) (fCount d)).countFold mods))
  else
    let st := blocksStat s k v.blocks
    let s := readFold b (fCask d) (fCoff d) (fCount d) (noteBlocks k v.blocks s)
    if st = .ok then
      let raws := c.raws v.etype.toNat v.len.toNat (fCount d) (blocksRead s k v.blocks)
      done .ok (s.onCask b (fCask d) (fun c =>
        ((c.foldRange mods v.etype.toNat v.scale false false true (fCoff d) raws).clearWhole (fCoff d) (fCount d)).countFold mods))
    else done st (s.onCask b (fCask d) (fun c => (c.poisonRange (fCoff d) (fCount d)).countFold mods))

/-- FOLD_A (R124). -/
def execFoldA (q n : Nat) (s : State) : Out := .next (foldAccept 0x01 (foldACheck q) (foldARun q) q n s)

/-- FOLD_O (R124). -/
def execFoldO (q n : Nat) (s : State) : Out := .next (foldAccept 0x02 (foldOCheck q) (foldORun q) q n s)

/-! ### SPILL (R132) -/

/-- A spill of a whole Cask reads its rows (R131, R132). -/
def spillRun (q : Nat) (d : Bytes) (s : State) : State :=
  let b := foldBay q
  (readMove b (fCask d) (s.cask b (fCask d)).live s).onCask b (fCask d) (fun c => c.spill (s.bay b).mods)

/-- SPILL (R132): the spill of R131 on a Cask of any arithmetic; it waits for no verdict. -/
def execSpill (q n : Nat) (s : State) : Out :=
  .next (foldAccept 0x04
    (fun k d s => if !foldShut (s.shelf k) && (s.cask (foldBay q) (fCask d)).en then none else some .paramUnsupported)
    (fun _ d s => done .ok (spillRun q d s))
    q n s)

/-! ### Drains (R134-R138) -/

/-- A drain to memory reads its range of the Cask and of tile SEL. -/
def readDrain (b ci first n : Nat) (s : State) : State :=
  let c := s.cask b ci
  readKeg b ci (c.kegSpan c.sel first n) (readCask b ci ((c.rowsOf first n).filter (fun r => c.live.contains r)) s)

/-- The Keg forms of a range, with poisoned elements written as the poisoned marker (R138). [log 37 DEDUCED] -/
def writeCombined (s : State) (k b ci : Nat) (first n dst sz : Nat) : State :=
  let c := s.cask b ci
  let mods := (s.bay b).mods
  let s := vwrite s k dst ((List.range n).flatMap (fun i => toLe sz (c.combined mods (first + i))))
  (List.range n).foldl (fun s i => if c.elemBad (first + i) then vpoison s k (dst + i * sz) sz else s) s

/-- CLEAR: every element of the range becomes the identity in the Cask and in tile SEL; a row wholly
within the range is marked fresh instead (R136). [log 33 DEDUCED] -/
def Cask.clearRange (c : Cask) (first n : Nat) : Cask :=
  let inR (e : Nat) : Bool := decide (first ≤ e) && decide (e < first + n)
  { c with
    words := c.words.filter (fun e => !inR e.1)
    old := c.keepOld (fun r => c.rowWhole r first n)
    live := c.live.filter (fun r => !c.rowWhole r first n)
    kegs := c.kegs.filter (fun e => !(decide (c.sel * c.len ≤ e.1) && decide (e.1 < (c.sel + 1) * c.len) && inR (e.1 - c.sel * c.len))) }

/-- The refusals of DRAIN.W (R125, R136, R249). -/
def drainWCheck (q k : Nat) (d : Bytes) (s : State) : Option Status :=
  let c := s.cask (foldBay q) (fCask d)
  let o := fOpf d
  let toKeg := nbit o 2
  let next := nbit o 3
  let out64 := nbit o 4
  let whole := fCoff d == 0 && fCount d == c.len
  let sz := if out64 then 8 else 16
  if foldShut (s.shelf k) || !rangeOk c (fCoff d) (fCount d) then some .paramUnsupported
  else if toKeg && (out64 || nbit o 5 || decide (fWide d ≠ 0) || (next && !whole)) then some .paramUnsupported
  else if toKeg then none
  else if next || fWide d == 0 || c.plain || (out64 && (c.op == opExact || c.op == opAddF128)) then some .paramUnsupported
  else if operandOk s k (fWide d) (fCount d * sz) sz then none
  else if out64 && decide (fWide d % 8 = 0) && sumDrainOk (s.shelf k) c (fWide d) (fCount d * 8) then none
  else some .paramUnsupported

/-- SEL advances, back to 0 after tile TILES_M1. -/
def Cask.nextTile (c : Cask) : Cask :=
  let t := if c.sel < c.tilesM1 then c.sel + 1 else 0
  { c with keg := BitVec.ofNat 64 (c.keg.toNat % 2 ^ 32 + t * 2 ^ 32) }

/-- DRAIN.W runs, once its verdicts are in (R135, R136). [log 34 DEDUCED] -/
def drainWRun (q k : Nat) (d : Bytes) (s : State) : Answer :=
  let b := foldBay q
  let ci := fCask d
  let o := fOpf d
  let s := if nbit o 2 then readMove b ci ((s.cask b ci).rowsOf (fCoff d) (fCount d)) s else readDrain b ci (fCoff d) (fCount d) s
  let c := s.cask b ci
  let mods := (s.bay b).mods
  let st : Status := if c.rangeBad (fCoff d) (fCount d) then .poisoned else .ok
  if nbit o 2 then
    let whole := fCoff d == 0 && fCount d == c.len
    done st (s.onCask b ci (fun c =>
      let c := c.spillRows mods (fun r => (c.rowsOf (fCoff d) (fCount d)).contains r)
      let c := if whole then { c with folds := 0 } else c
      if nbit o 3 then c.nextTile else c))
  else
    let s := writeCombined s k b ci (fCoff d) (fCount d) (fWide d) (if nbit o 4 then 8 else 16)
    let s := if hitsSum (s.shelf k) (fWide d) (fCount d * 8) then noteDrain k (fWide d) (fCount d * 8) s else s
    done st (s.onCask b ci (fun c =>
      let c := { c with kegInit := false }
      if nbit o 5 then c.clearRange (fCoff d) (fCount d) else c))

/-- The refusals of DRAIN.K (R125, R137, R249). -/
def drainKCheck (q k : Nat) (d : Bytes) (s : State) : Option Status :=
  let c := s.cask (foldBay q) (fCask d)
  let h := s.shelf k
  if rangeOk c (fCoff d) (fCount d) && !h.conf && !c.plain && !foldShut h &&
      decide (fWide d % 16 = 0) && within (fWide d) (fCount d * 16) (storeAddr (h.bayIndex (foldBay q)) 0) storeSize &&
      openRange s k (fWide d) (fCount d * 16) then none
  else some .paramUnsupported

/-- DRAIN.K runs; DETAIL carries the number of pending entries (R137). -/
def drainKRun (q k : Nat) (d : Bytes) (s : State) : Answer :=
  let b := foldBay q
  let s := readDrain b (fCask d) (fCoff d) (fCount d) s
  let c := s.cask b (fCask d)
  let pend := (pendingOf s k q d).length
  let st : Status := if c.rangeBad (fCoff d) (fCount d) then .poisoned else if pend = 0 then .ok else .provisional
  let s := writeCombined s k b (fCask d) (fCoff d) (fCount d) (fWide d) 16
  (some st, pend, s.onCask b (fCask d) (fun c => { c with kegInit := false }))

/-- DRAIN_W (R136). -/
def execDrainW (q n : Nat) (s : State) : Out := .next (foldAccept 0x05 (drainWCheck q) (drainWRun q) q n s)

/-- DRAIN_K (R137). -/
def execDrainK (q n : Nat) (s : State) : Out := .next (foldAccept 0x06 (drainKCheck q) (drainKRun q) q n s)

/-! ### Cask descriptors (R115, R139, R141) -/

/-- Ledger entries that name Cask c of device bay b: CASK_STATE.PROVISIONAL (R159). -/
def caskProvisional (s : State) (b c : Nat) : Nat :=
  match shelfOf s b with
  | none => 0
  | some k =>
    let bi := (s.shelf k).bayIndex b
    ((s.shelf k).ledger.entries.filter (fun e => e.segs.any (fun g => g.bay == bi && g.cask == c))).length

/-- CASK_STATE.IDLE (R141). -/
def caskIdle (s : State) (b c : Nat) : Bool :=
  let x := s.cask b c
  !x.kegInit && !x.scrub && !(s.bay b).hold.any (fun h => fCask (heldDesc s h) == c)

/-- The Loft slice bytes that intake rings (R42) and a stream buffer (R228) reserve in a bay. -/
def ringReserves (s : State) (b : Nat) : List (Nat × Nat) :=
  match shelfOf s b with
  | none => []
  | some k =>
    ((s.shelf k).intake.rings.filter (fun e => (s.shelf k).bayOf e.2.bay == some b)).flatMap (fun e => e.2.reserve) ++
    (if (s.shelf k).keysResident then [streamBuf] else [])

/-- Memory windows of shelf k that hold a range (R114, R383): OPEN or DRAINING. -/
def windowRanges (s : State) (k : Nat) : List (Nat × Nat) :=
  (s.windows.filter (fun e => e.1 / 65536 == k && e.2.kind == 1 && (match e.2.state with | .free => false | .open_ => true | .draining => true))).map
    (fun e => (e.2.base, e.2.len))

/-- The checks of R115. [log 41 DESIGN CHOICE] -/
def caskEnableOk (s : State) (b ci : Nat) : Bool :=
  let c := s.cask b ci
  let a := c.areaAt
  let g := c.kegAt
  let others := (s.bay b).casks.filter (fun e => e.1 != ci && e.2.held)
  c.fieldsOk (s.bay b).mods && decide (1 ≤ c.len) &&
  decide (a.1 + a.2 ≤ storeSize) && decide (g.1 + g.2 ≤ sliceSize) &&
  others.all (fun e => !overlap a.1 a.2 e.2.holds.1.1 e.2.holds.1.2 && !overlap g.1 g.2 e.2.holds.2.1 e.2.holds.2.2) &&
  (ringReserves s b).all (fun r => !overlap g.1 g.2 r.1 r.2) &&
  (match shelfOf s b with
   | none => true
   | some k =>
     let bi := (s.shelf k).bayIndex b
     (windowRanges s k).all (fun w => !overlap (storeAddr bi a.1) a.2 w.1 w.2 && !overlap (loftAddr bi g.1) g.2 w.1 w.2)) &&
  !c.scrub

/-- Writing EN 1 (R115): the fields of v are taken with it. The Cask and Keg areas then hold the
identity; KEG_INIT reads 1 until its writing finishes. -/
def caskEnable (b ci : Nat) (v : Word) (s : State) : State :=
  let s1 := s.onCask b ci (fun c => { c with cfg := v &&& 0xFFF_FF3F_FF02 })
  if caskEnableOk s1 b ci then
    let g := (s1.cask b ci).kegAt
    (memZero s1 (loftAddr b g.1) g.2).onCask b ci (fun c => { caskZero c with
      cfg := c.cfg ||| 1, keg := c.keg &&& 0xFF01_FFFF, kegInit := true
      folds := 0, inexact := 0, sat := 0, nan := 0, spills := 0 })
  else s1.onCask b ci (fun c => { c with cfgErr := true })

/-- Writing EN 0 (R115): only while idle and without provisional entries; the areas are then zeroed
while SCRUB reads 1. -/
def caskDisable (b ci : Nat) (s : State) : State :=
  if caskIdle s b ci && caskProvisional s b ci == 0 then
    s.onCask b ci (fun c => { caskZero c with cfg := c.cfg &&& ~~~1, scrub := true, scrubArea := c.areaAt, scrubKeg := c.kegAt })
  else s.onCask b ci (fun c => { c with wrIgnored := true })

/-- A write of CASK_CFG (R115, R141): while EN is 1 only EN is written, and a write that would change only other fields is ignored; while EN
is 0 every field is written. [log 37 DEDUCED] -/
def caskCfgWrite (b ci : Nat) (v : Word) (s : State) : State :=
  let c := s.cask b ci
  if c.en then
    (if !bit v 0 then caskDisable b ci s
     else if v &&& 0xFFF_FF3F_FF03 = c.cfg then s
     else s.onCask b ci (fun c => { c with wrIgnored := true }))
  else if bit v 0 then caskEnable b ci v s
  else s.onCask b ci (fun c => { c with cfg := v &&& 0xFFF_FF3F_FF02 })

/-- CASK_ENABLE (R115): CASK_CFG of Cask ci of device bay b is written with EN 1 while EN is 0. -/
def execCaskEnable (b ci : Nat) (v : Word) (s : State) : Out :=
  .next (if (s.cask b ci).en then s else caskEnable b ci v s)

/-- CASK_DISABLE (R115). [log 42 DEDUCED] -/
def execCaskDisable (b ci : Nat) (s : State) : Out := .next (if (s.cask b ci).en then caskDisable b ci s else s)

/-- KEG_INIT_DONE (R115). -/
def execKegInitDone (b ci : Nat) (s : State) : Out := .next (s.onCask b ci (fun c => { c with kegInit := false }))

/-- CASK_SCRUB_DONE (R115): the areas are zero and released. [log 42 DEDUCED] -/
def execCaskScrubDone (b ci : Nat) (s : State) : Out :=
  .next (
    let c := s.cask b ci
    if c.scrub then
      (zeroAreas b c.scrubArea c.scrubKeg s).onCask b ci (fun c => { c with scrub := false, scrubArea := (0, 0), scrubKeg := (0, 0) })
    else s)

/-- A write of CASK_KEG (R139, R141): while EN is 1 only SEL, and only while idle, without provisional
entries and not above TILES_M1. [log 37 DEDUCED] -/
def caskKegWrite (b ci : Nat) (v : Word) (s : State) : State :=
  let c := s.cask b ci
  if c.en then
    if caskIdle s b ci && caskProvisional s b ci == 0 && decide (bits v 39 32 ≤ c.tilesM1) then
      s.onCask b ci (fun c => { c with keg := (c.keg &&& 0xFF01_FFFF) ||| (v &&& 0xFF_0000_0000) })
    else s.onCask b ci (fun c => { c with wrIgnored := true })
  else s.onCask b ci (fun c => { c with keg := v &&& 0xFF_FF01_FFFF })

/-- KEG_SEL_WRITE (R139). -/
def execKegSelWrite (b ci : Nat) (v : Word) (s : State) : Out := .next (caskKegWrite b ci v s)

/-- A write of CASK_AREA (R141): no effect while EN is 1. [log 37 DEDUCED] -/
def caskAreaWrite (b ci : Nat) (v : Word) (s : State) : State :=
  if (s.cask b ci).en then s.onCask b ci (fun c => { c with wrIgnored := true })
  else s.onCask b ci (fun c => { c with area := v &&& 0x1F_FFFF_FFFF })

/-- FOLD_MOD entries that an enabled Cask uses (R119). -/
def modInUse (y : Bay) (i : Nat) : Bool :=
  y.casks.any (fun e => e.2.en &&
    ((e.2.op == opAddP && e.2.modIdx == i) ||
     (e.2.op == opAddRns && decide (e.2.modIdx ≤ i) && decide (i ≤ e.2.modIdx + e.2.limbsM1))))

/-- A write of FOLD_MOD(i): no effect while an enabled Cask uses the entry (R119). -/
def foldModWrite (b i : Nat) (v : Word) (s : State) : State :=
  if modInUse (s.bay b) i then s else s.onBay b (fun y => { y with mods := tput y.mods i (v &&& 0x3FFF_FFFF_FFFF_FFFF) })

end Sys2Proof.Machine
end

