-- ==== Sys2Proof/Machine/Intake.lean ====
section
/-!
DEFINITION. Intake's stores (03_crates_and_intake.md): the client table (R60), the crate log (R106,
R107, R594), the reject log (R100), the rings (R89-R94) and the delivery of records (R102).
-/
namespace Sys2Proof.Machine

/-! ### The client table (R60) -/

/-- A client's entry. -/
inductive Client where
  | absent | provisional | committed | rejected
  deriving DecidableEq, Repr

def Client.code : Client → Nat
  | .absent => 0 | .provisional => 1 | .committed => 2 | .rejected => 3

def clientOf : Nat → Client
  | 1 => .provisional | 2 => .committed | 3 => .rejected | _ => .absent

/-- The entry of client CLIENT_BASE + j. -/
def ctabGet (s : State) (k j : Nat) : Client :=
  let b := (vbyte s k ((s.shelf k).ctab.1 + j / 4)).toNat
  clientOf (nbits b (2 * (j % 4) + 1) (2 * (j % 4)))

/-- Set the entry of client CLIENT_BASE + j. -/
def ctabSet (k j : Nat) (v : Client) (s : State) : State :=
  let a := (s.shelf k).ctab.1 + j / 4
  let b := (vbyte s k a).toNat
  let o := 2 * (j % 4)
  vwrite s k a [BitVec.ofNat 8 (b - nbits b (o + 1) o * 2 ^ o + v.code * 2 ^ o)]

/-- The entry of a client by its index. -/
def clientEntry (s : State) (k client : Nat) : Client := ctabGet s k (client - (s.shelf k).round.desc.clientBase)

/-- The status of a read of the line with a client's entry. [log 25 DEDUCED] -/
def clientStat (s : State) (k client : Nat) : Status := vstat s k ((s.shelf k).ctab.1 + (client - (s.shelf k).round.desc.clientBase) / 256 * 64) 64

/-- Set the entry of a client by its index; a line that cannot be read ends the round FAULTED (R78). [log 25 DEDUCED] -/
def setClient (k client : Nat) (v : Client) (s : State) : State :=
  let j := client - (s.shelf k).round.desc.clientBase
  match clientStat s k client with
  | .ok => ctabSet k j v s
  | st => endRound k .faulted st (noteRead k ((s.shelf k).ctab.1 + j / 256 * 64) 64 s)

/-- Clients of the cohort, counted from CLIENT_BASE, that p selects. -/
def clientsWhere (s : State) (k : Nat) (p : Client → Bool) : List Nat :=
  (List.range (s.shelf k).round.desc.clientCount).filter (fun j => p (ctabGet s k j))

/-- A committed entry. -/
def Client.isCommitted : Client → Bool
  | .committed => true | .absent => false | .provisional => false | .rejected => false

/-! ### The crate log (R106, R107) -/

/-- STATE codes (R106). -/
def LogState.code : LogState → Nat
  | .arriving => 0 | .admitted => 1 | .committed => 2 | .retracted => 3 | .refused => 4 | .share => 5

/-- The log entry of a LOG_SEQ. -/
def logEntry (s : State) (k seq : Nat) : Option LogEntry := (s.shelf k).intake.log.find? (fun e => e.logSeq == seq)

/-- Change a log entry. -/
def onLog (k seq : Nat) (f : LogEntry → LogEntry) (s : State) : State :=
  s.onIntake k (fun n => { n with log := mapIf (fun e => e.logSeq == seq) f n.log })

/-- The Cellar address of byte i of the log region, which is circular. -/
def clogAddr (h : Shelf) (i : Nat) : Nat := h.clog.1 + i % max 1 h.clog.2

/-- Write bytes into the circular log region from an offset. [log 26 DEDUCED] -/
def clogWrite (k off : Nat) (b : Bytes) (s : State) : State :=
  let h := s.shelf k
  let room := h.clog.2 - off % max 1 h.clog.2
  let s := vwrite s k (clogAddr h off) (b.take room)
  if b.length ≤ room then s else vwrite s k h.clog.1 (b.drop room)

/-- Read n bytes of the circular log region, with the status of the read. [log 26 DEDUCED] -/
def clogRead (s : State) (k off n : Nat) : Status × Bytes :=
  let h := s.shelf k
  let room := h.clog.2 - off % max 1 h.clog.2
  let a := clogAddr h off
  let st := vstat s k a (min n room)
  let st2 : Status := if n ≤ room then .ok else vstat s k h.clog.1 (n - room)
  (if st = .ok then st2 else st, vread s k a (min n room) ++ vread s k h.clog.1 (n - room))

/-- Count what reading the log region meets. -/
def noteClog (k off n : Nat) (s : State) : State :=
  let h := s.shelf k
  let room := h.clog.2 - off % max 1 h.clog.2
  let s := noteRead k (clogAddr h off) (min n room) s
  if n ≤ room then s else noteRead k h.clog.1 (n - room) s

/-- The 64-byte log header (R106). -/
def logHeader (e : LogEntry) : Bytes :=
  toLe 8 e.logSeq ++ toLe 8 e.time ++ toLe 8 e.roundId ++ toLe 4 e.client ++ toLe 4 e.len ++ toLe 1 e.state.code ++
  toLe 1 e.ring ++ toLe 1 e.kind ++ zeros 29

/-- Write a log entry's header to the Cellar. -/
def writeLogHeader (k seq : Nat) (s : State) : State :=
  match logEntry s k seq with
  | none => s
  | some e => clogWrite k e.offset (logHeader e) s

/-- Bytes of a log entry (R106). -/
def logLen (msg : Nat) : Nat := roundUp (64 + msg) 64

/-- Occupied bytes of the log. -/
def Intake.logUsed (n : Intake) : Nat := (n.log.map (fun e => logLen e.len)).sum

/-- An entry is reclaimable (R107). -/
def LogEntry.reclaimable (e : LogEntry) : Bool :=
  match e.state with
  | .refused => true
  | .share => true
  | .committed => decide (2 ≤ e.covered)
  | .retracted => decide (2 ≤ e.covered)
  | .arriving => false
  | .admitted => false

/-- Entries are reclaimed from the oldest on; CLOG_STATUS.FULL falls when space frees (R107). [log 24 DEDUCED] -/
def reclaimLog (k : Nat) (s : State) : State :=
  s.onIntake k (fun n =>
    let l := n.log.dropWhile LogEntry.reclaimable
    { n with log := l, clogFull := n.clogFull && l.length == n.log.length })

/-- A log entry takes a state; a settled one notes how many cuts came before (R106, R107). [log 240 DEDUCED] -/
def setLogState (k seq : Nat) (st : LogState) (s : State) : State :=
  let cuts := (s.shelf k).wpt.cuts
  let s := onLog k seq (fun e => { e with state := st, settledAt := cuts, covered := 0 }) s
  reclaimLog k (writeLogHeader k seq s)

/-- Allocate a log entry for a message of ring r (R106): the LOG_SEQ is the next one. [log 26 DEDUCED] -/
def logAlloc (k r msgLen : Nat) (s : State) : State :=
  let n := (s.shelf k).intake
  let seq := n.nextSeq
  let e : LogEntry := { logSeq := seq, offset := n.logHead, len := msgLen, ring := r }
  let s := s.onIntake k (fun n => { n with
    log := n.log ++ [e], nextSeq := n.nextSeq + 1
    logHead := (n.logHead + logLen msgLen) % max 1 (s.shelf k).clog.2 })
  writeLogHeader k seq s

/-- Whether the log can take a message now (R104). -/
def logRoom (h : Shelf) (msgLen : Nat) : Bool := decide (h.intake.logUsed + logLen msgLen ≤ h.clog.2)

/-! ### The reject log (R100) -/

/-- Write one reject-log entry, if the log is enabled. -/
def rejectLog (k : Nat) (time client roundLo msgLen reason : Nat) (st : Status) (ring seq : Nat) (s : State) : State :=
  let h := s.shelf k
  if bit (h.reg rRejlogCfg) 63 then
    let n := h.intake
    let e := toLe 8 time ++ toLe 4 client ++ toLe 4 roundLo ++ toLe 4 msgLen ++ toLe 1 reason ++ toLe 1 st.code ++
      toLe 1 ring ++ zeros 1 ++ toLe 8 seq
    let s := vwrite s k (h.rejlog.1 + n.rejNext * 32) e
    s.onIntake k (fun n => { n with
      rejNext := (n.rejNext + 1) % 4096
      rejLost := if n.rejWritten < 4096 then n.rejLost else sat 32 1 n.rejLost
      rejWritten := n.rejWritten + 1 })
  else s

/-- The reject-log entry of a crate that fails after admission (R96, R155). -/
def rejectCrate (k seq reason : Nat) (st : Status) (s : State) : State :=
  match logEntry s k seq with
  | none => s
  | some e => rejectLog k e.time e.client (e.roundId % 2 ^ 32) e.len reason st e.ring seq s

/-- A REJLOG_CFG write (R88, R100). [log 30 DESIGN CHOICE] -/
def rejlogCfgWrite (k : Nat) (v : Word) (s : State) : State :=
  let h := s.shelf k
  if h.round.active || (bit v 63 && !inCellar h (bits v 47 6 * 64) 0x2_0000) then s
  else
    let s := s.setReg k rRejlogCfg (v &&& 0x8000_FFFF_FFFF_FFC0)
    if bit v 63 then s.onIntake k (fun n => { n with rejNext := 0, rejWritten := 0 }) else s

/-- REJLOG_CFG_WRITE (R100). -/
def execRejlogCfgWrite (k : Nat) (v : Word) (s : State) : Out := .next (rejlogCfgWrite k v s)

/-- A CLOG_CFG write (R88, R594). [log 31 DEDUCED] -/
def clogCfgWrite (k : Nat) (v : Word) (s : State) : State :=
  let h := s.shelf k
  if h.round.active || h.intake.log.any (fun e => match e.state with | .arriving => true | .admitted => true | .committed => false | .retracted => false | .refused => false | .share => false) then s
  else
    (s.setReg k rClogCfg v).onIntake k (fun n => { n with
      log := [], logHead := 0, clogFull := false
      coveredSeq := if n.nextSeq = 0 then n.coveredSeq else BitVec.ofNat 64 (n.nextSeq - 1) })

/-- CLOG_CFG_WRITE (R594). -/
def execClogCfgWrite (k : Nat) (v : Word) (s : State) : Out := .next (clogCfgWrite k v s)

/-! ### Rings (R89-R94) -/

/-- Ring r of shelf k. -/
def ringOf (s : State) (k r : Nat) : Option Ring := ((s.shelf k).intake.rings.find? (fun e => e.1 == r)).map (·.2)

/-- Change a ring. -/
def onRing (k r : Nat) (f : Ring → Ring) (s : State) : State :=
  s.onIntake k (fun n => { n with rings := mapIf (fun e => e.1 == r) (fun e => (e.1, f e.2)) n.rings })

/-- The capacity of a ring (R90). -/
def Ring.capacity (r : Ring) : Nat := r.middleSize + 0x8_0000

/-- Occupied bytes. -/
def Ring.used (r : Ring) : Nat := (r.entries.map (fun e => roundUp e.len 64)).sum

/-- The entry of a LOG_SEQ. -/
def Ring.entry (r : Ring) (seq : Nat) : Option RingEntry := r.entries.find? (fun e => e.logSeq == seq)

/-- Change the entry of a LOG_SEQ. -/
def Ring.onEntry (r : Ring) (seq : Nat) (f : RingEntry → RingEntry) : Ring :=
  { r with entries := mapIf (fun e => e.logSeq == seq) f r.entries }

/-- Whether the ring can allocate a whole entry (R91, R104). -/
def Ring.room (r : Ring) (msgLen : Nat) : Bool := decide (r.used + roundUp msgLen 64 ≤ r.capacity)

/-- Allocate an entry, in ring order (R91). -/
def Ring.alloc (r : Ring) (msgLen seq : Nat) : Ring :=
  let e : RingEntry := { offset := r.head, len := msgLen, logSeq := seq, data := zeros msgLen, pos := r.total }
  let x : Ring := { r with entries := r.entries ++ [e], head := (r.head + roundUp msgLen 64) % r.capacity, total := r.total + roundUp msgLen 64 }
  { x with high := r.high || decide (r.highWater * r.capacity ≤ 16 * x.used) }

/-- Settle the ring entry of a crate; what is reclaimable goes (R93). -/
def settleRing (k r seq : Nat) (s : State) : State :=
  ringFlow k r (onRing k r (fun x => (x.onEntry seq (fun e => { e with settled := true })).reclaim s k) s)

/-- What a range leaves of a free one, the higher part first. [log 23 DESIGN CHOICE] -/
def cutGap (t g : Nat × Nat) : List (Nat × Nat) :=
  if overlap g.1 g.2 t.1 t.2 then
    (if t.1 + t.2 < g.1 + g.2 then [(t.1 + t.2, g.1 + g.2 - (t.1 + t.2))] else []) ++ (if g.1 < t.1 then [(g.1, t.1 - g.1)] else [])
  else [g]

/-- The highest n bytes of free ranges that fall in order, or none where they hold fewer. [log 23 DESIGN CHOICE] -/
def takeTop : Nat → List (Nat × Nat) → Option (List (Nat × Nat))
  | 0, _ => some []
  | _ + 1, [] => none
  | n + 1, g :: l => if n + 1 ≤ g.2 then some [(g.1 + g.2 - (n + 1), n + 1)] else (takeTop (n + 1 - g.2) l).map (g :: ·)

/-- Free bytes of the Loft slice of bay b for a ring's head and tail, 512 KiB in all, in one or more ranges (R42): the highest ones. [log 23 DESIGN CHOICE] -/
def findReserve (s : State) (b : Nat) : Option (List (Nat × Nat)) :=
  let taken := ringReserves s b ++
    ((s.bay b).casks.filter (fun e => e.2.held)).map (fun e => e.2.holds.2)
  takeTop (2 * ringPart) (taken.foldl (fun l t => l.flatMap (cutGap t)) [(0, sliceSize)])

/-- Whether a bin or a window of shelf k names ring r (R89). -/
def ringNamed (s : State) (k r : Nat) : Bool :=
  s.windows.any (fun e => e.1 / 65536 == k && e.2.kind == 2 && e.2.ring == r &&
    (match e.2.state with | .free => false | .open_ => true | .draining => true)) ||
  s.bins.any (fun e => e.1 / 65536 == k && e.2.kind == 1 && e.2.ring == r &&
    (match e.2.state with | .free => false | .posted => true | .bound => true))

/-- RESULT of a ring command. -/
def ringDone (k : Nat) (st : Status) (s : State) : State := s.onIntake k (fun n => { n with ringResult := st.code })

/-- The ring that a descriptor describes, if its fields are in range (R89, R90). -/
def ringParse (s : State) (k : Nat) (b : Bytes) : Option Ring :=
  let h := s.shelf k
  let base := field b 0 8
  let size := field b 8 8
  let bay := field b 0x10 1
  let mask := field b 0x11 1
  let hw := field b 0x12 1
  let others := h.intake.rings.map (fun e => (e.2.middleBase, e.2.middleSize))
  if base % 0x10000 = 0 ∧ size % 0x10000 = 0 ∧ size ≤ 2 ^ 36 ∧ bay < h.bays.length ∧ 1 ≤ mask ∧ mask < 16 ∧
      1 ≤ hw ∧ hw ≤ 15 ∧ zeroAt b 0x13 45 ∧ (size = 0 ∨ inCellar h base size) ∧
      (h.clog :: h.rejlog :: others).all (fun r => !overlap base size r.1 r.2) then
    some { middleBase := base, middleSize := size, bay := bay, seqMask := mask, highWater := hw }
  else none

/-- RING_CMD create (R89, R42, R593). [log 23 DESIGN CHOICE] -/
def ringCreate (k r addr : Nat) (s : State) : State :=
  let h := s.shelf k
  if !inCellar h addr 64 then ringDone k .paramUnsupported s
  else
    let st := vstat s k addr 64
    let s := noteRead k addr 64 s
    if st ≠ .ok then ringDone k st s
    else if (ringOf s k r).isSome then ringDone k .paramUnsupported s
    else
      match ringParse s k (vread s k addr 64) with
      | none => ringDone k .paramUnsupported s
      | some x =>
        match (h.bayOf x.bay).bind (findReserve s) with
        | none => ringDone k .paramUnsupported s
        | some off => ringDone k .ok (s.onIntake k (fun n => { n with rings := tput n.rings r { x with reserve := off } }))

/-- RING_CMD destroy (R89). -/
def ringDestroy (k r : Nat) (s : State) : State :=
  let h := s.shelf k
  match ringOf s k r with
  | none => ringDone k .paramUnsupported s
  | some x =>
    if !x.entries.isEmpty || ringNamed s k r || (h.round.active && nbit h.round.desc.ringMask r) then ringDone k .paramUnsupported s
    else ringDone k .ok (s.onIntake k (fun n => { n with rings := tdel n.rings r }))

/-- A write of RING_CMD (R89): RING and ADDR are kept. [log 30 DESIGN CHOICE] -/
def ringCmdWrite (k : Nat) (v : Word) (s : State) : State :=
  let s := s.onIntake k (fun n => { n with ringCmd := v &&& 0xFFFF_FFFF_FFC0_00FC })
  let r := bits v 7 2
  match bits v 1 0 with
  | 1 => ringCreate k r (bits v 63 22 * 64) s
  | 2 => ringDestroy k r s
  | _ => s

/-- RING_CREATE (R89): RING_CMD is written with OP 0b01, a ring number and the descriptor's address. -/
def execRingCreate (k : Nat) (ring : BitVec 6) (addr : BitVec 42) (s : State) : Out :=
  .next (ringCmdWrite k (addr ++ (0 : BitVec 14) ++ ring ++ (1 : BitVec 2)) s)

/-- RING_DESTROY (R89). -/
def execRingDestroy (k : Nat) (ring : BitVec 6) (s : State) : Out :=
  .next (ringCmdWrite k ((0 : BitVec 56) ++ ring ++ (2 : BitVec 2)) s)

/-! ### Delivery of records (R102) -/

/-- Insert a record in ring order. [log 26 DEDUCED] -/
def insRecord (x : CrateRecord) : List CrateRecord → List CrateRecord
  | [] => [x]
  | y :: r => if x.logSeq < y.logSeq then x :: y :: r else y :: insRecord x r

/-- The phase that takes up a record: COLLECT for an update crate, RECOVER for a share crate. -/
def recordDue (h : Shelf) (x : CrateRecord) : Bool :=
  h.round.active && h.round.begun &&
  (match h.round.phase with
    | .collect => x.kind == 1
    | .recover => x.kind == 2
    | .idle => false | .open_ => false | .unmask => false | .noise => false | .step => false | .seal => false | .release => false)

/-- The sequencers of SEQ_MASK in rotation from `next`, as device numbers. -/
def ringSeqs (h : Shelf) (x : Ring) : List (Nat × Nat) :=
  match h.bayOf x.bay with
  | none => []
  | some b => (((List.range 4).map (fun i => (x.next + i) % 4)).filter (nbit x.seqMask)).map (fun i => (i, b * 4 + i))

/-- An entry of ring r before LOG_SEQ seq is still arriving, so a record behind it is not yet in ring order (R102). [log 26 DEDUCED] -/
def arrivingBefore (h : Shelf) (r seq : Nat) : Bool :=
  h.intake.log.any (fun e => e.ring == r && decide (e.logSeq < seq) && e.state.code == 0)

/-- Deliver the oldest waiting record of ring r that the phase takes up to the next inbox with room (R102). [log 26 DEDUCED] -/
def recordDeliver (k r : Nat) (s : State) : State :=
  match ringOf s k r with
  | none => s
  | some x =>
    match x.waiting.find? (recordDue (s.shelf k)) with
    | none => s
    | some c =>
      if arrivingBefore (s.shelf k) r c.logSeq then s
      else
        match (ringSeqs (s.shelf k) x).find? (fun e => decide ((s.seq e.2).inbox.length < 64)) with
        | none => s
        | some (i, q) =>
          let s := onRing k r (fun x => { x with waiting := x.waiting.filter (fun y => y.logSeq != c.logSeq), next := (i + 1) % 4 }) s
          s.onSeq q (fun y => { y with inbox := y.inbox ++ [c] })

/-- RECORD_DELIVER (R102). -/
def execRecordDeliver (k r : Nat) (s : State) : Out := .next (recordDeliver k r s)

/-! ### Reading a crate (R92, R110) -/

/-- A ring of no size. -/
def noRing : Ring := { middleBase := 0, middleSize := 0, bay := 0, seqMask := 0, highWater := 0 }

/-- n bytes of a crate's message from byte off: from its ring entry, or, where that is uncorrectable,
from the crate log, counted in RING_ECC (R110). [log 28 DEDUCED, 29 DEDUCED] -/
def crateRead (k seq off n : Nat) (s : State) : Status × Bytes × State :=
  match logEntry s k seq with
  | none => (.uncorrectable, [], s)
  | some e =>
    match (ringOf s k e.ring).bind (fun r => r.entry seq) with
    | some x =>
      match ringRead k e.ring ((ringOf s k e.ring).getD noRing) x off n s with
      | (some b, s) => (.ok, b, s)
      | (none, s) =>
        let (st, b) := clogRead s k (e.offset + 64 + off) n
        (st, b, noteClog k (e.offset + 64 + off) n s)
    | none =>
      let (st, b) := clogRead s k (e.offset + 64 + off) n
      (st, b, noteClog k (e.offset + 64 + off) n s)

end Sys2Proof.Machine
end

