-- ==== Sys2Proof/Machine/Prio3.lean ====
section
/-!
DEFINITION. The Prio3 proof system that R189 names (draft-irtf-cfrg-vdaf-13): the field unit's arithmetic (R194), the XOF with its inputs
(R190), the gadgets and circuits of R192, the query (R197) and the decision (R198).
-/
namespace Sys2Proof.Machine

/-! ### The field unit (R194) -/

def fAdd (p a b : Nat) : Nat := (a + b) % p
def fSub (p a b : Nat) : Nat := (a + p - b % p) % p
def fMul (p a b : Nat) : Nat := a * b % p
def fSum (p : Nat) (l : List Nat) : Nat := l.foldl (fAdd p) 0

/-- The root of unity of order n, a power of two: a power of 7. -/
def fRoot (p n : Nat) : Nat := powMod p 7 (p.log2 + 1) ((p - 1) / n)

/-- The entries of a list at even places, and those at odd places. -/
def evens : List Nat → List Nat
  | a :: _ :: r => a :: evens r
  | l => l
def odds (l : List Nat) : List Nat := evens (l.drop 1)

/-- The transform of 2^n coefficients: the values at the powers of w. -/
def fNtt (p : Nat) : Nat → Nat → List Nat → List Nat
  | 0, _, l => l
  | n + 1, w, l =>
    let e := fNtt p n (w * w % p) (evens l)
    let o := (fNtt p n (w * w % p) (odds l)).zipIdx.map (fun x => fMul p x.1 (powMod p w 64 x.2))
    List.zipWith (fAdd p) e o ++ List.zipWith (fSub p) e o

/-- The coefficients of the polynomial with given values at the powers of the root of order 2^n. -/
def fInterp (p n : Nat) (l : List Nat) : List Nat :=
  (fNtt p n (invMod p (fRoot p (2 ^ n))) l).map (fMul p (invMod p (2 ^ n)))

/-- The value of a polynomial at x. -/
def fEval (p x : Nat) (l : List Nat) : Nat := l.foldr (fun c acc => (acc * x + c) % p) 0

/-! ### The XOF (R190) -/

/-- n bytes of XofTurboShake128 from a seed, a domain-separation tag and a binder. -/
def prioXof (seed dst binder : Bytes) (n : Nat) : Bytes := turboShake 1 (toLe 2 dst.length ++ dst ++ toLe 1 seed.length ++ seed ++ binder) n

/-- The domain-separation tag of a usage: the document's version, a VDAF, ALG_ID, the usage, and the application context. [log 55 PRESUMED] -/
def prioDst (alg usage : Nat) (ctx : Bytes) : Bytes := [12, 0] ++ toBe 4 alg ++ toBe 2 usage ++ ctx

/-- n field elements from the XOF; numbers that are not below the prime are passed over. [log 55 PRESUMED] -/
def prioVec (i : Inst) (seed dst binder : Bytes) (n : Nat) : List Nat :=
  (((chunks i.elem (prioXof seed dst binder (i.elem * (2 * n + 8)))).map leNat).filter (fun x => decide (x < i.prime))).take n

/-- What the XOF inputs of one crate share (R190): the algorithm identifier, the application context, and the nonce. -/
structure PrioCtx where
  alg   : Nat
  ctx   : Bytes
  nonce : Bytes

/-- The joint-randomness part of an aggregator. [log 55 PRESUMED] -/
def prioPart (c : PrioCtx) (agg : Nat) (blind meas : Bytes) : Bytes := prioXof blind (prioDst c.alg 7 c.ctx) (toLe 1 agg ++ c.nonce ++ meas) 32

/-- The joint-randomness seed of the parts of every aggregator. [log 55 PRESUMED] -/
def prioSeed (c : PrioCtx) (parts : Bytes) : Bytes := prioXof [] (prioDst c.alg 6 c.ctx) parts 32

/-! ### Gadgets and circuits (R192) -/

/-- The gadgets. -/
inductive Gadget where
  | mul | range2 | parallelSum
  deriving DecidableEq, Repr

/-- The gadget of an instance. -/
def Inst.gadget (i : Inst) : Gadget := match i.typ with | 0 => .mul | 1 => .range2 | _ => .parallelSum

/-- OUTPUT_LEN. -/
def Inst.outputLen (i : Inst) : Nat := match i.typ with | 0 => 1 | 1 => 1 | _ => i.length

/-- Products of neighbours, added. -/
def pairSum (p : Nat) : List Nat → Nat
  | a :: b :: r => fAdd p (fMul p a b) (pairSum p r)
  | _ => 0

/-- A gadget's value. -/
def Gadget.value (p : Nat) : Gadget → List Nat → Nat
  | .mul, l => fMul p (l.getD 0 0) (l.getD 1 0)
  | .range2, l => fSub p (fMul p (l.getD 0 0) (l.getD 0 0)) (l.getD 0 0)
  | .parallelSum, l => pairSum p l

/-- Elements of joint randomness of one proof: one for Sum, one for each gadget call of SumVec and Histogram. -/
def Inst.jointLen (i : Inst) : Nat := match i.typ with | 0 => 0 | 1 => 1 | _ => i.calls

/-- The values that the circuit delivers: two for Histogram, whose buckets also sum to one. -/
def Inst.outs (i : Inst) : Nat := if i.typ = 3 then 2 else 1

/-- Elements of query randomness of one proof: the weights of several outputs, then the test point. -/
def Inst.queryLen (i : Inst) : Nat := 1 + (if i.outs = 1 then 0 else i.outs)

/-- The share of the constant 1 of one of n aggregators. -/
def oneShare (p n : Nat) : Nat := invMod p n

/-- The inputs of gadget call k. -/
def Inst.inputs (i : Inst) (shares : Nat) (meas jr : List Nat) (k : Nat) : List Nat :=
  let p := i.prime
  match i.gadget with
  | .mul => [meas.getD 0 0, meas.getD 0 0]
  | .range2 => [meas.getD k 0]
  | .parallelSum => (List.range i.chunk).flatMap (fun j =>
      let m := meas.getD (k * i.chunk + j) 0
      [fMul p (powMod p (jr.getD k 0) 16 (j + 1)) m, fSub p m (oneShare p shares)])

/-- The circuit's outputs from the gadget's values. -/
def Inst.outputs (i : Inst) (shares : Nat) (meas jr g : List Nat) : List Nat :=
  let p := i.prime
  match i.typ with
  | 0 => [fSub p (g.getD 0 0) (meas.getD 0 0)]
  | 1 => [fSum p (g.zipIdx.map (fun e => fMul p (powMod p (jr.getD 0 0) 16 (e.2 + 1)) e.1))]
  | 2 => [fSum p g]
  | _ => [fSum p g, fSub p (fSum p meas) (oneShare p shares)]

/-! ### Query and decision (R197, R198) -/

/-- The verifier share of one proof share, or none where the test point is one of the points of interpolation. [log 55 PRESUMED] -/
def flpQuery (i : Inst) (shares : Nat) (meas proof qr jr : List Nat) : Option (List Nat) :=
  let p := i.prime
  let size := pow2Up (1 + i.calls)
  let alpha := fRoot p size
  let poly := proof.drop i.arity
  let ins := (List.range i.calls).map (i.inputs shares meas jr)
  let g := (List.range i.calls).map (fun k => fEval p (powMod p alpha 64 (k + 1)) poly)
  let outs := i.outputs shares meas jr g
  let v := if i.outs = 1 then outs.getD 0 0 else fSum p (List.zipWith (fMul p) qr outs)
  let t := qr.getD (i.queryLen - 1) 0
  if powMod p t 64 size = 1 then none
  else
    let wires := (List.range i.arity).map (fun j => (proof.getD j 0 :: ins.map (fun l => l.getD j 0) ++ List.replicate (size - 1 - i.calls) 0))
    some (v :: wires.map (fun w => fEval p t (fInterp p size.log2 w)) ++ [fEval p t poly])

/-- Whether a verifier, the sum of every aggregator's share, passes. [log 55 PRESUMED] -/
def flpDecide (i : Inst) (v : List Nat) : Bool :=
  v.getD 0 0 == 0 && i.gadget.value i.prime ((v.drop 1).take i.arity) == v.getD (i.arity + 1) 0

/-- The field elements of bytes. -/
def Inst.elems (i : Inst) (b : Bytes) : List Nat := (chunks i.elem b).map leNat

/-- Put part j of the public share in place of the one there. -/
def withPart (pub : Bytes) (j : Nat) (part : Bytes) : Bytes := pub.take (32 * j) ++ part ++ pub.drop (32 * j + 32)

/-- This aggregator's preparation share without the record's head (R197): the verifier shares, and the joint-randomness part where the
instance uses one. [log 9 DEDUCED, 55 PRESUMED] -/
def prioPrep (i : Inst) (c : PrioCtx) (shares agg : Nat) (vk meas proofs blind pub : Bytes) : Option Bytes :=
  let part := prioPart c agg blind meas
  let qr := prioVec i vk (prioDst c.alg 5 c.ctx) (toLe 1 i.proofs ++ c.nonce) (i.queryLen * i.proofs)
  let jr := if i.jointRand then prioVec i (prioSeed c (withPart pub agg part)) (prioDst c.alg 3 c.ctx) (toLe 1 i.proofs) (i.jointLen * i.proofs) else []
  let share (n : Nat) : Option (List Nat) :=
    flpQuery i shares (i.elems meas) (i.elems (slice proofs (n * i.pl * i.elem) (i.pl * i.elem))) ((qr.drop (n * i.queryLen)).take i.queryLen)
      ((jr.drop (n * i.jointLen)).take i.jointLen)
  let vs := (List.range i.proofs).map share
  if vs.all (·.isSome) then some ((vs.flatMap (·.getD [])).flatMap (toLe i.elem) ++ (if i.jointRand then part else [])) else none

/-- The decision on the preparation shares of every aggregator, aggregator 0 first (R198). [log 55 PRESUMED] -/
def prioDecide (i : Inst) (c : PrioCtx) (agg : Nat) (pub own : Bytes) (preps : List Bytes) : Bool :=
  let size := i.vl * i.elem
  let total (n : Nat) : List Nat :=
    (preps.map (fun b => i.elems (slice b (n * size) size))).foldl (fun a v => List.zipWith (fAdd i.prime) a v) (List.replicate i.vl 0)
  (List.range i.proofs).all (fun n => flpDecide i (total n)) &&
  (!i.jointRand || prioSeed c (preps.flatMap (fun b => slice b (i.proofs * size) 32)) == prioSeed c (withPart pub agg own))

end Sys2Proof.Machine
end

