-- ==== Sys2Proof/Machine/Group.lean ====
section
/-!
DEFINITION. Group messages and the verifier exchange (07_shared_mode.md): the envelope (R208), peer
routes and the relay ring (R206), Prio3 instances (R191, R192, R195), verifier records (R203-R205,
R207), FLPV (R197-R199) and the queueing of REJECT records (R201).
-/
namespace Sys2Proof.Machine

/-- Change the shared-mode state of shelf k. -/
def State.onVerif (s : State) (k : Nat) (f : Verif → Verif) : State := s.onShelf k (fun h => { h with verif := f h.verif })

def rPeerRoute (j : Nat) : Nat := 0x0B10 + j * 8
def rVerifCfg : Nat := 0x0B00
def rRelayCfg : Nat := 0x0B30
def rRelayPtr : Nat := 0x0B38

/-! ### Envelopes (R208) -/

/-- The pairwise key slot of peer j seen from member i (R208). -/
def peerSlot (base i j : Nat) : Nat := if j < i then base + j else base + j - 1

/-- The use of a pairwise peer key: encrypt and decrypt by the island for the shelf (R208). [log 64 DESIGN CHOICE] -/
def peerUse (k : Nat) : KeyUse := { usages := [uEncrypt, uDecrypt], kinds := [1], master := .island, shelf := some k }

/-- The tag of a group message (R65). -/
def groupTag (id kind sender : Nat) : Nat := id % 2 ^ 48 + kind * 2 ^ 48 + sender * 2 ^ 56

/-- The 32-byte head of an envelope, which is also its additional authenticated data. -/
def envHead (kind sender receiver id seq len gen : Nat) : Bytes :=
  toLe 4 0x50454E56 ++ toLe 1 1 ++ toLe 1 kind ++ toLe 1 sender ++ toLe 1 receiver ++ toLe 8 id ++ toLe 4 seq ++
  toLe 4 len ++ toLe 4 gen ++ zeros 4

/-- The GCM nonce of an envelope. -/
def envNonce (kind sender id seq : Nat) : Bytes := toLe 1 sender ++ toLe 1 kind ++ toLe 4 seq ++ toLe 6 id

/-- Put one entry into the relay ring of the shelf, which is circular (R206). [log 62 DEDUCED] -/
def relayWrite (k base units off : Nat) (b : Bytes) (s : State) : State :=
  (chunks 64 b).zipIdx.foldl (fun s e => vwrite s k (base + (off + e.2) % max 1 units * 64) e.1) s

/-- A relay-ring entry: header and envelope, rounded up to 64 bytes. -/
def relayEntry (peer tag : Nat) (env : Bytes) : Bytes :=
  let b := toLe 4 peer ++ toLe 4 env.length ++ toLe 8 tag ++ zeros 48 ++ env
  b ++ zeros (roundUp b.length 64 - b.length)

/-- Write one held envelope into the relay ring where it has space (R206); one unit stays free, since
HEAD equal to TAIL means empty. The answer says whether it went. -/
def relayPut (k peer tag : Nat) (env : Bytes) (s : State) : Bool × State :=
  let h := s.shelf k
  let (base, size) := region64k (h.reg rRelayCfg)
  let units := size / 64
  let b := relayEntry peer tag env
  let used := (h.verif.head + units - bits (h.reg rRelayPtr) 63 32 % max 1 units) % max 1 units
  if used + b.length / 64 < units then
    (true, (relayWrite k base units h.verif.head b s).onVerif k (fun v => { v with head := (v.head + b.length / 64) % max 1 units }))
  else (false, s)

/-- Offer held envelopes to the relay ring, oldest first; one that finds no space holds the later ones of its own peer
and of no other (R206). `stuck` are the peers already held, the list left is what stays held. -/
def relayPass (k : Nat) : List (Nat × Nat × Bytes) → List Nat → State → List (Nat × Nat × Bytes) × State
  | [], _, s => ([], s)
  | (peer, tag, env) :: r, stuck, s =>
    let (went, s') := if stuck.contains peer then (false, s) else relayPut k peer tag env s
    if went then relayPass k r stuck s'
    else
      let (l, t) := relayPass k r (insSet peer stuck) s
      ((peer, tag, env) :: l, t)

/-- Write held envelopes into the relay ring, as far as it has space (R206). [log 62 DEDUCED] -/
def relayFlush (k : Nat) (s : State) : State :=
  let (l, s) := relayPass k (s.shelf k).verif.held [] s
  s.onVerif k (fun v => { v with held := l })

/-- Send sealed bytes to peer j: a tagged send to its destination entry, or through the relay ring
(R206). PEER_ROUTE names peers 0-3; the manual names no destination for a higher index, so the entry is
a free value. The flow label of a group message is a free value too. [log 59 DESIGN CHOICE, 60 DESIGN CHOICE, 61 DEDUCED] -/
def routeEnvelope (k j kind tag records : Nat) (env : Bytes) (s : State) : State :=
  let h := s.shelf k
  let route := h.reg (rPeerRoute j)
  let s := s.onVerif k (fun v => { v with sent := sat 32 1 v.sent })
  if j < 4 ∧ bit route 0 then
    let s := s.onVerif k (fun v => { v with held := v.held ++ [(j, tag, env)] })
    relayFlush k s
  else
    let (free, s) := draw 12 s
    let (flow, s) := draw 16 s
    let i := if j < 4 then bits route 31 16 else free
    let d := s.dest i
    if d.usable k then
      let m : TxMsg := { shelf := k, use := .envelope k j kind records, op := 2, flow := flow, len := env.length, source := .held env, keyTag := tag }
      enter (m.toDest i d) s
    else s.onVerif k (fun v => { v with lost := sat 16 records v.lost })

/-- Seal and send one group message to peer j: `base` is the first pairwise slot, `me` this member's
index, `records` the verifier records that are lost with it (R208). -/
def sendEnvelope (k base me j kind id records : Nat) (body : Bytes) (s : State) : State :=
  match bindCur s (peerSlot base me j) (peerUse k) with
  | .error _ => s.onVerif k (fun v => { v with lost := sat 16 records v.lost })
  | .ok half =>
    let key := j * 256 + kind
    let seq := tget 0 (s.shelf k).verif.txSeq key
    let head := envHead kind me j id seq body.length half.gen
    let (c, t) := gcmSeal half.key (envNonce kind me id seq) head body
    let s := s.onVerif k (fun v => { v with txSeq := tput v.txSeq key (seq + 1) })
    routeEnvelope k j kind (groupTag id kind me) records (head ++ c ++ t) s

/-- Send a group message of the round to peer j. -/
def sendGroup (k j kind records : Nat) (body : Bytes) (s : State) : State :=
  let d := (s.shelf k).round.desc
  sendEnvelope k d.peerSlot d.groupIndex j kind d.roundId records body s

/-! ### The verifier table (R207) -/

/-- The address of the slot of client CLIENT_BASE + c for aggregator j. -/
def verifSlot (h : Shelf) (c j : Nat) : Nat :=
  (region64k (h.reg rVerifTable)).1 + (c * h.round.desc.groupSize + j) * roundUp h.roundInst.recordLen 64

/-- The record in a slot. -/
def slotRecord (s : State) (k c j : Nat) : Bytes := vread s k (verifSlot (s.shelf k) c j) (s.shelf k).roundInst.recordLen

/-- TYPE of the record in a slot: 0 none, 1 PREP, 2 REJECT. -/
def slotType (s : State) (k c j : Nat) : Nat := field (slotRecord s k c j) 4 1

/-- Store a record. -/
def storeRecord (k c j : Nat) (rec_ : Bytes) (s : State) : State := vwrite s k (verifSlot (s.shelf k) c j) rec_

/-! ### Queued records (R204, R205) -/

/-- A record (R205). -/
def recordOf (i : Inst) (client typ : Nat) (rest : Bytes) : Bytes :=
  let b := toLe 4 client ++ toLe 1 typ ++ zeros 3 ++ rest
  b ++ zeros (i.recordLen - b.length)

/-- Queue a record for peer j. -/
def queueRecord (k j : Nat) (rec_ : Bytes) (s : State) : State :=
  s.onVerif k (fun v => { v with queued := tput v.queued j (tget [] v.queued j ++ [(s.clk, rec_)]) })

/-- Queue a record for every peer. -/
def queueAll (k : Nat) (rec_ : Bytes) (s : State) : State := (s.shelf k).round.peers.foldl (fun s j => queueRecord k j rec_ s) s

/-- Queue a REJECT record for a client to every peer, unless one has gone out or a peer's REJECT ended
its FLPV (R201). [log 57 DEDUCED] -/
def queueReject (k client : Nat) (s : State) : State :=
  let h := s.shelf k
  if h.round.desc.mode = 2 && !h.verif.rejectSent.contains client && !h.verif.rejectFrom.contains client then
    let s := queueAll k (recordOf h.roundInst client 2 []) s
    s.onVerif k (fun v => { v with rejectSent := insSet client v.rejectSent, rejectLocal := sat 32 h.round.peers.length v.rejectLocal })
  else s

/-- BATCH_M1 + 1 (R204). -/
def batch (h : Shelf) : Nat := bits (h.reg rVerifCfg 0x3F) 9 0 + 1

/-- FLUSH_US; 0 selects 200. -/
def flushUs (h : Shelf) : Nat := let v := bits (h.reg rVerifCfg 0x3F) 29 16; if v = 0 then 200 else v

/-- Send the oldest records queued for peer j, a batch at most, as one verifier message (R203, R204). -/
def sendVerifier (k j : Nat) (s : State) : State :=
  let h := s.shelf k
  let l := tget [] h.verif.queued j
  let out := l.take (batch h)
  let body := toLe 4 out.length ++ toLe 4 h.roundInst.recordLen ++ zeros 8 ++ out.flatMap (·.2)
  let s := s.onVerif k (fun v => { v with queued := tput v.queued j (l.drop (batch h)) })
  sendGroup k j 3 out.length body s

/-- T_EXCHANGE of the shelf's round has passed: its EXCHANGE_DEADLINE has been taken, or the clock has reached it. [log 54 DEDUCED] -/
def pastExchange (s : State) (k : Nat) : Bool := (s.shelf k).round.exchPassed || decide ((s.shelf k).round.desc.tExchange ≤ s.epoch)

/-- The device sends records of the round until T_EXCHANGE (R202). [log 54 DEDUCED] -/
def recordsRun (s : State) (k : Nat) : Bool := (s.shelf k).round.active && (s.shelf k).round.desc.mode == 2 && !pastExchange s k

/-- VERIFIER_BATCH_SEND (R204). [log 65 DESIGN CHOICE] -/
def execVerifierBatchSend (k j : Nat) (s : State) : Out :=
  .next (if recordsRun s k && decide (batch (s.shelf k) ≤ (tget [] (s.shelf k).verif.queued j).length) then sendVerifier k j s else s)

/-- VERIFIER_FLUSH (R204): FLUSH_US passes since the oldest queued record. [log 65 DESIGN CHOICE, 68 DEDUCED] -/
def execVerifierFlush (k j : Nat) (s : State) : Out :=
  .next (
    let h := s.shelf k
    match tget [] h.verif.queued j with
    | [] => s
    | oldest :: _ => if recordsRun s k then sendVerifier k j (advanceClk (oldest.1 + flushUs h * 1000) s) else s)

/-- RELAY_TAIL_WRITE (R206): TAIL is written, and held messages take the space it frees. -/
def relayTailWrite (k : Nat) (v : Word) (s : State) : State :=
  relayFlush k (s.setReg k rRelayPtr (v &&& 0xFFFF_FFFF_0000_0000))

def execRelayTailWrite (k : Nat) (v : Word) (s : State) : Out := .next (relayTailWrite k v s)

/-! ### Decision and FLPV (R197-R199) -/

/-- FLPV commands of a crate. -/
def isFlpv (seq : Nat) (c : InFlight) : Bool := c.kind == 0x13 && field c.desc 0x18 8 == seq

/-- A client has an admitted crate here (R202): its entry says so, or, for a client that is rejected, the crate log or the
REJECT records of R201 say that its crate was admitted before it was retracted. [log 57 DEDUCED] -/
def clientAdmitted (s : State) (k client : Nat) : Bool :=
  let h := s.shelf k
  match clientEntry s k client with
  | .absent => false
  | .provisional => true
  | .committed => true
  | .rejected => h.verif.rejectSent.contains client || h.verif.rejectFrom.contains client ||
      h.intake.log.any (fun e => e.client == client && e.kind == 1 && e.roundId == h.round.desc.roundId &&
        (match e.state with | .admitted => true | .committed => true | .retracted => true | .arriving => false | .refused => false | .share => false))

/-- An FLPV of the crate is accepted and undecided. -/
def flpvOpen (s : State) (k seq : Nat) : Bool :=
  (s.shelf k).seqs.any (fun q => (List.range 12).any (fun n => (s.queue q n).inflight.any (fun c => c.result.isNone && isFlpv seq c)))

/-- The FLPV of the crate has completed OK (R200): decided so, and out of its queue. [log 71 DEDUCED] -/
def flpvDone (s : State) (k seq : Nat) : Bool :=
  (s.shelf k).verif.flpvOk.contains seq &&
  !(s.shelf k).seqs.any (fun q => (List.range 12).any (fun n => (s.queue q n).inflight.any (isFlpv seq)))

/-- The Prio3 inputs of a client's crate (R190). -/
def prioCtx (h : Shelf) (client : Nat) : PrioCtx :=
  { alg := bits (h.reg (rPrioB (h.round.desc.inst % 16))) 31 0, ctx := toLe 8 h.round.desc.cohortId
    nonce := toLe 8 h.round.desc.roundId ++ toLe 4 client ++ zeros 4 }

/-- The blind and the public share of a crate's proof material (R195). -/
def proofParts (i : Inst) (g : Nat) (proof : Bytes) : Bytes × Bytes :=
  let n := i.proofs * i.pl * i.elem
  if i.jointRand then (slice proof n 32, slice proof (n + 32) (g * 32)) else ([], [])

/-- A crate is decided once this aggregator's PREP and a PREP of every peer are in the table; a peer's
REJECT ends its FLPV at once (R198, R199). [log 58 DEDUCED, 59 DESIGN CHOICE] -/
def decideCrate (k client : Nat) (s : State) : State :=
  let h := s.shelf k
  let d := h.round.desc
  let i := h.roundInst
  let c := client - d.clientBase
  match h.verif.flpv.find? (fun e => e.2.1 == client && flpvOpen s k e.1) with
  | none => s
  | some (seq, _, pub) =>
    if h.round.peers.any (fun j => slotType s k c j == 2) then
      let s := finishAll k (isFlpv seq) .verdictReject s
      s.onVerif k (fun v => { v with rejectPeer := sat 32 1 v.rejectPeer, rejectFrom := insSet client v.rejectFrom })
    else if (List.range d.groupSize).all (fun j => slotType s k c j == 1) then
      let recs := (List.range d.groupSize).map (fun j => (slotRecord s k c j).drop 8)
      let own := (slotRecord s k c d.groupIndex).drop (i.recordLen - 32)
      if prioDecide i (prioCtx h client) d.groupIndex pub own recs then
        let s := finishAll k (isFlpv seq) .ok s
        s.onVerif k (fun v => { v with accepted := sat 32 1 v.accepted, flpvOk := insSet seq v.flpvOk })
      else
        let s := finishAll k (isFlpv seq) .verdictReject s
        s.onVerif k (fun v => { v with rejectJoint := sat 32 1 v.rejectJoint })
    else s

/-- Field elements are canonical (R194). -/
def canonical (i : Inst) (b : Bytes) : Bool := (chunks i.elem b).all (fun x => decide (leNat x < i.prime))

/-- The use of the verify key (R190, R196): derive by the sequencer master. [log 64 DESIGN CHOICE] -/
def vkUse (k : Nat) : KeyUse := { usages := [uDerive], kinds := [1, 2], master := .sequencer, shelf := some k }

/-- A crate is an admitted crate of the running round with a KIND. -/
def admittedOf (s : State) (k seq kind : Nat) : Option LogEntry :=
  let h := s.shelf k
  match logEntry s k seq with
  | none => none
  | some e =>
    if h.round.active && e.kind == kind && e.roundId == h.round.desc.roundId &&
      (match e.state with | .admitted => true | .arriving => false | .committed => false | .retracted => false | .refused => false | .share => false)
    then some e else none

/-- The local check of a client's crate fails (R197, R199): a REJECT record stands in place of the PREP record. [log 55 PRESUMED] -/
def flpvReject (k client : Nat) (s : State) : Answer :=
  let h := s.shelf k
  let d := h.round.desc
  done .verdictReject (queueReject k client (storeRecord k (client - d.clientBase) d.groupIndex (recordOf h.roundInst client 2 []) s))

/-- FLPV's operation (R197): the local check, the query, this aggregator's record. The command stays
in flight until R199 completes it. [log 43 DEDUCED, 54 DEDUCED, 59 DESIGN CHOICE] -/
def flpvRun (fail : Nat → Nat → State → State) (k : Nat) (d : Bytes) (s : State) : Answer :=
  let h := s.shelf k
  let r := h.round
  let seq := field d 0x18 8
  match admittedOf s k seq 1 with
  | none => refuse s
  | some e =>
    if r.desc.mode ≠ 2 ∨ r.phase ≠ .collect ∨ pastExchange s k ∨ tmem h.verif.flpv seq then refuse s
    else
      let s := s.onVerif k (fun v => { v with flpv := tput v.flpv seq (e.client, []) })
      let i := h.roundInst
      let c := e.client - r.desc.clientBase
      match bindCur s i.vkSlot (vkUse k) with
      | .error _ => done .deniedAttribute (queueReject k e.client s)
      | .ok vk =>
        let (st, msg, s) := crateRead k seq 0 e.len s
        if st ≠ .ok then done .uncorrectable (fail k seq (queueReject k e.client s))
        else
          let pay := slice msg 512 (field msg 0x28 4)
          let proof := slice msg (512 + pay.length) (field msg 0x2C 4)
          if canonical i pay && canonical i (proof.take (i.proofs * i.pl * i.elem)) then
            let (blind, pub) := proofParts i r.desc.groupSize proof
            match prioPrep i (prioCtx h e.client) r.desc.groupSize r.desc.groupIndex vk.key pay proof blind pub with
            | some out =>
              let rec_ := recordOf i e.client 1 out
              let s := s.onVerif k (fun v => { v with flpv := tput v.flpv seq (e.client, pub) })
              (none, 0, queueAll k rec_ (storeRecord k c r.desc.groupIndex rec_ s))
            | none => flpvReject k e.client s
          else flpvReject k e.client s

/-! ### Received records (R207, R201) -/

/-- One record of a verifier message from peer j. [log 56 DEDUCED, 58 DEDUCED] -/
def takeRecordFrom (k j : Nat) (rec_ : Bytes) (s : State) : State :=
  let h := s.shelf k
  let d := h.round.desc
  let client := field rec_ 0 4
  let typ := field rec_ 4 1
  let c := client - d.clientBase
  let bad (s : State) : State := s.onVerif k (fun v => { v with bad := sat 16 1 v.bad })
  if client < d.clientBase ∨ d.clientBase + d.clientCount ≤ client ∨ (typ ≠ 1 ∧ typ ≠ 2) ∨ !zeroAt rec_ 5 3 then bad s
  else if typ = 2 ∧ !zeroAt rec_ 8 (rec_.length - 8) then bad s
  else if typ = 1 ∧ slotType s k c j ≠ 0 then bad s
  else
    let s := storeRecord k c j rec_ s
    let s := if typ = 2 && (clientEntry s k client).isCommitted then s.onVerif k (fun v => { v with lateReject := sat 16 1 v.lateReject }) else s
    decideCrate k client s

/-- The body of a verifier message (R203, R207): a wrong COUNT or RECORD_LEN discards its records. [log 56 DEDUCED, 63 DESIGN CHOICE] -/
def takeVerifier (k j : Nat) (body : Bytes) (s : State) : State :=
  let h := s.shelf k
  let n := field body 0 4
  let len := h.roundInst.recordLen
  if recordsRun s k then
    if n = 0 ∨ 1024 < n ∨ field body 4 4 ≠ len ∨ body.length ≠ 16 + n * len then
      s.onVerif k (fun v => { v with bad := sat 16 1 v.bad })
    else (chunks len (body.drop 16)).foldl (fun s r => takeRecordFrom k j r s) s
  else s

/-- A held envelope that carries verifier records (kind 3 of R65). [log 63 DESIGN CHOICE] -/
def holdsRecords (e : Nat × Nat × Bytes) : Bool := e.2.1 / 2 ^ 48 % 256 == 3

/-- T_EXCHANGE in shared mode (R202): undecided FLPVs complete VERDICT_REJECT, records queued or held are not sent any more,
and each record in a peer's slot for a client with no admitted crate is discarded and counted an orphan. [log 57 DEDUCED, 63 DESIGN CHOICE] -/
def verifExchange (k : Nat) (s : State) : State :=
  let h := s.shelf k
  if h.round.desc.mode = 2 then
    let s := finishAll k (fun c => c.kind == 0x13) .verdictReject s
    let orphans := (List.range h.round.desc.clientCount).flatMap (fun c =>
      if clientAdmitted s k (h.round.desc.clientBase + c) then []
      else (h.round.peers.filter (fun j => slotType s k c j != 0)).map (fun j => (c, j)))
    let s := orphans.foldl (fun s e => vzero s k (verifSlot h e.1 e.2) h.roundInst.recordLen) s
    s.onVerif k (fun v => { v with orphans := sat 16 orphans.length v.orphans, queued := [], held := v.held.filter (fun e => !holdsRecords e) })
  else s

end Sys2Proof.Machine
end

