-- ==== Sys2Proof/Machine/Ledger.lean ====
section
/-!
DEFINITION. The ledger (05_provisional_folding.md): FOLD.P's decision table (R147-R150), verdicts
(R152, R153, R200), retraction (R156-R158), settlement (R155) and the forced retraction (R160).
-/
namespace Sys2Proof.Machine

/-! ### Entries -/

/-- The open entry of a LOG_SEQ. -/
def ledgerEntry (s : State) (k seq : Nat) : Option LedgerEntry := (s.shelf k).ledger.entries.find? (fun e => e.logSeq == seq)

/-- Change an open entry. -/
def onEntry (k seq : Nat) (f : LedgerEntry → LedgerEntry) (s : State) : State :=
  s.onLedger k (fun l => { l with entries := mapIf (fun e => e.logSeq == seq) f l.entries })

/-- Entries and segment records granted (R145, R166). -/
def ledgerSlice (h : Shelf) : Nat × Nat := match h.desc with | none => (0, 0) | some d => (d.ledger256 * 256, d.seg4k * 4096)

/-- Segment records reserved. -/
def Ledger.segRsv (l : Ledger) : Nat := (l.entries.map (·.plan)).sum

/-- A crate-log state is one of pending outcome. -/
def isAdmitted : LogState → Bool
  | .admitted => true
  | .arriving => false | .committed => false | .retracted => false | .refused => false | .share => false

/-! ### Posting a verdict and retracting (R153, R156) -/

/-- Send a retraction command for each accepted segment to its bay's fold unit. -/
def sendRetractions (k seq : Nat) (s : State) : State :=
  match ledgerEntry s k seq with
  | none => s
  | some e => e.segs.foldl (fun s g =>
      match (s.shelf k).bayOf g.bay with
      | none => s
      | some b => s.onBay b (fun y => { y with retr := y.retr ++ [{ shelf := k, logSeq := seq, seg := g.seg }] })) s

/-- Post a RETRACT with a reason. -/
def postRetract (k seq reason : Nat) (forced : Bool) (s : State) : State :=
  let s := onEntry k seq (fun e => { e with verdict := .retract, reason := reason, forced := forced }) s
  let s := match logEntry s k seq with | none => s | some e => queueReject k e.client s
  sendRetractions k seq s

/-- Post the retraction of an unreadable crate (R158). [log 44 DEDUCED] -/
def postUnreadable (k seq : Nat) (s : State) : State :=
  let already := match ledgerEntry s k seq with | none => false | some e => (match e.verdict with | .retract => true | .pending => false | .commit => false)
  let s := onEntry k seq (fun e => { e with verdict := .retract, unreadable := true }) s
  let s := match logEntry s k seq with | none => s | some e => queueReject k e.client s
  if already then s else sendRetractions k seq s

/-! ### Settlement (R155) -/

/-- The RETRACT commands of a crate in flight. -/
def isRetract (seq : Nat) (c : InFlight) : Bool := c.kind == 0x11 && field c.desc 0x18 8 == seq

/-- How a crate settles. -/
inductive Settle where
  | committed | retracted (reason : Nat) | unreadable
  deriving DecidableEq, Repr

/-- Settle a crate: the entry goes, the client entry, the crate log, the round counter and the reject log
change, and the ring entry is settled (R155, R93). -/
def settle (k seq : Nat) (how : Settle) (s : State) : State :=
  match logEntry s k seq with
  | none => s
  | some e =>
    let s := s.onLedger k (fun l => { l with entries := l.entries.filter (fun x => !(x.logSeq == seq)) })
    let s := settleRing k e.ring seq s
    let s := match how with
      | .committed => setClient k e.client .committed s
      | .retracted _ => setClient k e.client .rejected s
      | .unreadable => setClient k e.client .absent s
    let s := match how with
      | .committed => s.onRound k (fun r => { r with committed := sat 32 1 r.committed })
      | .retracted _ => s.onRound k (fun r => { r with rejected := sat 32 1 r.rejected })
      | .unreadable => s
    let s := match how with
      | .committed => s
      | .retracted reason => rejectCrate k seq reason .verdictReject s
      | .unreadable => rejectCrate k seq 0x11 .uncorrectable s
    let s := finishAll k (isRetract seq) .ok s
    setLogState k seq (match how with | .committed => .committed | .retracted _ => .retracted | .unreadable => .retracted) s

/-- How an open entry would settle now, if it is ready (R155). -/
def settleHow (e : LedgerEntry) : Option Settle :=
  let allRetired := e.segs.all (·.retired)
  if e.unreadable then (if allRetired then some .unreadable else none)
  else match e.verdict with
    | .pending => none
    | .commit => if e.segs.length = e.plan then some .committed else none
    | .retract => if allRetired then some (.retracted e.reason) else none

/-- Settle a crate if it is ready. -/
def trySettle (k seq : Nat) (s : State) : State :=
  match ledgerEntry s k seq with
  | none => s
  | some e => match settleHow e with | none => s | some how => settle k seq how s

/-- A crate whose bytes can be read neither in its ring nor in the log fails (R110, R158): an unsettled
update crate is retracted as unreadable. [log 43 DEDUCED] -/
def failCrate (k seq : Nat) (s : State) : State :=
  match ledgerEntry s k seq, admittedOf s k seq 1 with
  | some _, _ => trySettle k seq (postUnreadable k seq s)
  | none, some e => settle k seq .unreadable (queueReject k e.client s)
  | none, none => s

/-- FLPV (R197): after acceptance a crate that every peer's record already awaits is decided. [log 58 DEDUCED] -/
def execFlpv (q n : Nat) (s : State) : Out :=
  .next (
    let k := (shelfOf s (q / 4)).getD 0
    let seq := field (headDesc s q n) 0x18 8
    let s := accept 0x13 (flpvRun failCrate) q n s
    match logEntry s k seq with
    | none => s
    | some e => decideCrate k e.client s)

/-! ### COMMIT and RETRACT (R152, R153, R200) -/

/-- COMMIT's operation, by the first row of R153 that applies; R200 comes before every row. [log 71 DEDUCED] -/
def commitRun (k : Nat) (d : Bytes) (s : State) : Answer :=
  let h := s.shelf k
  let seq := fWide d
  match logEntry s k seq with
  | none => refuse s
  | some c =>
    if h.round.active && h.round.desc.mode == 2 && !flpvDone s k seq then refuse s
    else if !h.round.active || c.kind != 1 || c.roundId != h.round.desc.roundId then refuse s
    else match ledgerEntry s k seq with
      | some e =>
        match e.verdict with
        | .pending => done .ok (onEntry k seq (fun e => { e with verdict := .commit }) s)
        | .commit => done .ok s
        | .retract => done .verdictReject s
      | none =>
        match c.state with
        | .committed => done .ok s
        | .retracted => done .verdictReject s
        | .admitted => refuse s
        | .arriving => refuse s | .refused => refuse s | .share => refuse s

/-- RETRACT's operation (R152, R153). [log 46 DEDUCED] -/
def retractRun (k : Nat) (d : Bytes) (s : State) : Answer :=
  let h := s.shelf k
  let seq := fWide d
  let reason := field d 8 1
  match logEntry s k seq with
  | none => refuse s
  | some c =>
    if !h.round.active || c.kind != 1 || c.roundId != h.round.desc.roundId || (reason != 0x0F && reason != 0x10) then refuse s
    else match ledgerEntry s k seq with
      | some e =>
        match e.verdict with
        | .pending => (none, 0, postRetract k seq reason false s)
        | .commit => refuse s
        | .retract => done .ok s
      | none =>
        match c.state with
        | .admitted => done .ok (settle k seq (.retracted reason) (queueReject k c.client s))
        | .committed => refuse s
        | .retracted => done .ok s
        | .arriving => refuse s | .refused => refuse s | .share => refuse s

/-! ### FOLD.P (R147-R150, R158) -/

def fPlan (d : Bytes) : Nat := field d 0xA 1
def fSeg (d : Bytes) : Nat := field d 0xB 1

/-- The source bytes of a ring-source fold. -/
def ringBytes (c : Cask) (v : VDesc) (count : Nat) : Nat := blockBytes v.etype.toNat (count * c.coords v.etype.toNat)

/-- The refusals of FOLD.P by R125, R242 and R334: SPEC_REFUSED for an arithmetic without inverse, then the
form of the ring-source operand. -/
def foldPCheck (q : Nat) (k : Nat) (d : Bytes) (s : State) : Option Status :=
  let c := s.cask (foldBay q) (fCask d)
  let v := v0 d
  let al := if v.etype.toNat = 0x0B then 8 else srcBytes v.etype.toNat
  if c.en && !opInvertible c.op then some .specRefused
  else if rangeOk c (fCoff d) (fCount d) && imgClean (slice d 0x20 0x20) && v.rsrc && v.rowsN == 1 && v.stride == 0 &&
      c.accepts v.etype.toNat && decide (v.len.toNat = fCount d * c.coords v.etype.toNat) && decide (v.off.toNat < 2 ^ 30) &&
      v.off.toNat % al == 0 && decide (1 ≤ fPlan d) && decide (fPlan d ≤ 64) && decide (fSeg d < fPlan d) &&
      (if (s.shelf k).sealedRound && c.op == opAddRns then sealedFoldOk (s.shelf k) c (s.bay (foldBay q)).mods v.off.toNat (fCoff d) (fCount d) else true) then none
  else some .paramUnsupported

/-- A FOLD.P names an admitted update crate of the round, by its own ring entry, within payload and
proof material (R147, R149). -/
def foldPCrate (s : State) (k : Nat) (c : Cask) (d : Bytes) : Option LogEntry :=
  let h := s.shelf k
  let v := v0 d
  match logEntry s k (fWide d) with
  | none => none
  | some e =>
    let live := match e.state with | .admitted => true | .committed => true | .retracted => true | .arriving => false | .refused => false | .share => false
    let there := !isAdmitted e.state || ((ringOf s k v.ring.toNat).bind (fun r => r.entry (fWide d))).isSome
    let room := there && e.entryOffset == v.base.toNat && decide (v.off.toNat + ringBytes c v (fCount d) ≤ e.body)
    if live && e.kind == 1 && e.roundId == h.round.desc.roundId && e.ring == v.ring.toNat && room then some e else none

/-- The segment record that a FOLD.P makes (R162). -/
def segmentOf (s : State) (k q : Nat) (d : Bytes) : Segment :=
  let v := v0 d
  { bay := (s.shelf k).bayIndex (foldBay q), cask := fCask d, seg := fSeg d, neg := nbit (fOpf d) 0
    etype := v.etype.toNat, scaleE := v.scaleE.toNat, coff := fCoff d, count := fCount d, srcOff := v.off.toNat
    tile := (s.cask (foldBay q) (fCask d)).sel, cut := (s.shelf k).wpt.cuts }

/-- Two segments have identical operands. -/
def sameSegment (a b : Segment) : Bool :=
  a.bay == b.bay && a.cask == b.cask && a.seg == b.seg && a.neg == b.neg && a.etype == b.etype && a.scaleE == b.scaleE &&
  a.coff == b.coff && a.count == b.count && a.srcOff == b.srcOff

/-- Fold a segment's terms from source bytes. -/
def foldSegment (b : Nat) (g : Segment) (neg undo : Bool) (bytes : Bytes) (s : State) : State :=
  let mods := (s.bay b).mods
  (readFold b g.cask g.coff g.count s).onCask b g.cask (fun c =>
    let raws := c.raws g.etype (g.count * c.coords g.etype) g.count [bytes]
    (c.foldRange mods g.etype (sext 8 g.scaleE) neg undo false g.coff raws).countFold mods)

/-- The bytes of a segment's source that feed a part of its range, as (place, length). -/
def segBytesOf (c : Cask) (g : Segment) (p : Nat × Nat) : Nat × Nat :=
  if g.etype = 0x0B then
    let w := c.coords 0x0B
    (p.1 * w / 8, (p.1 * w % 8 + p.2 * w + 7) / 8)
  else (p.1 * srcBytes g.etype, p.2 * srcBytes g.etype)

/-- A FOLD.P that folds: the segment is recorded and its terms are folded; a source that is unreadable in
the ring and in the log leaves the Cask as it was and fails the crate (R126, R158). [log 44 DEDUCED, 45 DEDUCED] -/
def foldPFold (q k : Nat) (d : Bytes) (s : State) : Answer :=
  let seq := fWide d
  let g := segmentOf s k q d
  let b := foldBay q
  let c := s.cask b g.cask
  let n := ringBytes c (v0 d) g.count
  let s0 := s
  let ok (s : State) (r : Nat) : Bool :=
    let x := segBytesOf c g (c.rowPart r g.coff g.count)
    (crateRead k seq (512 + g.srcOff + x.1) x.2 s).1 == .ok
  let (st, bytes, s) := crateRead k seq (512 + g.srcOff) n s
  if st = .ok then
    let s := onEntry k seq (fun e => { e with segs := e.segs ++ [g] }) s
    done .ok (foldSegment b g g.neg false bytes s)
  else
    let mods := (s.bay b).mods
    let rows := remain (ok s0) (ok s) (c.rowsOf g.coff g.count)
    let raws := c.raws g.etype (g.count * c.coords g.etype) g.count [(crateRead k seq (512 + g.srcOff) n s0).2.1]
    let s := (readFold b g.cask g.coff g.count s).onCask b g.cask (fun c =>
      (c.keepChanged mods g.etype (sext 8 g.scaleE) g.neg g.coff g.count (fun p => (raws.drop p.1).take p.2) rows).countFold mods)
    let s := s.onLedger k (fun l => { l with fault := true, status := st.code, faultSeq := seq % 2 ^ 48 })
    done st (postUnreadable k seq s)

/-- Count a FOLD.P that folds nothing (R149, R166). -/
def foldPNoop (k : Nat) (st : Status) (s : State) : Answer :=
  done st (s.onLedger k (fun l => { l with noopSegs := sat 32 1 l.noopSegs }))

/-- The ledger's decision on a FOLD.P, by the first row of R149 that applies. [log 47 DEDUCED] -/
def foldPRun (q k : Nat) (d : Bytes) (s : State) : Answer :=
  let h := s.shelf k
  let c := s.cask (foldBay q) (fCask d)
  if !h.round.active || h.round.phase != .collect || !h.round.begun || h.round.frozen then refuse s
  else match foldPCrate s k c d with
    | none => refuse s
    | some crate =>
      match crate.state with
      | .retracted => foldPNoop k .verdictReject s
      | .committed => refuse s
      | .arriving => refuse s | .refused => refuse s | .share => refuse s
      | .admitted =>
        match ledgerEntry s k (fWide d) with
        | none =>
          let e : LedgerEntry := { logSeq := fWide d, client := crate.client, plan := fPlan d }
          let s := s.onLedger k (fun l => { l with entries := l.entries ++ [e], highOpen := max l.highOpen (l.entries.length + 1) })
          foldPFold q k d s
        | some e =>
          let g := segmentOf s k q d
          match e.segs.find? (fun x => x.seg == g.seg) with
          | some x => if e.plan = fPlan d ∧ sameSegment x g then foldPNoop k .ok s else refuse s
          | none =>
            if e.plan ≠ fPlan d then refuse s
            else match e.verdict with
              | .pending => foldPFold q k d s
              | .commit => foldPFold q k d s
              | .retract => foldPNoop k .verdictReject s

/-- A FOLD.P of sequencer q would open an entry for which the slice lacks space (R150). -/
def lacksSpace (s : State) (q k : Nat) (d : Bytes) : Bool :=
  let h := s.shelf k
  let slice := ledgerSlice h
  layoutOk d && (foldPCheck q k d s).isNone && h.round.active && h.round.phase == .collect && h.round.begun && !h.round.frozen &&
  (match foldPCrate s k (s.cask (foldBay q) (fCask d)) d with | none => false | some e => isAdmitted e.state) &&
  (ledgerEntry s k (fWide d)).isNone &&
  !(decide (h.ledger.entries.length < slice.1) && decide (h.ledger.segRsv + fPlan d ≤ slice.2))

/-- Queue n of sequencer q offers a FOLD.P that waits for space (R150). -/
def foldPWaits (s : State) (q n : Nat) : Bool :=
  offers s q n 0x03 && !isHeld s q n && lacksSpace s q ((shelfOf s (q / 4)).getD 0) (headDesc s q n)

/-- The fold unit passes over it in its turn. [log 45 DEDUCED] -/
def foldPStalls (s : State) (q n : Nat) : Bool := foldPWaits s q n && inTurn s q n

/-- LEDGER_STATUS.STALLED (R150, R166). [log 45 DEDUCED] -/
def ledgerStalled (s : State) (k : Nat) : Bool :=
  (s.shelf k).seqs.any (fun q => [0, 1, 2, 3].any (foldPWaits s q)) ||
  (s.shelf k).bays.any (fun b => (s.bay b).hold.any (fun h => dKind (heldDesc s h) == 0x03 && lacksSpace s h.seq k (heldDesc s h)))

/-- The fold unit takes a FOLD.P (R149), or passes over one that lacks ledger space (R150). [log 45 DEDUCED] -/
def foldPTake (q n : Nat) (s : State) : State :=
  if foldPStalls s q n then
    s.onLedger ((shelfOf s (q / 4)).getD 0) (fun l => { l with stalls := sat 32 1 l.stalls })
  else foldAccept 0x03 (foldPCheck q) (foldPRun q) q n s

/-! ### Retractions at the fold unit (R156, R157, R139) -/

/-- Fold a segment's inverse terms into its recorded Keg tile (R139). -/
def Cask.unfoldKeg (c : Cask) (mods : Tab Word) (g : Segment) (neg : Bool) : Nat → List Nat → Cask
  | _, [] => c
  | e, raw :: r =>
    let t := c.term mods e g.etype raw (sext 8 g.scaleE)
    let c := c.count true t
    let t := if neg then c.negTerm t else t
    let i := g.tile * c.len + e
    { c with kegs := tput c.kegs i (c.kegFold mods e (tget c.kegIdent c.kegs i) t.val) }.unfoldKeg mods g neg (e + 1) r

/-- The retraction of one segment retires. -/
def retireSegment (k seq seg : Nat) (s : State) : State :=
  let s := onEntry k seq (fun e => { e with segs := mapIf (fun g => g.seg == seg) (fun g => { g with retractAcc := true, retired := true }) e.segs }) s
  s.onLedger k (fun l => { l with retractSegs := sat 32 1 l.retractSegs })

/-- The oldest retraction command of a bay runs: the segment's source is read again from the crate log,
or from the ring entry, and its inverse terms are folded. Where both reads fail, the rows are poisoned,
LEDGER_FAULT records the crate, and `recover` rolls the shelf back or ends the round (R157). [log 44 DEDUCED, 45 DEDUCED] -/
def segmentRetraction (recover : Nat → Segment → Status → State → State) (b : Nat) (s : State) : State :=
  match (s.bay b).retr with
  | [] => s
  | r :: rest =>
    let s := s.onBay b (fun y => { y with retr := rest })
    match (ledgerEntry s r.shelf r.logSeq).bind (fun e => e.segs.find? (fun g => g.seg == r.seg)), logEntry s r.shelf r.logSeq with
    | some g, some e =>
      let c := s.cask b g.cask
      let n := blockBytes g.etype (g.count * c.coords g.etype)
      let (st, bytes) := clogRead s r.shelf (e.offset + 64 + 512 + g.srcOff) n
      let s := noteClog r.shelf (e.offset + 64 + 512 + g.srcOff) n s
      let ring := (ringOf s r.shelf e.ring).bind (fun x => (x.entry r.logSeq).map (fun y => (x, y)))
      let (got, s) : Option Bytes × State :=
        if st = .ok then (some bytes, s)
        else match ring with
          | none => (none, s)
          | some (x, y) => ringRead r.shelf e.ring x y (512 + g.srcOff) n s
      match got with
      | some bs =>
        let mods := (s.bay b).mods
        let s :=
          if g.tile = c.sel then foldSegment b g (!g.neg) true bs s
          else (readKeg b g.cask (c.kegSpan g.tile g.coff g.count) s).onCask b g.cask (fun c => c.unfoldKeg mods g (!g.neg) g.coff (c.raws g.etype (g.count * c.coords g.etype) g.count [bs]))
        retireSegment r.shelf r.logSeq r.seg s
      | none =>
        let mods := (s.bay b).mods
        let s :=
          if g.tile = c.sel then s.onCask b g.cask (fun c => (c.poisonRange g.coff g.count).countFold mods)
          else s.onCask b g.cask (fun c => { c with kegBad := addRows c.kegBad (c.kegSpan g.tile g.coff g.count) })
        let s := s.onLedger r.shelf (fun l => { l with fault := true, status := st.code, faultSeq := r.logSeq % 2 ^ 48 })
        recover r.shelf g st (retireSegment r.shelf r.logSeq r.seg s)
    | _, _ => s

/-- Send again the retractions that had not been accepted (R163 step 1). -/
def resendRetractions (k : Nat) (e : LedgerEntry) (s : State) : State :=
  match e.verdict with
  | .retract => (e.segs.filter (fun g => !g.retractAcc)).foldl (fun s g =>
      match (s.shelf k).bayOf g.bay with
      | none => s
      | some b => s.onBay b (fun y => { y with retr := y.retr ++ [{ shelf := k, logSeq := e.logSeq, seg := g.seg }] })) s
  | .pending => s
  | .commit => s

/-! ### The forced retraction (R160) -/

/-- The admitted update crates of the running round that are not settled (R99, R160). -/
def unsettled (s : State) (k : Nat) : List LogEntry :=
  let h := s.shelf k
  h.intake.log.filter (fun e => isAdmitted e.state && e.kind == 1 && e.roundId == h.round.desc.roundId)

/-- Post a RETRACT to every unsettled update crate of the round, a RETRACT already posted standing as it is (R153, R160). [log 43 DEDUCED] -/
def forceRetract (k : Nat) (s : State) : State :=
  let reason := if (s.shelf k).round.desc.mode = 2 then 0x10 else 0x0F
  (unsettled s k).foldl (fun s c =>
    match ledgerEntry s k c.logSeq with
    | none =>
      settle k c.logSeq (.retracted reason) (queueReject k c.client (s.onLedger k (fun l => { l with forced := sat 16 1 l.forced })))
    | some e =>
      match e.verdict with
      | .retract => onEntry k c.logSeq (fun e => { e with forced := true }) (s.onLedger k (fun l => { l with forced := sat 16 1 l.forced }))
      | .pending => postRetract k c.logSeq reason true (s.onLedger k (fun l => { l with forced := sat 16 1 l.forced }))
      | .commit => postRetract k c.logSeq reason true (s.onLedger k (fun l => { l with forced := sat 16 1 l.forced }))) s

end Sys2Proof.Machine
end

