-- ==== Sys2Proof/Machine/Recovery.lean ====
section
/-!
DEFINITION. Masks, seeds and dropout recovery (06_masks_and_recovery.md): the neighbour graph (R168,
R170), seeds and masks (R172, R173), the streams and mask forms of the keystream block (R175, R176), the
curve engines (R177, R178), shares and their reconstruction (R180-R184), and the round controller's
checks (R183, R186).
-/
namespace Sys2Proof.Machine

/-- Change the recovery state of shelf k. -/
def State.onRecov (s : State) (k : Nat) (f : Recov → Recov) : State := s.onShelf k (fun h => { h with recov := f h.recov })

def rMaskkeyBase : Nat := 0x0900

/-- DEGREE, where 0 selects 64 (R168). -/
def RoundDesc.k (d : RoundDesc) : Nat := if d.degree = 0 then 64 else d.degree

/-! ### The neighbour graph (R168, R170) -/

/-- The least m with n at most 2^m. -/
def clog2 (n : Nat) : Nat := if n ≤ 1 then 0 else (n - 1).log2 + 1

/-- h of R168. -/
def graphHalf (n : Nat) : Nat := (clog2 n + 1) / 2

/-- The round function F_r under the key schedule of GRAPH_SEED. -/
def graphF (ks : List Bytes) (h r x : Nat) : Nat :=
  leNat ((aesBlockK ks (toLe 4 r ++ toLe 4 x ++ zeros 8)).take 4) % 2 ^ h

/-- E of R168. -/
def graphE (ks : List Bytes) (h y : Nat) : Nat :=
  let e := [0, 1, 2, 3].foldl (fun (a : Nat × Nat) r => (a.2, a.1 ^^^ graphF ks h r a.2)) (y >>> h, y % 2 ^ h)
  e.1 * 2 ^ h + e.2

/-- The inverse of E: for r = 3 down to 0, (L, R) becomes (R XOR F_r(L), L). -/
def graphEInv (ks : List Bytes) (h y : Nat) : Nat :=
  let e := [3, 2, 1, 0].foldl (fun (a : Nat × Nat) r => (a.2 ^^^ graphF ks h r a.1, a.1)) (y >>> h, y % 2 ^ h)
  e.1 * 2 ^ h + e.2

/-- Apply f until the result is below n. -/
def graphWalk (f : Nat → Nat) (n : Nat) : Nat → Nat → Nat
  | 0, x => x
  | m + 1, x => let y := f x; if y < n then y else graphWalk f n m y

/-- P and its inverse on [0, n). -/
def graphP (ks : List Bytes) (n x : Nat) : Nat := graphWalk (graphE ks (graphHalf n)) n (2 ^ (2 * graphHalf n)) x
def graphPInv (ks : List Bytes) (n x : Nat) : Nat := graphWalk (graphEInv ks (graphHalf n)) n (2 ^ (2 * graphHalf n)) x

/-- The neighbours of the client at index j from CLIENT_BASE, as such indices in ascending order. -/
def neighbours (d : RoundDesc) (j : Nat) : List Nat :=
  let ks := aesKeys d.graphSeed
  let n := d.clientCount
  let p := graphP ks n j
  (List.range (d.k / 2)).foldl (fun l i =>
    insSet (graphPInv ks n ((p + i + 1) % n)) (insSet (graphPInv ks n ((p + n - (i + 1) % n) % n)) l)) []

/-- The holder set H of a client, ascending (R170). -/
def holders (d : RoundDesc) (j : Nat) : List Nat := insSet j (neighbours d j)

/-- The x-coordinate of the holder at index j from CLIENT_BASE (R170). -/
def holderX (d : RoundDesc) (j : Nat) : Nat := d.clientBase + j + 1

/-! ### Seeds (R172) -/

/-- The 16-byte info of R172 for client indices v and w. -/
def seedInfo (d : RoundDesc) (v w : Nat) : Bytes := toLe 8 d.roundId ++ toLe 4 v ++ toLe 4 w

/-- The pair seed of two clients from their X25519 output. -/
def pairSeed (d : RoundDesc) (v w : Nat) (shared : Bytes) : Bytes := hkdf256 shared (seedInfo d (min v w) (max v w)) 32

/-- The self-mask key of client v from its seed. -/
def selfKey (d : RoundDesc) (v : Nat) (seed : Bytes) : Bytes := hkdf256 seed (seedInfo d v v) 32

/-- COMMIT of a client's self-mask seed (R179). -/
def seedCommit (d : RoundDesc) (v : Nat) (seed : Bytes) : Bytes := sha3 (0x53 :: toLe 8 d.roundId ++ toLe 4 v ++ seed)

/-! ### Masks (R173) -/

/-- One block of the round's PRG: candidate r of block q, for a width of w bytes. -/
def prgBlock (shake : Bool) (key : Bytes) (ks : List Bytes) (q r : Nat) : Bytes :=
  if shake then shake256 (0x4B :: key ++ toLe 8 q ++ toLe 4 r) 136
  else aesBlockK ks (toBe 8 r ++ toBe 8 q)

/-- The first candidate below the modulus, of its low L bits. [log 54 DEDUCED] -/
def firstBelow (f : Nat → Nat) (m l : Nat) : Nat → Nat → Nat
  | 0, _ => 0
  | n + 1, r => let v := f r % 2 ^ l; if v < m then v else firstBelow f m l n (r + 1)

/-- The mask of a key at global coordinate c, for a fold arithmetic. [log 54 DEDUCED] -/
def maskAt (op modulus : Nat) (shake : Bool) (key : Bytes) (ks : List Bytes) (c : Nat) : Nat :=
  let per := if op = opAdd32 then (if shake then 32 else 4) else (if shake then 16 else 2)
  let w := if op = opAdd32 then 4 else 8
  let cand (r : Nat) : Nat := field (prgBlock shake key ks (c / per) r) (w * (c % per)) w
  if op = opAddP then firstBelow cand modulus (modulus.log2 + 1) (if shake then 2 ^ 32 else 2 ^ 64) 0 else cand 0

/-- The masks of a key at coordinates c, c + 1, …. -/
def masks (op modulus : Nat) (shake : Bool) (key : Bytes) (c n : Nat) : List Nat :=
  let ks := if shake then [] else aesKeys key
  (List.range n).map (fun i => maskAt op modulus shake key ks (c + i))

/-! ### Survivors and dropped clients (R68) -/

/-- Survivors of a masked-sum round, from CLIENT_BASE, ascending. -/
def survivors (s : State) (k : Nat) : List Nat := clientsWhere s k Client.isCommitted

/-- Dropped clients, ascending. -/
def dropped (s : State) (k : Nat) : List Nat := clientsWhere s k (fun c => !c.isCommitted)

/-- Whether the client at index j survives. -/
def survives (s : State) (k j : Nat) : Bool := (ctabGet s k j).isCommitted

/-! ### Mask forms (R175, R176) -/

/-- The entries that a mask form names, as (key, NEG); none where one is missing or out of range. -/
def maskEntries (s : State) (k set first num : Nat) : Option (List (Bytes × Bool)) :=
  let h := s.shelf k
  let d := h.round.desc
  if set = 0 then
    let l := survivors s k
    if l.length < first + num then none
    else ((l.drop first).take num).mapM (fun j => if tmem h.recov.selfKeys j then some (tget [] h.recov.selfKeys j, true) else none)
  else if set = 1 then
    let l := dropped s k
    if l.length * d.k < first + num then none
    else some (((List.range num).map (· + first)).filterMap (fun i =>
      if tmem h.recov.pairs i then
        let u := l.getD (i / d.k) 0
        let v := (neighbours d u).getD (i % d.k) 0
        some (tget [] h.recov.pairs i, decide (v < u))
      else none))
  else none

/-- The source type that a fold arithmetic's masks have (R117). -/
def maskEtype (op : Nat) : Nat := if op = opAdd32 then 0x01 else if op = opAdd64 then 0x02 else 0x07

def mSet (d : Bytes) : Nat := field d 0xB 1
def mFirst (d : Bytes) : Nat := field d 0x18 4
def mNum (d : Bytes) : Nat := field d 0x1C 4

/-- The refusals of a mask form (R125, R175, R176). -/
def maskCheck (shake : Bool) (q k : Nat) (d : Bytes) (s : State) : Option Status :=
  let r := (s.shelf k).round
  let c := s.cask (foldBay q) (fCask d)
  if rangeOk c (fCoff d) (fCount d) && r.active && r.desc.mode == 1 && r.phase == .unmask && r.begun &&
      nbit r.desc.flags 0 == shake && c.op == r.desc.foldOp && (maskEntries s k (mSet d) (mFirst d) (mNum d)).isSome then none
  else some .paramUnsupported

/-- A mask form runs: each mask is folded as one fold, and its elements count for R186. -/
def maskRun (shake : Bool) (q k : Nat) (d : Bytes) (s : State) : Answer :=
  let b := foldBay q
  let ci := fCask d
  let mods := (s.bay b).mods
  let r := (s.shelf k).round.desc
  let l := (maskEntries s k (mSet d) (mFirst d) (mNum d)).getD []
  let s := l.foldl (fun s e =>
    let m := masks r.foldOp r.modulus shake e.1 (field d 0x14 4) (fCount d)
    (readFold b ci (fCoff d) (fCount d) s).onCask b ci (fun c => (c.foldRange mods (maskEtype r.foldOp) 0 e.2 false false (fCoff d) m).countFold mods)) s
  done .ok (s.onRecov k (fun x => { x with folded := tupd 0 x.folded (b * 64 + ci) (· + l.length * fCount d) }))

/-- XSTREAM_M (R176). -/
def execXstreamM (q n : Nat) (s : State) : Out := .next (foldAccept 0x07 (maskCheck false q) (maskRun false q) q n s)

/-- SHAKE_M (R176). -/
def execShakeM (q n : Nat) (s : State) : Out := .next (foldAccept 0x08 (maskCheck true q) (maskRun true q) q n s)

/-! ### Streams (R175) -/

/-- The use of a keystream slot: encrypt by the sequencer master. -/
def xstreamUse (k : Nat) : KeyUse := { usages := [uEncrypt], kinds := [1], master := .sequencer, shelf := some k }

/-- XSTREAM: AES-256-CTR keystream under a chest slot bound at issue (R32). [log 52 DESIGN CHOICE] -/
def xstreamRun (k : Nat) (d : Bytes) (s : State) : Answer :=
  let n := field d 0x10 8
  let dst := field d 0x18 8
  if !operandOk s k dst n 8 then refuse s
  else match bindCur s (field d 8 1) (xstreamUse k) with
    | .error st => done st s
    | .ok h => done .ok (vwrite s k dst (aesCtr h.key (beNat (slice d 0x20 16)) n))

/-- XSTREAM (R175). -/
def execXstream (q n : Nat) (s : State) : Out := .next (accept 0x18 xstreamRun q n s)

/-- A hash of a source range written to DST; a failed read poisons the DST range instead. -/
def hashRun (out : Bytes → Bytes) (len : Nat) (k : Nat) (d : Bytes) (s : State) : Answer :=
  let dst := field d 0x18 8
  let src := field d 0x20 8
  let n := field d 0x28 8
  if operandOk s k dst len 8 && operandOk s k src n 8 then
    let st := if n = 0 then .ok else vstat s k src n
    let s := noteRead k src n s
    if st = .ok then done .ok (vwrite s k dst (out (vread s k src n)))
    else done st (vpoison s k dst len)
  else refuse s

/-- SHAKE (R175). -/
def execShake (q n : Nat) (s : State) : Out :=
  .next (accept 0x19 (fun k d s => hashRun (fun b => shake256 b (field d 0x10 8)) (field d 0x10 8) k d s) q n s)

/-- DIGEST (R175): a LENGTH other than zero is refused (R332). -/
def execDigest (q n : Nat) (s : State) : Out :=
  .next (accept 0x1A (fun k d s => hashRun sha3 32 k d s) q n s)

/-! ### SIGV (R177) -/

/-- Verification of a crate's signature over header bytes 0x000-0x0FF, from the header and the trailer. -/
def crateSigOk (head trailer key : Bytes) : Bool :=
  let m := head.take 256
  let sig := slice head 0x100 64
  match field head 0x1E 1 with
  | 1 => edVerify (key.take 32) m sig
  | 2 => p256.verify (p256.decompress (key.take 33)) (sha256 m) sig
  | _ =>
    let pub := trailer.drop 3309
    sha3 pub == key.take 32 && mlDsa65.verify pub m (trailer.take 3309)

/-- What SIGV reads of a crate: its header and, for ML-DSA-65, its trailer. -/
def sigParts (k seq : Nat) (s : State) : Status × Bytes × Bytes × State :=
  let (st, head, s) := crateRead k seq 0 512 s
  if st ≠ .ok ∨ field head 0x30 4 = 0 then (st, head, [], s)
  else
    let (st, trailer, s) := crateRead k seq (512 + field head 0x28 4 + field head 0x2C 4) (field head 0x30 4) s
    (st, head, trailer, s)

/-- The crate of an admitted update or share crate of the running round, settled or not, whose log
entry is held. [log 51 DEDUCED] -/
def heldCrate (s : State) (k seq : Nat) : Option LogEntry :=
  let h := s.shelf k
  match logEntry s k seq with
  | none => none
  | some e =>
    let ok := match e.state with
      | .admitted => true | .committed => true | .retracted => true | .share => true | .arriving => false | .refused => false
    if ok && h.round.active && e.roundId == h.round.desc.roundId then some e else none

/-- SIGV's operation (R177); a crate of which it can read neither copy completes UNCORRECTABLE and, an update crate, fails (R110). [log 43 DEDUCED, 51 DEDUCED] -/
def sigvRun (k : Nat) (d : Bytes) (s : State) : Answer :=
  let seq := fWide d
  match heldCrate s k seq with
  | none => refuse s
  | some e =>
    let (st, head, trailer, s) := sigParts k seq s
    if st = .ok then done (if crateSigOk head trailer e.key then .ok else .verdictReject) s
    else done .uncorrectable (failCrate k seq s)

/-- SIGV (R177). -/
def execSigv (q n : Nat) (s : State) : Out := .next (accept 0x12 sigvRun q n s)

/-! ### LAGR.IN (R180-R182) -/

def p127 : Nat := 2 ^ 127 - 1

/-- A share crate's handling ends: STATE 0x5, and its ring entry is settled (R182, R93). -/
def shareDone (k seq : Nat) (s : State) : State :=
  match logEntry s k seq with
  | none => s
  | some e => setLogState k seq .share (settleRing k e.ring seq s)

/-- One slot of a share crate from sender v, whose target is w at position `pos` of H(v) and which the
share table keeps at position `at_` of H(w) (R182). [log 50 DEDUCED, 53 DESIGN CHOICE] -/
def shareSlot (k v w at_ : Nat) (b : Bytes) (s : State) : State :=
  let d := (s.shelf k).round.desc
  let kind := field b 0 1
  let l0 := field b 0x10 16
  let l1 := field b 0x20 16
  let l2 := field b 0x30 16
  if kind = 0 then s
  else if field b 4 4 ≠ d.clientBase + w ∨ 2 < kind ∨ !zeroAt b 1 3 ∨ !zeroAt b 8 8 ∨ p127 ≤ l0 ∨ p127 ≤ l1 ∨ p127 ≤ l2 then
    s.onRecov k (fun x => { x with invalid := sat 32 1 x.invalid })
  else if (kind == 1) == survives s k w || (kind == 1 && w == v) then
    s.onRecov k (fun x => { x with wrongKind := sat 32 1 x.wrongKind })
  else
    s.onRecov k (fun x => { x with
      accepted := sat 32 1 x.accepted
      shares := tput x.shares (w * (d.k + 1) + at_) { l0 := l0, l1 := l1, l2 := l2 } })

/-- LAGR.IN's operation (R182). [log 54 DEDUCED, 69 DEDUCED] -/
def lagrInRun (k : Nat) (d : Bytes) (s : State) : Answer :=
  let r := (s.shelf k).round
  let seq := fWide d
  match admittedOf s k seq 2 with
  | none => refuse s
  | some e =>
    if r.phase ≠ .recover ∨ !r.begun ∨ pastExchange s k then refuse s
    else if nbit (field d 9 1) 0 then done .ok (shareDone k seq (rejectCrate k seq 0x0F .verdictReject s))
    else
      let (st, pay, s) := crateRead k seq 512 ((r.desc.k + 1) * 64) s
      if st ≠ .ok then done st (shareDone k seq (rejectCrate k seq 0x11 st s))
      else
        let v := e.client - r.desc.clientBase
        let s := (holders r.desc v).zipIdx.foldl (fun s x =>
          shareSlot k v x.1 ((holders r.desc x.1).findIdx (· == v)) (slice pay (x.2 * 64) 64) s) s
        done .ok (shareDone k seq s)

/-- LAGR_IN (R182). -/
def execLagrIn (q n : Nat) (s : State) : Out := .next (accept 0x14 lagrInRun q n s)

/-! ### T_EXCHANGE (R183) -/

/-- The stored shares of client w as (x, share), by ascending x. -/
def storedShares (s : State) (k w : Nat) : List (Nat × Share) :=
  let h := s.shelf k
  let d := h.round.desc
  (holders d w).zipIdx.filterMap (fun e =>
    let i := w * (d.k + 1) + e.2
    if tmem h.recov.shares i then some (holderX d e.1, tget { l0 := 0, l1 := 0, l2 := 0 } h.recov.shares i) else none)

/-- Share crates of the round that no LAGR.IN has taken are discarded (R183). [log 28 DEDUCED] -/
def discardShares (k : Nat) (s : State) : State :=
  let h := s.shelf k
  (h.intake.log.filter (fun e => isAdmitted e.state && e.kind == 2 && e.roundId == h.round.desc.roundId)).foldl
    (fun s e => (shareDone k e.logSeq s).onRecov k (fun x => { x with unused := sat 32 1 x.unused })) s

/-- The device's part of T_EXCHANGE in a masked-sum round: the discard and the check of R70. -/
def recovExchange (k : Nat) (s : State) : State :=
  let r := (s.shelf k).round
  if r.desc.mode = 1 then
    withTable k (fun s =>
    let s := discardShares k s
    match (List.range r.desc.clientCount).find? (fun w => decide ((storedShares s k w).length < r.desc.threshold)) with
    | none => s.onRecov k (fun x => { x with checked := true })
    | some w =>
      endRound k .abandoned .ok (s.onRecov k (fun x => { x with short := true, firstBad := r.desc.clientBase + w }))) s
  else s

/-! ### LAGR (R181, R184) -/

/-- The Lagrange coefficient at zero of the share at x_i among the x of a window. -/
def lambda (xs : List Nat) (xi : Nat) : Nat :=
  (xs.filter (· != xi)).foldl (fun l xj => l * xj % p127 * invMod p127 (xj + p127 - xi) % p127) 1

/-- One limb of a window. -/
def limbAt (win : List (Nat × Share)) (f : Share → Nat) : Nat :=
  (win.map (fun e => lambda (win.map (·.1)) e.1 * f e.2)).sum % p127

/-- The secret of a window, if its limbs are in range. -/
def windowSecret (win : List (Nat × Share)) : Option Bytes :=
  let a := limbAt win Share.l0
  let b := limbAt win Share.l1
  let c := limbAt win Share.l2
  if a < 2 ^ 120 ∧ b < 2 ^ 120 ∧ c < 2 ^ 16 then some (toLe 15 a ++ toLe 15 b ++ toLe 2 c) else none

/-- The address of the mask-key entry of the client at index w (R179). -/
def maskkeyAddr (h : Shelf) (w : Nat) : Nat := bits (h.reg rMaskkeyBase) 47 6 * 64 + w * 64

/-- A secret passes against PUBKEY or COMMIT (R184). -/
def secretOk (s : State) (k w : Nat) (sec : Bytes) : Bool :=
  let h := s.shelf k
  let d := h.round.desc
  let e := vread s k (maskkeyAddr h w) 64
  if survives s k w then seedCommit d (d.clientBase + w) sec == e.drop 32 else x25519 sec basePoint == e.take 32

/-- The first window of 0 to 3 that passes. -/
def reconstruct (s : State) (k w : Nat) : Option Bytes :=
  let t := (s.shelf k).round.desc.threshold
  let l := storedShares s k w
  ([0, 1, 2, 3].filter (fun i => decide (i + t ≤ l.length))).findSome? (fun i =>
    match windowSecret ((l.drop i).take t) with
    | none => none
    | some x => if secretOk s k w x then some x else none)

/-- The clients of a command's range, from CLIENT_BASE. [log 51 DEDUCED] -/
def clientRange (d : RoundDesc) (first num : Nat) : List Nat :=
  (List.range d.clientCount).filter (fun j => decide (first ≤ d.clientBase + j) && decide (d.clientBase + j < first + num))

/-- Reconstruct the clients of a list in turn (R184). [log 50 DEDUCED, 52 DESIGN CHOICE] -/
def lagrClients (k : Nat) : List Nat → State → Answer
  | [], s => done .ok s
  | w :: r, s =>
    let h := s.shelf k
    let d := h.round.desc
    if tmem h.recov.secrets w then lagrClients k r s
    else
      let st := vstat s k (maskkeyAddr h w) 64
      let s := noteRead k (maskkeyAddr h w) 64 s
      if st ≠ .ok then done st s
      else match reconstruct s k w with
        | none =>
          done .verdictReject (endRound k .abandoned .verdictReject
            (s.onRecov k (fun x => { x with checkFail := true, firstBad := d.clientBase + w })))
        | some sec =>
          lagrClients k r (s.onRecov k (fun x => { x with
            secrets := tput x.secrets w sec, secretsN := sat 32 1 x.secretsN
            selfKeys := if survives s k w then tput x.selfKeys w (selfKey d (d.clientBase + w) sec) else x.selfKeys }))

/-- Whether LAGR and ECDH may run: a masked-sum round whose CHECKED is 1. -/
def recovChecked (h : Shelf) : Bool := h.round.active && h.round.desc.mode == 1 && h.recov.checked

/-- LAGR (R184). -/
def execLagr (q n : Nat) (s : State) : Out :=
  .next (accept 0x15 (fun k d s =>
    if recovChecked (s.shelf k) then lagrClients k (clientRange (s.shelf k).round.desc (field d 0xC 4) (field d 0x10 4)) s
    else refuse s) q n s)

/-! ### ECDH (R178) -/

/-- The pair slots of a dropped client u of rank `rank`: (slot, survivor). -/
def pairSlots (s : State) (k rank u : Nat) : List (Nat × Nat) :=
  let d := (s.shelf k).round.desc
  ((neighbours d u).zipIdx.map (fun e => (rank * d.k + e.2, e.1))).filter (fun e => survives s k e.2)

/-- Fill the pair slots of a dropped client. [log 52 DESIGN CHOICE] -/
def ecdhSlots (k u : Nat) : List (Nat × Nat) → State → Answer
  | [], s => done .ok s
  | (i, v) :: r, s =>
    let h := s.shelf k
    let d := h.round.desc
    if tmem h.recov.pairs i then ecdhSlots k u r s
    else
      let st := vstat s k (maskkeyAddr h v) 64
      let s := noteRead k (maskkeyAddr h v) 64 s
      if st ≠ .ok then done st s
      else
        let out := x25519 (tget [] h.recov.secrets u) (vread s k (maskkeyAddr h v) 32)
        if out.all (· == 0) then done .verdictReject (endRound k .abandoned .verdictReject s)
        else ecdhSlots k u r (s.onRecov k (fun x => { x with
          pairs := tput x.pairs i (pairSeed d (d.clientBase + u) (d.clientBase + v) out), pairsN := sat 32 1 x.pairsN }))

/-- Fill the pair slots of the dropped clients of a range, given as (client, rank). -/
def ecdhClients (k : Nat) : List (Nat × Nat) → State → Answer
  | [], s => done .ok s
  | (u, rank) :: r, s =>
    let a := ecdhSlots k u (pairSlots s k rank u) s
    if a.1 = some .ok then ecdhClients k r a.2.2 else a

/-- ECDH's operation. -/
def ecdhRun (k : Nat) (d : Bytes) (s : State) : Answer :=
  let h := s.shelf k
  let range := clientRange h.round.desc (field d 0xC 4) (field d 0x10 4)
  let l := (dropped s k).zipIdx.filter (fun e => range.contains e.1)
  if recovChecked h && l.all (fun e => tmem h.recov.secrets e.1) then ecdhClients k l s else refuse s

/-- ECDH (R178). -/
def execEcdh (q n : Nat) (s : State) : Out := .next (accept 0x16 ecdhRun q n s)

/-! ### The round controller's checks (R185, R186) -/

/-- Every required secret and pair seed is present. -/
def recoverComplete (s : State) (k : Nat) : Bool :=
  let x := (s.shelf k).recov
  (List.range (s.shelf k).round.desc.clientCount).all (fun w => tmem x.secrets w) &&
  (dropped s k).zipIdx.all (fun e => (pairSlots s k e.2 e.1).all (fun i => tmem x.pairs i.1))

/-- Every enabled Cask of the shelf has had every mask folded at each of its elements. -/
def unmaskComplete (s : State) (k : Nat) : Bool :=
  let h := s.shelf k
  let want := (survivors s k).length + h.recov.pairs.length
  h.bays.all (fun b => (s.bay b).casks.all (fun e => !e.2.en || tget 0 h.recov.folded (b * 64 + e.1) == want * e.2.len))

/-- The parts of the recovery region, each rounded up to 64 KiB (R185). -/
def recovSize (d : RoundDesc) : Nat :=
  roundUp (d.clientCount * (d.k + 1) * 64) 0x10000 + roundUp (d.clientCount * 128) 0x10000 +
  roundUp ((d.clientCount - d.minCohort) * d.k * 64) 0x10000

/-- The mask-key table of a round: base and bytes (R169, R179). -/
def maskkeyTable (h : Shelf) (d : RoundDesc) : Nat × Nat := (bits (h.reg rMaskkeyBase) 47 6 * 64, d.clientCount * 64)

/-- The cases of R169 in which START refuses a masked-sum round, with BAD_FIELD. -/
def maskedBad (h : Shelf) (d : RoundDesc) : Option Nat :=
  let t := maskkeyTable h d
  let r := region64k (h.reg rRecovCfg)
  let middles := h.intake.rings.map (fun e => (e.2.middleBase, e.2.middleSize))
  if d.k % 2 = 1 then some 0x38
  else if d.clientCount ≤ d.k then some 0x1C
  else if !inCellar h t.1 t.2 then some 0xFE
  else if r.2 < recovSize d ∨ !inCellar h r.1 r.2 ∨
      !(h.clog :: h.rejlog :: h.keydir :: h.ctab :: t :: middles).all (fun x => !overlap r.1 r.2 x.1 x.2) then some 0xFE
  else none

end Sys2Proof.Machine
end

