-- ==== Sys2Proof/Machine/Rns.lean ====
section
/-!
DEFINITION. The arithmetic of the lattice cluster: primality (R218), the NTT (R219), residue
polynomials, fast basis conversion and Galois automorphisms (R225, R233), and the CRC of key chunks
(R226).
-/
namespace Sys2Proof.Machine

/-! ### Primality -/

/-- Whether one of x, x², x⁴, … (k of them) is −1 mod n. -/
def hitsMinusOne (n : Nat) : Nat → Nat → Bool
  | 0, _ => false
  | k + 1, x => x == n - 1 || hitsMinusOne n k (x * x % n)

/-- Twos in n, at most m. -/
def twos : Nat → Nat → Nat
  | 0, _ => 0
  | m + 1, n => if n % 2 = 0 then 1 + twos m (n / 2) else 0

/-- One Miller-Rabin round of odd n with base a. -/
def mrPasses (n a : Nat) : Bool :=
  let s := twos 64 (n - 1)
  let x := powMod n (a % n) 64 ((n - 1) / 2 ^ s)
  a % n == 0 || x == 1 || hitsMinusOne n s x

/-- Primality, deterministic below 2^64: the twelve least primes decide it. [log 73 DEDUCED] -/
def isPrime (n : Nat) : Bool :=
  if n < 2 then false
  else if n % 2 = 0 then n == 2
  else [2, 3, 5, 7, 11, 13, 17, 19, 23, 29, 31, 37].all (mrPasses n)

/-! ### The NTT (R219) -/

/-- The least g from a on, of m candidates, with g^n = −1 mod q. -/
def psiFrom (q n : Nat) : Nat → Nat → Nat
  | 0, _ => 0
  | m + 1, g => if powMod q g (n.log2 + 1) n = q - 1 then g else psiFrom q n m (g + 1)

/-- ψ_q for ring degree n. -/
def psi (q n : Nat) : Nat := psiFrom q n (q - 2) 2

/-- A polynomial's residues modulo one limb. -/
abbrev Limb := List Nat

/-- Σ a_j · w^j · x^j … evaluated by Horner's rule at x mod q. -/
def horner (q x : Nat) (a : Limb) : Nat := a.foldr (fun c acc => (acc * x + c) % q) 0

/-- The transform: point k is the value at ψ^(2k + 1). -/
def ntt (q : Nat) (a : Limb) : Limb :=
  let n := a.length
  let p := psi q n
  (List.range n).map (fun k => horner q (powMod q p (n.log2 + 2) (2 * k + 1)) a)

/-- Its inverse: a_j = N⁻¹ · Σ â_k · ψ^(−j(2k + 1)). -/
def intt (q : Nat) (a : Limb) : Limb :=
  let n := a.length
  let r := invMod q (psi q n)
  let ni := invMod q n
  (List.range n).map (fun j =>
    let x := powMod q r (n.log2 + 1) j
    ni * x % q * horner q (x * x % q) a % q)

/-! ### Limb operations -/

def limbAdd (q : Nat) (a b : Limb) : Limb := (a.zip b).map (fun e => (e.1 + e.2) % q)
def limbSub (q : Nat) (a b : Limb) : Limb := (a.zip b).map (fun e => (e.1 % q + q - e.2 % q) % q)
def limbMul (q : Nat) (a b : Limb) : Limb := (a.zip b).map (fun e => e.1 * e.2 % q)
def limbScale (q c : Nat) (a : Limb) : Limb := a.map (fun x => x * c % q)
def limbRed (q : Nat) (a : Limb) : Limb := a.map (· % q)

/-- σ_g of a polynomial in coefficient form modulo q: coefficient j goes to jg mod 2N, with a sign change
from N on (R225). -/
def galois (q g : Nat) (a : Limb) : Limb :=
  let n := a.length
  let t := a.zipIdx.foldl (fun (t : Tab Nat) e =>
    let i := e.2 * g % (2 * n)
    if i < n then tput t i (e.1 % q) else tput t (i - n) ((q - e.1 % q) % q)) []
  (List.range n).map (fun i => tget 0 t i)

/-- Fast basis conversion of one coefficient from basis b to modulus c, with no correction term (R233). -/
def fbc1 (b : List Nat) (c : Nat) (x : List Nat) : Nat :=
  let prod := b.foldl (· * ·) 1
  ((b.zip x).map (fun e =>
    let o := prod / e.1
    e.2 % e.1 * invMod e.1 (o % e.1) % e.1 * (o % c) % c)).sum % c

/-- The columns of a list of rows of length n. -/
def columns (n : Nat) (rows : List Limb) : List (List Nat) := (List.range n).map (fun i => rows.map (fun r => r.getD i 0))

/-- Fast basis conversion of a polynomial given by its limbs over basis b. -/
def fbc (b : List Nat) (c : Nat) (x : List Limb) : Limb := (columns ((x.headD []).length) x).map (fbc1 b c)

/-- The integer in [0, Πb) that residues over pairwise coprime moduli name. -/
def crt (b x : List Nat) : Nat :=
  let prod := b.foldl (· * ·) 1
  ((b.zip x).map (fun e => let o := prod / e.1; e.2 % e.1 * invMod e.1 (o % e.1) % e.1 * o)).sum % prod

/-! ### CRC-32C (R226) -/

def crcBit : Nat → Nat → Nat
  | 0, c => c
  | n + 1, c => crcBit n (if c % 2 = 1 then c / 2 ^^^ 0x82F63B78 else c / 2)

/-- CRC-32C (Castagnoli). -/
def crc32c (b : Bytes) : Nat := b.foldl (fun c x => crcBit 8 (c ^^^ x.toNat)) 0xFFFFFFFF ^^^ 0xFFFFFFFF

end Sys2Proof.Machine
end

