-- ==== Sys2Proof/Machine/Keys.lean ====
section
/-!
DEFINITION. Loading and unloading parameter sets (R216-R218, R252) and key sets (R223-R228, R254-R256).
-/
namespace Sys2Proof.Machine

/-- Change the lattice state of shelf k. -/
def State.onLat (s : State) (k : Nat) (f : Lattice → Lattice) : State := s.onShelf k (fun h => { h with lat := f h.lat })

/-- PARAM_FP of a parameter block (R218). -/
def paramFp (block : Bytes) : Nat := leNat ((sha3 block).take 8)
def PSet.fp (p : PSet) : Nat := paramFp p.block

/-- KEYSET_ID (R223). -/
def keysetId (block : Bytes) (keyId : Nat) : Nat := leNat ((sha3 (block ++ toLe 8 keyId)).take 8)

/-! ### Parameter sets -/

/-- No value occurs twice. -/
def distinct : List Nat → Bool
  | [] => true
  | x :: r => !r.contains x && distinct r

/-- The fields of a block lie in the ranges of R216 and R217 and reserved bytes are zero. -/
def PSet.fieldsOk (p : PSet) : Bool :=
  let l := p.limbs
  let k := p.special
  field p.block 0 4 == 0x5453504B && field p.block 4 2 == 1 && (p.scheme == 1 || p.scheme == 2) &&
  decide (12 ≤ p.log2n) && decide (p.log2n ≤ 17) && decide (1 ≤ l) && decide (k ≤ 16) && decide (l + k ≤ 64) &&
  (if k = 0 then p.dnum == 0 else decide (1 ≤ p.dnum) && decide (p.dnum ≤ l)) &&
  decide (field p.block 0xB 1 ≤ 1) && decide (p.form ≤ 1) && decide (p.policy ≤ 1) && decide (1 ≤ p.cts) && decide (p.cts ≤ 64) &&
  decide (1 ≤ p.smudge) && decide (p.smudge ≤ 60) && decide (3 ≤ p.t) && decide (p.t < 2 ^ 60) &&
  zeroAt p.block 0x20 32 && zeroAt p.block (0x40 + 8 * (l + k)) (8 * (64 - (l + k))) && zeroAt p.block 0x240 448

/-- The primes of a block (R216, R218). -/
def PSet.primesOk (p : PSet) : Bool :=
  let m := 2 * p.n
  let qs := (List.range (p.limbs + p.special)).map p.prime
  qs.all (fun q => decide (q < 2 ^ 60) && q % m == 1 && isPrime q) && isPrime p.t && distinct (p.t :: qs) &&
  (!p.slotEnc || p.t % m == 1)

/-- The checks of R218 on a block. -/
def PSet.ok (p : PSet) : Bool :=
  p.fieldsOk && p.primesOk && !(p.policy == 1 && p.refreshBudget == 0) && decide (512 + p.ctLen ≤ 2 ^ 30)

/-- Key sets and running rounds that name entry i: PSET_STATE.USERS (R252). -/
def psetUsers (h : Shelf) (i : Nat) : Nat :=
  (h.lat.ksets.filter (fun e => e.2.pset == i)).length + (if h.sealedRound && h.round.desc.inst % 16 == i then 1 else 0)

/-- RESULT of a parameter-set command. -/
def psetDone (k : Nat) (st : Status) (s : State) : State := s.onLat k (fun x => { x with psetResult := st.code })

/-- PSET_CMD load (R218, R593). [log 72 DESIGN CHOICE] -/
def psetLoad (k i addr : Nat) (s : State) : State :=
  let h := s.shelf k
  if !inCellar h addr 1024 then psetDone k .paramUnsupported s
  else
    let st := vstat s k addr 1024
    let s := noteRead k addr 1024 s
    let p : PSet := { block := vread s k addr 1024 }
    if st ≠ .ok then psetDone k st s
    else if p.ok && psetUsers h i == 0 then psetDone k .ok (s.onLat k (fun x => { x with psets := tput x.psets i p }))
    else psetDone k .paramUnsupported s

/-- PSET_CMD unload (R252): an entry in use, or an empty one, stays as it is. [log 72 DESIGN CHOICE] -/
def psetUnload (k i : Nat) (s : State) : State :=
  let h := s.shelf k
  if (h.pset i).isSome && psetUsers h i == 0 then psetDone k .ok (s.onLat k (fun x => { x with psets := tdel x.psets i }))
  else psetDone k .paramUnsupported s

/-- A write of PSET_CMD (R252): ENTRY and ADDR are kept. [log 72 DESIGN CHOICE] -/
def psetCmdWrite (k : Nat) (v : Word) (s : State) : State :=
  let s := s.onLat k (fun x => { x with psetCmd := v &&& 0xFFFF_FFFF_FFC0_003C })
  match bits v 1 0 with
  | 1 => psetLoad k (bits v 5 2) (bits v 63 22 * 64) s
  | 2 => psetUnload k (bits v 5 2) s
  | _ => s

/-- PSET_LOAD (R218). -/
def execPsetLoad (k : Nat) (entry : BitVec 4) (addr : BitVec 42) (s : State) : Out :=
  .next (psetCmdWrite k (addr ++ (0 : BitVec 16) ++ entry ++ (1 : BitVec 2)) s)

/-- PSET_UNLOAD (R252). -/
def execPsetUnload (k : Nat) (entry : BitVec 4) (s : State) : Out :=
  .next (psetCmdWrite k ((0 : BitVec 58) ++ entry ++ (2 : BitVec 2)) s)

/-! ### Key sets: the image (R224-R226) -/

/-- Chunks that n bytes take. -/
def chunksOf (n : Nat) : Nat := (n + 65535) / 65536

/-- Bytes of a key over m limbs in each polynomial (R225, R255). -/
def PSet.keyLen (p : PSet) (m : Nat) : Nat := 16 * p.dnum * m * p.n

/-- Bytes of the sealed share (R227). -/
def PSet.shareLen (p : PSet) : Nat := 8 * p.limbs * p.n

/-- The fields of a header that need no parameter set (R224). `rest` is the header chunk from 0x1100 on. [log 75 DEDUCED] -/
def KSet.fieldsOk (x : KSet) (rest : Bytes) : Bool :=
  field x.header 0 4 == 0x5445534B && field x.header 4 2 == 1 && decide (field x.header 6 1 ≤ 1) && zeroAt x.header 7 1 &&
  decide (2 ≤ x.groupSize) && decide (x.groupSize ≤ 16) && decide (x.holder < x.groupSize) &&
  decide (2 ≤ x.threshold) && decide (x.threshold ≤ x.groupSize) && decide (x.keys ≤ 256) &&
  zeroAt x.header 0x26 2 && zeroAt x.header 0x6C 148 && rest.all (· == 0)

/-- The fields that depend on the parameter set (R225, R227). [log 75 DEDUCED] -/
def KSet.dirOk (x : KSet) (p : PSet) : Bool :=
  (List.range x.keys).all (fun i =>
    x.galois i % 2 == 1 && decide (x.galois i < 2 * p.n) && x.count i == chunksOf (p.keyLen (p.limbs + p.special)) &&
    decide (x.first i + x.count i ≤ x.chunks) && zeroAt x.header (0x10C + 16 * i) 4) &&
  decide (x.shareFirst + chunksOf p.shareLen ≤ x.chunks)

/-- Tag j of an image is right (R226). -/
def tagOk (s : State) (k : Nat) (x : KSet) (j : Nat) : Bool :=
  let t := vread s k (x.tagAt j) 16
  field t 0 8 == x.id && field t 8 4 == j && field t 12 4 == crc32c (vread s k (x.chunkAt j) 65536)

/-- The sealed share's ciphertext (R227). -/
def shareBytes (s : State) (k : Nat) (x : KSet) (p : PSet) : Bytes := vread s k (x.chunkAt x.shareFirst) p.shareLen

/-- The use of SHARE_SLOT: unwrap by the island master for the shelf (R227). -/
def shareUse (k : Nat) : KeyUse := { usages := [uUnwrap], kinds := [1], master := .island, shelf := some k }

/-! ### Refresh keys (R254-R256) -/

/-- The first chunk of the refresh section. -/
def KSet.refreshAt (x : KSet) : Nat := ((List.range x.keys).map (fun i => x.first i + x.count i)).foldl max 0

/-- The refresh descriptor. -/
def refreshDesc (s : State) (k : Nat) (x : KSet) : Bytes := vread s k (x.chunkAt x.refreshAt) 65536

def rdE (d : Bytes) : Nat := field d 6 1
def rdKeys (d : Bytes) : Nat := field d 7 1
def rdR (d : Bytes) : Nat := field d 8 1
def rdMin (d : Bytes) : Nat := field d 0xA 2
def rdPrime (d : Bytes) (i : Nat) : Nat := field d (0x20 + 8 * i) 8
/-- RKEY_TAB entry i: KIND, GALOIS, FIRST_CHUNK, CHUNKS (R255). -/
def rdKey (d : Bytes) (i : Nat) : Nat × Nat × Nat × Nat :=
  (field d (0x100 + 16 * i) 1, field d (0x104 + 16 * i) 4, field d (0x108 + 16 * i) 4, field d (0x10C + 16 * i) 4)

/-- A RKEY_TAB entry is well formed (R255). -/
def rkeyOk (x : KSet) (p : PSet) (d : Bytes) (i : Nat) : Bool :=
  let (kind, g, first, count) := rdKey d i
  let e := rdE d
  zeroAt d (0x101 + 16 * i) 3 && decide (x.refreshAt < first) && decide (first + count ≤ x.shareFirst) &&
  (match kind with
    | 1 => count == chunksOf (16 * (p.limbs + e) * p.n)
    | 2 => g == 0 && count == chunksOf (p.keyLen (p.limbs + e + p.special))
    | 3 => g % 2 == 1 && decide (g < 2 * p.n) && count == chunksOf (p.keyLen (p.limbs + e + p.special))
    | _ => false)

/-- The Galois elements that variant 0x0001 needs (R255). -/
def neededGalois (p : PSet) : List Nat :=
  (2 * p.n - 1) :: (List.range (p.log2n - 1)).map (fun j => powMod (2 * p.n) 5 (j + 1) (2 ^ j))

/-- The checks of R256 on a refresh section. -/
def refreshOk (s : State) (k : Nat) (x : KSet) (p : PSet) : Bool :=
  let d := refreshDesc s k x
  let e := rdE d
  let m := 2 * p.n
  let rs := (List.range e).map (rdPrime d)
  let tr := p.t ^ rdR d
  let keys := (List.range (rdKeys d)).map (rdKey d)
  decide (x.refreshAt < x.shareFirst) &&
  field d 0 4 == 0x4652534B && field d 4 2 == 1 && decide (1 ≤ e) && decide (e ≤ 16) && decide (p.limbs + e + p.special ≤ 64) &&
  decide (3 ≤ rdKeys d) && decide (rdKeys d ≤ 64) && decide (2 ≤ rdR d) && decide (rdR d ≤ 8) && zeroAt d 9 1 &&
  field d 0xC 2 == 1 && zeroAt d 0xE 18 && zeroAt d (0x20 + 8 * e) (8 * (16 - e)) && zeroAt d 0xA0 96 &&
  zeroAt d (0x100 + 16 * rdKeys d) (65536 - 0x100 - 16 * rdKeys d) && (List.range (rdKeys d)).all (rkeyOk x p d) &&
  rs.all (fun r => decide (r < 2 ^ 60) && r % m == 1 && isPrime r) &&
  distinct (p.t :: rs ++ (List.range (p.limbs + p.special)).map p.prime) &&
  decide (tr < 2 ^ 62) && p.prime 0 % tr == 1 && p.refreshBudget != 0 &&
  (keys.filter (fun y => y.1 == 1)).length == 1 && (keys.filter (fun y => y.1 == 2)).length == 1 &&
  (neededGalois p).all (fun g => keys.any (fun y => y.1 == 3 && y.2.1 == g))

/-! ### Loading and unloading key sets (R228) -/

/-- Refresh slots not FREE that are bound to entry i. [log 73 DEDUCED] -/
def boundSlots (h : Shelf) (i : Nat) : List RSlot :=
  (h.lat.slots.filter (fun e => e.2.kset == i && !e.2.parts.isEmpty)).map (·.2)

/-- KSET_STATE.IN_USE: commands bound to the entry (R236). KEYSW and PDEC complete in the step that accepts
them, so the parts of refreshes remain. [log 73 DEDUCED] -/
def ksetInUse (h : Shelf) (i : Nat) : Nat := ((boundSlots h i).map (fun x => x.parts.length)).sum

/-- RESULT of a key-set command. -/
def ksetDone (k : Nat) (st : Status) (s : State) : State := s.onLat k (fun x => { x with ksetResult := st.code })

/-- Whether an enabled Keg or a ring reservation of the shelf overlaps a stream buffer. -/
def streamTaken (s : State) (k : Nat) : Bool :=
  (s.shelf k).bays.any (fun b =>
    (s.bay b).casks.any (fun e => e.2.held && overlap e.2.holds.2.1 e.2.holds.2.2 streamBuf.1 streamBuf.2) ||
    (if (s.shelf k).keysResident then false else (ringReserves s b).any (fun r => overlap r.1 r.2 streamBuf.1 streamBuf.2)))

/-- The result of a load by the table of R228, after the image has been read without error. [log 74 DEDUCED] -/
def ksetCheck (s : State) (k i : Nat) (x : KSet) (rest : Bytes) : Status × Option KSet :=
  let h := s.shelf k
  if (h.kset i).isSome || !x.fieldsOk rest then (.paramUnsupported, none)
  else match h.lat.psets.find? (fun e => e.2.fp == x.paramFp) with
    | none => (.paramUnsupported, none)
    | some (pi, p) =>
      if !x.dirOk p || (x.refreshKeys && !refreshOk s k x p) then (.paramUnsupported, none)
      else if keysetId p.block x.keyId ≠ x.id then (.keysetMismatch, none)
      else if !(List.range x.chunks).all (tagOk s k x) || sha3 (vread s k (x.chunkAt 0) (x.chunks * 65536)) != slice x.header 0x30 32 then
        (.keysetMismatch, none)
      else match bindCur s x.shareSlot (shareUse k) with
        | .error _ => (.deniedAttribute, none)
        | .ok key =>
          match gcmOpen key.key x.nonce (x.header.take 0x50) (shareBytes s k x p) x.tag with
          | none => (.keysetMismatch, none)
          | some _ => if streamTaken s k then (.paramUnsupported, none) else (.ok, some { x with pset := pi })

/-- KSET_CMD load (R228, R593). [log 75 DEDUCED] -/
def ksetLoad (k i addr : Nat) (s : State) : State :=
  let h := s.shelf k
  if addr % 0x10000 ≠ 0 ∨ !inCellar h addr 0x10000 then ksetDone k .paramUnsupported s
  else
    let st := vstat s k addr 0x10000
    let s := noteRead k addr 0x10000 s
    if st ≠ .ok then ksetDone k st s
    else
      let head := vread s k addr 0x10000
      let n := field head 0x28 4
      let units := 1 + tagChunks n + n
      if !inCellar h addr (units * 0x10000) then ksetDone k .paramUnsupported s
      else
        let st := vstat s k addr (units * 0x10000)
        let s := noteRead k addr (units * 0x10000) s
        if st ≠ .ok then ksetDone k st s
        else
          let x : KSet := { base := addr, units := units, pset := 0, header := head.take 0x1100 }
          match ksetCheck s k i x (head.drop 0x1100) with
          | (st, none) => ksetDone k st s
          | (st, some y) => ksetDone k st (s.onLat k (fun l => { l with ksets := tput l.ksets i y }))

/-- A running round names the KEYSET_ID. -/
def ksetNamed (h : Shelf) (x : KSet) : Bool := h.sealedRound && h.round.desc.keysetId == x.id

/-- KSET_CMD unload (R228): an entry in use or named by a round, or an empty one, stays as it is. [log 72 DESIGN CHOICE] -/
def ksetUnload (k i : Nat) (s : State) : State :=
  let h := s.shelf k
  match h.kset i with
  | none => ksetDone k .paramUnsupported s
  | some x =>
    if ksetInUse h i ≠ 0 ∨ ksetNamed h x then ksetDone k .paramUnsupported s
    else ksetDone k .ok (s.onLat k (fun l => { l with ksets := tdel l.ksets i }))

/-- A write of KSET_CMD (R252). [log 72 DESIGN CHOICE] -/
def ksetCmdWrite (k : Nat) (v : Word) (s : State) : State :=
  let s := s.onLat k (fun x => { x with ksetCmd := v &&& 0xFFFF_FFFF_FFC0_003C })
  match bits v 1 0 with
  | 1 => ksetLoad k (bits v 5 2) (bits v 63 22 * 64) s
  | 2 => ksetUnload k (bits v 5 2) s
  | _ => s

/-- KSET_LOAD (R228). -/
def execKsetLoad (k : Nat) (entry : BitVec 4) (addr : BitVec 42) (s : State) : Out :=
  .next (ksetCmdWrite k (addr ++ (0 : BitVec 16) ++ entry ++ (1 : BitVec 2)) s)

/-- KSET_UNLOAD (R228). -/
def execKsetUnload (k : Nat) (entry : BitVec 4) (s : State) : Out :=
  .next (ksetCmdWrite k ((0 : BitVec 58) ++ entry ++ (2 : BitVec 2)) s)

end Sys2Proof.Machine
end

