-- ==== Sys2Proof/Machine/Refresh.lean ====
section
/-!
DEFINITION. Ciphertext objects (R220, R221), key streams (R235) and the refresh macro (09_refresh.md):
slots, parts, stages, markers, resume, windows, and the refreshes that AUTO inserts (R239, R267).
-/
namespace Sys2Proof.Machine

/-! ### Object headers (R220) -/

def oScheme (b : Bytes) : Nat := field b 6 1
def oLog2n (b : Bytes) : Nat := field b 7 1
def oKeyset (b : Bytes) : Nat := field b 8 8
def oParam (b : Bytes) : Nat := field b 0x10 8
def oLevel (b : Bytes) : Nat := field b 0x18 1
def oFlags (b : Bytes) : Nat := field b 0x19 1
def oBudget (b : Bytes) : Nat := field b 0x1A 2
def oPolicy (b : Bytes) : Nat := field b 0x1C 1

/-- A well-formed object header. -/
def hdrOk (b : Bytes) : Bool :=
  field b 0 4 == 0x4354574B && field b 4 2 == 1 && (oScheme b == 1 || oScheme b == 2) && decide (12 ≤ oLog2n b) && decide (oLog2n b ≤ 17) &&
  decide (1 ≤ oLevel b) && decide (oLevel b ≤ 64) && decide (oFlags b < 8) && decide (oPolicy b ≤ 2) && zeroAt b 0x1D 35

/-- X's header with a level, flags and budget. -/
def hdrLike (x : Bytes) (level flags budget : Nat) : Bytes :=
  hdrBytes (oScheme x) (oLog2n x) (oKeyset x) (oParam x) level flags budget (oPolicy x)

/-- Bytes of the object that a header heads. -/
def oLen (b : Bytes) : Nat := objLen (oLevel b) (2 ^ oLog2n b)

/-- The header of an object belongs to a parameter set: scheme, degree and a level that exists. [log 89 DEDUCED] -/
def fitsSet (p : PSet) (hb : Bytes) : Bool :=
  oParam hb == p.fp && oScheme hb == p.scheme && oLog2n hb == p.log2n && decide (oLevel hb ≤ p.limbs)

/-- FLAGS bits. -/
def oNtt (b : Bytes) : Bool := nbit (oFlags b) 0
def oUnreliable (b : Bytes) : Bool := nbit (oFlags b) 1
def oInvalid (b : Bytes) : Bool := nbit (oFlags b) 2

/-- The refusals that every object-level command makes of a source header, given the status of its read
(R221, R240); `none` where it is usable. [log 85 DEDUCED] -/
def srcRefused (conf : Bool) (st : Status) (b : Bytes) : Option Status :=
  if st ≠ .ok then some st
  else if !hdrOk b then some .paramUnsupported
  else if oInvalid b then some .poisoned
  else if conf && oPolicy b == 2 then some .paramUnsupported
  else none

/-- n bytes of b, filled with zeros. [log 87 DESIGN CHOICE] -/
def fit (n : Nat) (b : Bytes) : Bytes := (b ++ zeros (n - b.length)).take n

/-! ### Counters (R238, R252) -/

/-- Count a completion's status in LAT_CNT_A, n times. -/
def countLat (k : Nat) (st : Status) (n : Nat) (s : State) : State :=
  if st = .keysetMismatch then s.onLat k (fun x => { x with mismatch := sat 16 n x.mismatch })
  else if st = .noiseExhausted then s.onLat k (fun x => { x with exhausted := sat 16 n x.exhausted })
  else s

/-- A lattice command completes. -/
def latDone (k : Nat) (st : Status) (s : State) : Answer := (some st, 0, countLat k st 1 s)

/-- Count an output marked UNRELIABLE. -/
def countMark (k : Nat) (s : State) : State := s.onLat k (fun x => { x with marked := sat 16 1 x.marked })

/-! ### Key streams (R235) -/

/-- The status of streaming chunks: the first failure of a chunk's read or tag. [log 74 DEDUCED] -/
def streamStatus (s : State) (k : Nat) (x : KSet) (first count : Nat) : Status :=
  (((List.range count).map (fun i =>
    let j := first + i
    let t := vread s k (x.tagAt j) 16
    if vstat s k (x.tagAt j) 16 != .ok || vstat s k (x.chunkAt j) 65536 != .ok then Status.uncorrectable
    else if field t 0 8 != x.id || field t 8 4 != j then .keysetMismatch
    else if field t 12 4 != crc32c (vread s k (x.chunkAt j) 65536) then .uncorrectable
    else .ok)).find? (fun st => st != .ok)).getD .ok

/-- Count what streaming chunks meets. -/
def noteStream (k : Nat) (x : KSet) (first count : Nat) (s : State) : State :=
  (List.range count).foldl (fun s i => noteRead k (x.chunkAt (first + i)) 65536 (noteRead k (x.tagAt (first + i)) 16 s)) s

/-! ### Slots (R257, R258, R262) -/

/-- State codes of R258. -/
def RState.code : RState → Nat
  | .free => 0 | .gather => 1 | .running => 2 | .paused => 3 | .suspended => 4 | .done => 5

/-- Slot i of shelf k. -/
def State.rslot (s : State) (k i : Nat) : RSlot := tget {} (s.shelf k).lat.slots i

/-- Change a slot. -/
def State.onRslot (s : State) (k i : Nat) (f : RSlot → RSlot) : State :=
  s.onLat k (fun x => { x with slots := tput x.slots i (f (tget {} x.slots i)) })

/-- O and H of R257, in units of 64 KiB, for a set with E refresh primes. -/
def outUnits (p : PSet) : Nat := chunksOf p.obj
def halfUnits (p : PSet) (e : Nat) : Nat := chunksOf (64 * (p.limbs + e + p.special) * p.n)

/-- The output area and the halves A (0) and B (1) of a slot. -/
def Shelf.slotOut (h : Shelf) (i : Nat) : Nat := h.refSlotAt i + 0x10000
def Shelf.slotHalf (h : Shelf) (p : PSet) (e i half : Nat) : Nat := h.slotOut i + (outUnits p + half * halfUnits p e) * 0x10000

/-- The identity record (R262). -/
def idRecord (x : RSlot) (time : Nat) : Bytes :=
  toLe 4 0x4447524B ++ toLe 1 x.state.code ++ toLe 1 x.partsN ++ zeros 2 ++ toLe 8 x.keysetId ++ toLe 8 x.paramFp ++
  toLe 8 x.src ++ toLe 8 x.dst ++ toLe 8 time ++ fit 32 x.digest ++ zeros 48

/-- Write a slot's identity record with an issue time. -/
def writeId (k i time : Nat) (s : State) : State := vwrite s k ((s.shelf k).refSlotAt i) (idRecord (s.rslot k i) time)

/-- Write a slot's identity record again, keeping its issue time. -/
def rewriteId (k i : Nat) (s : State) : State := writeId k i (leNat (vread s k ((s.shelf k).refSlotAt i + 0x28) 8)) s

/-- A slot takes a state, also in its identity record. -/
def setSlot (k i : Nat) (st : RState) (s : State) : State := rewriteId k i (s.onRslot k i (fun x => { x with state := st }))

/-- Zeroise a slot's memory. -/
def zeroSlotMem (k i : Nat) (s : State) : State := vzero s k ((s.shelf k).refSlotAt i) ((s.shelf k).refUnits * 0x10000)

/-- A slot becomes FREE and is zeroised; the status of the refresh that ended stays. [log 91 DEDUCED] -/
def freeSlot (k i : Nat) (st : Status) (s : State) : State := zeroSlotMem k i (s.onRslot k i (fun _ => { status := st }))

/-- The parts in flight of slot i. -/
def isPart (i : Nat) (c : InFlight) : Bool := (c.kind == 0x25 || c.kind == 0x26) && field c.desc 0xD 1 == i

/-- Every part completes with a status, which the slot keeps. -/
def endParts (k i : Nat) (st : Status) (s : State) : State :=
  let s := countLat k st (s.rslot k i).parts.length s
  (finishAll k (isPart i) st s).onRslot k i (fun x => { x with parts := [], status := st })

/-- A refresh ends without a result: DST keeps INVALID and the slot is freed. -/
def failRefresh (k i : Nat) (st : Status) (s : State) : State := freeSlot k i st (endParts k i st s)

/-- The key set and parameter set that a slot is bound to. -/
def slotKeys (s : State) (k i : Nat) : Option (KSet × PSet) :=
  let h := s.shelf k
  match h.kset (s.rslot k i).kset with
  | none => none
  | some x => (h.pset x.pset).map (fun p => (x, p))

/-- The object that a slot's refresh writes: DST, or the slot's output area. -/
def slotDest (s : State) (k i : Nat) : Nat := if (s.rslot k i).dst = 0 then (s.shelf k).slotOut i else (s.rslot k i).dst

/-! ### Stages (R261, R262, R266) -/

/-- Whether refreshes of a slot run now: in a round, without windows, or while a window is open (R268). -/
def mayRun (h : Shelf) (x : RSlot) : Bool := x.inRound || !bit (h.reg rRefreshCfg) 4 || h.lat.window

/-- Stage 1 begins, or the stages go on after a resume: SRC_DIGEST is formed when there is none. [log 86 DEDUCED, 88 DEDUCED] -/
def startStages (k i : Nat) (s : State) : State :=
  let x := s.rslot k i
  if x.state == .gather && x.parts.length == x.partsN && decide (0 < x.partsN) && mayRun (s.shelf k) x then
    let hb := vread s k x.src 64
    let st := vstat s k x.src (oLen hb)
    let s := noteRead k x.src (oLen hb) s
    if st ≠ .ok then failRefresh k i .uncorrectable s
    else
      let s := if x.resume then s else s.onRslot k i (fun x => { x with digest := sha3 (vread s k x.src (oLen hb)) })
      setSlot k i .running s
  else s

/-- Key chunks that a stage streams, as (first, count) (R261). [log 86 DEDUCED] -/
def stageKeys (d : Bytes) (stage : Nat) : List (Nat × Nat) :=
  let kind := match stage with | 2 => 1 | 3 => 3 | 4 => 2 | 5 => 3 | _ => 0
  ((List.range (rdKeys d)).map (rdKey d)).filterMap (fun y => if y.1 == kind then some (y.2.2.1, y.2.2.2) else none)

/-- OUT of a stage's marker: 0 half A, 1 half B, 2 the destination. -/
def stageOut (stage : Nat) : Nat := match stage with | 1 => 0 | 2 => 1 | 3 => 0 | 4 => 1 | 5 => 0 | _ => 2

/-- A stage marker (R262). -/
def markerBytes (stage time : Nat) : Bytes := toLe 1 stage ++ toLe 1 (stageOut stage) ++ zeros 6 ++ toLe 8 time ++ zeros 48

def markerAt (h : Shelf) (i stage : Nat) : Nat := h.refSlotAt i + 0x80 + (stage - 1) * 0x40

/-- Stage 6 writes the destination: the body, then the final header (R253, R263). [log 86 DEDUCED, 87 DESIGN CHOICE] -/
def settleObject (k i : Nat) (p : PSet) (out : Bytes) (s : State) : State :=
  let x := s.rslot k i
  let hb := x.head
  let d := slotDest s k i
  let flags := oFlags hb % 2 + (if oUnreliable hb || x.zeroBudget then 2 else 0)
  let s := vwrite s k (d + 64) (fit (p.obj - 64) out)
  let s := vwrite s k d (hdrLike hb p.limbs flags (if x.zeroBudget then 0 else p.refreshBudget))
  if x.zeroBudget then countMark k s else s

/-- After the last stage: the parts complete OK; with DST 0 the slot is DONE, else FREE (R259). [log 91 DEDUCED] -/
def finishRefresh (k i : Nat) (s : State) : State :=
  let s := endParts k i .ok s
  if (s.rslot k i).dst = 0 then setSlot k i .done s
  else (setSlot k i .free s).onRslot k i (fun x => { status := x.status })

/-- Restart from stage 1, once (R266). -/
def restartRefresh (k i : Nat) (s : State) : State :=
  let s := s.onRslot k i (fun x => { x with restarted := true, last := 0 })
  vzero s k ((s.shelf k).refSlotAt i + 0x80) 0x180

/-- Every part of a RUNNING slot finishes the next stage: its keys pass their tags, its output is written,
then its marker (R261, R262). A stage's output fills its half, so that no stage reads what an earlier refresh left there. [log 86 DEDUCED, 87 DESIGN CHOICE] -/
def stageStep (k i : Nat) (s : State) : State :=
  let x := s.rslot k i
  match x.state, slotKeys s k i with
  | .running, some (ks, p) =>
    let h := s.shelf k
    let d := refreshDesc s k ks
    let stage := x.last + 1
    let half := halfUnits p (rdE d) * 0x10000
    let from_ := if stage = 1 then x.src else h.slotHalf p (rdE d) i (stageOut x.last)
    let n := if stage = 1 then oLen x.head else half
    let st := vstat s k from_ n
    let keySt := ((stageKeys d stage).map (fun y => streamStatus s k ks y.1 y.2)).find? (fun st => st != .ok)
    let s := (stageKeys d stage).foldl (fun s y => noteStream k ks y.1 y.2 s) (noteRead k from_ n s)
    if st ≠ .ok then
      if stage = 1 ∨ x.restarted then failRefresh k i .uncorrectable s else restartRefresh k i s
    else match keySt with
      | some st => failRefresh k i st s
      | none =>
        let keys := (stageKeys d stage).flatMap (fun y => vread s k (ks.chunkAt y.1) (y.2 * 65536))
        let out := Config.refreshStage stage [p.block, d, keys, vread s k from_ n]
        let s := if stage = 6 then settleObject k i p out s
          else vwrite s k (h.slotHalf p (rdE d) i (stageOut stage)) (fit half out)
        let s := vwrite s k (markerAt h i stage) (markerBytes stage s.epoch)
        let s := s.onRslot k i (fun x => { x with last := stage })
        if stage = 6 then finishRefresh k i s
        else if mayRun h x then s else setSlot k i .paused s
  | _, _ => s

/-- REFRESH_STAGE_DONE (R262). [log 87 DESIGN CHOICE] -/
def execRefreshStageDone (k i : Nat) (s : State) : Out := .next (stageStep k i s)

/-! ### Issuing and resuming (R259, R260, R263, R264) -/

/-- PARTS and PART are in range (R259). -/
def partsOk (h : Shelf) (part parts : Nat) : Bool :=
  [1, 2, 4, 8, 16].contains parts && decide (parts ≤ h.bays.length) && decide (part < parts)

/-- A slot is configured and large enough (R257). [log 89 DEDUCED] -/
def slotFits (h : Shelf) (p : PSet) (e i : Nat) : Bool :=
  decide (0 < (region64k (h.reg rRefreshScr)).2) && decide (i < h.refSlots) && decide (1 + outUnits p + 2 * halfUnits p e ≤ h.refUnits)

/-- Slot i becomes GATHER with a first part: DST's header carries INVALID, the markers are zero and the
identity is written (R259). [log 88 DEDUCED, 91 DEDUCED] -/
def openSlot (k i : Nat) (x : RSlot) (p : PSet) (s : State) : State :=
  let s := if (s.rslot k i).state == .done then freeSlot k i (s.rslot k i).status s else s
  let s := s.onRslot k i (fun _ => { x with status := (s.rslot k i).status })
  let hb := x.head
  let s := vwrite s k (slotDest s k i) (hdrLike hb p.limbs (oFlags hb % 4 + 4) 0)
  let s := vzero s k ((s.shelf k).refSlotAt i + 0x80) 0x180
  writeId k i s.epoch s

/-- The objects of slots not FREE: SRC and DST ranges. -/
def slotObjects (s : State) (k i : Nat) : List (Nat × Nat) :=
  ((s.shelf k).lat.slots.filter (fun e => e.1 != i && e.2.state != .free)).flatMap (fun e =>
    (e.2.src, oLen e.2.head) :: (if e.2.dst = 0 then [] else [(e.2.dst, e.2.outLen)]))

/-- DST is free of SRC, the scratch and other refreshes' objects (R260). -/
def dstOk (s : State) (k i src dst n outN : Nat) : Bool :=
  dst == 0 || (latticeOk s k dst outN &&
    (((src, n) :: region64k ((s.shelf k).reg rRefreshScr) :: slotObjects s k i).all (fun r => !overlap dst outN r.1 r.2)))

/-- REFRESH's operation (R259, R260, R263). [log 89 DEDUCED, 90 DEDUCED] -/
def refreshRun (q k : Nat) (d : Bytes) (s : State) : Answer :=
  let h := s.shelf k
  let i := field d 0xD 1
  let part := field d 0xE 1
  let parts := field d 0xF 1
  let src := field d 0x10 8
  let dst := field d 0x20 8
  if !latticeOk s k src 64 then refuse s
  else
    let hb := vread s k src 64
    let s := noteRead k src 64 s
    match srcRefused false (vstat s k src 64) hb with
    | some st => latDone k st s
    | none =>
      if !latticeOk s k src (oLen hb) then refuse s
      else match (h.kset (field d 8 1)).bind (fun x => (h.pset x.pset).map (fun p => (x, p))) with
        | none => refuse s
        | some (x, p) =>
          if !x.refreshKeys then refuse s
          else if oParam hb == p.fp && !fitsSet p hb then refuse s
          else if oKeyset hb ≠ x.id ∨ oParam hb ≠ x.paramFp then latDone k .keysetMismatch s
          else
            let rd := refreshDesc s k x
            let cur := s.rslot k i
            let first := cur.state == .free || cur.state == .done
            let same := cur.state == .gather && !cur.resume && cur.src == src && cur.dst == dst && cur.kset == field d 8 1 &&
              cur.partsN == parts && !cur.parts.any (fun e => e.1 == part || e.2 == q / 4)
            if !slotFits h p (rdE rd) i || !partsOk h part parts then refuse s
            else if !first && !same then refuse s
            else if !dstOk s k i src dst (oLen hb) p.obj then refuse s
            else if h.conf && oPolicy hb == 2 then refuse s
            else if oBudget hb < rdMin rd ∧ oPolicy hb ≠ 2 then latDone k .noiseExhausted s
            else
              let s :=
                if first then openSlot k i
                  { state := .gather, partsN := parts, kset := field d 8 1, src := src, dst := dst, head := hb, outLen := p.obj, keysetId := x.id
                    paramFp := x.paramFp, zeroBudget := decide (oBudget hb < rdMin rd), inRound := h.round.active } p s
                else s
              (none, 0, startStages k i (s.onRslot k i (fun y => { y with parts := y.parts ++ [(part, q / 4)] })))

/-- The parts of a slot may complete at once, when a read fails as the stages start: the command accepted
last then takes that status. [log 86 DEDUCED] -/
def refreshAccept (kind : Nat) (run : Nat → Nat → Bytes → State → Answer) (q n : Nat) (s : State) : State :=
  let i := field (headDesc s q n) 0xD 1
  accept kind (fun k d s =>
    let a := run q k d s
    if a.1.isNone && (a.2.2.rslot k i).state == .free then (some (a.2.2.rslot k i).status, 0, a.2.2) else a) q n s

/-- REFRESH (R259). -/
def execRefresh (q n : Nat) (s : State) : Out := .next (refreshAccept 0x25 refreshRun q n s)

/-- REFRESH.RESUME's operation (R264). [log 88 DEDUCED, 90 DEDUCED] -/
def resumeRun (q k : Nat) (d : Bytes) (s : State) : Answer :=
  let h := s.shelf k
  let i := field d 0xD 1
  let part := field d 0xE 1
  let parts := field d 0xF 1
  let x := s.rslot k i
  let later := x.state == .gather && x.resume && x.partsN == parts && !x.parts.any (fun e => e.1 == part || e.2 == q / 4)
  if !partsOk h part parts || !(x.state == .suspended || later) then refuse s
  else match h.lat.ksets.find? (fun e => e.2.id == x.keysetId && e.2.refreshKeys) with
    | none => latDone k .keysetMismatch s
    | some (ki, _) =>
      let hb := vread s k x.src 64
      let st := vstat s k x.src (oLen hb)
      let s := noteRead k x.src (oLen hb) s
      if st ≠ .ok then latDone k .uncorrectable (failRefresh k i .uncorrectable s)
      else if sha3 (vread s k x.src (oLen hb)) ≠ x.digest then latDone k .paramUnsupported (failRefresh k i .paramUnsupported s)
      else
        let zero := match h.kset ki with | none => false | some y => decide (oBudget hb < rdMin (refreshDesc s k y))
        let s := if later then s else setSlot k i .gather (s.onRslot k i (fun y =>
          { y with partsN := parts, kset := ki, resume := true, head := hb, zeroBudget := zero, inRound := h.round.active }))
        (none, 0, startStages k i (s.onRslot k i (fun y => { y with parts := y.parts ++ [(part, q / 4)] })))

/-- REFRESH_RESUME (R264). -/
def execRefreshResume (q n : Nat) (s : State) : Out := .next (refreshAccept 0x26 resumeRun q n s)

/-- REFRESH_CTL frees a slot (R269). [log 95 DEDUCED] -/
def refreshFree (k i : Nat) (s : State) : State :=
  match (s.rslot k i).state with
  | .running => s.onLat k (fun x => { x with refResult := Status.paramUnsupported.code })
  | .paused => s.onLat k (fun x => { x with refResult := Status.paramUnsupported.code })
  | .free | .gather | .suspended | .done =>
    let s := if (s.rslot k i).state == .gather then endParts k i .paramUnsupported s else s
    let s := if i < (s.shelf k).refSlots then freeSlot k i (s.rslot k i).status s else s
    s.onLat k (fun x => { x with refResult := 0 })

/-- A write of REFRESH_CTL (R269). -/
def refreshCtlWrite (k : Nat) (v : Word) (s : State) : State :=
  let s := s.onLat k (fun x => { x with refCtl := v &&& 0x1C })
  if bits v 1 0 = 1 then refreshFree k (bits v 4 2) s else s

/-- REFRESH_SLOT_FREE (R269). -/
def execRefreshSlotFree (k : Nat) (slot : BitVec 3) (s : State) : Out :=
  .next (refreshCtlWrite k ((0 : BitVec 59) ++ slot ++ (1 : BitVec 2)) s)

/-! ### Windows (R268) -/

/-- REFRESH_OPEN: gathered refreshes start and paused ones go on. -/
def refreshOpen (k : Nat) (s : State) : State :=
  let s := s.onLat k (fun x => { x with window := true })
  (List.range 8).foldl (fun s i => match (s.rslot k i).state with
    | .paused => setSlot k i .running s
    | .gather => startStages k i s
    | .free | .running | .suspended | .done => s) s

/-- REFRESH_CLOSE: a RUNNING slot pauses at its next marker. -/
def refreshClose (k : Nat) (s : State) : State := s.onLat k (fun x => { x with window := false })

/-! ### Refreshes inserted by AUTO (R239, R267) -/

/-- Run a slot's stages to their end. [log 93 DEDUCED] -/
def runStages (k i : Nat) : Nat → State → State
  | 0, s => s
  | n + 1, s => if (s.rslot k i).state == .running then runStages k i n (stageStep k i s) else s

/-- The slot that serves a source: DONE with its identity and digest, SUSPENDED with its identity, else the
lowest FREE one. [log 94 DEDUCED] -/
def autoSlot (s : State) (k src : Nat) (hb : Bytes) : Option Nat :=
  let h := s.shelf k
  let digest := sha3 (vread s k src (oLen hb))
  let ids := List.range h.refSlots
  let mine (x : RSlot) : Bool := x.src == src && x.keysetId == oKeyset hb && x.paramFp == oParam hb && x.digest == digest
  match ids.find? (fun i => (s.rslot k i).state == .done && mine (s.rslot k i)) with
  | some i => some i
  | none =>
    match ids.find? (fun i => (s.rslot k i).state == .suspended && (s.rslot k i).dst == 0 && mine (s.rslot k i)) with
    | some i => some i
    | none => ids.find? (fun i => (s.rslot k i).state == .free)

/-- The refreshed copy of a source, as its address, or the status that ends the operation. [log 93 DEDUCED] -/
def autoRefresh (k ki src : Nat) (s : State) : Except Status Nat × State :=
  let h := s.shelf k
  let hb := vread s k src 64
  match (h.kset ki).bind (fun x => (h.pset x.pset).map (fun p => (x, p))) with
  | none => (.error .paramUnsupported, s)
  | some (x, p) =>
    let rd := refreshDesc s k x
    if !x.refreshKeys then (.error .paramUnsupported, s)
    else if oBudget hb < rdMin rd then (.error .noiseExhausted, s)
    else match autoSlot s k src hb with
      | none => (.error .paramUnsupported, s)
      | some i =>
        if !slotFits h p (rdE rd) i then (.error .paramUnsupported, s)
        else if (s.rslot k i).state == .done then (.ok (h.slotOut i), s)
        else
          let s := s.onLat k (fun y => { y with autoN := sat 16 1 y.autoN })
          let s :=
            if (s.rslot k i).state == .suspended then s.onRslot k i (fun y => { y with kset := ki, resume := true, head := hb, inRound := true })
            else openSlot k i { state := .gather, partsN := 1, kset := ki, src := src, head := hb, outLen := p.obj, keysetId := x.id, paramFp := x.paramFp, inRound := true
                                digest := sha3 (vread s k src (oLen hb)) } p s
          let s := runStages k i 14 (setSlot k i .running s)
          if (s.rslot k i).state == .done then (.ok (h.slotOut i), s) else (.error (s.rslot k i).status, s)

/-! ### Resets, faults and the end of a round (R264-R267) -/

/-- Parts in flight of a slot are discarded, uncounted. [log 94 DEDUCED] -/
def discardParts (k i : Nat) (s : State) : State :=
  (s.shelf k).seqs.foldl (fun s q => (List.range 12).foldl (fun s n =>
    s.onQueue q n (fun u =>
      let l := u.inflight.filter (fun c => !(c.result.isNone && isPart i c))
      { u with inflight := l, placed := u.placed - (u.inflight.length - l.length) })) s) s

/-- CANCEL or a tenant switch: the parts of every refresh in progress are discarded and its slot is zeroised (R266); a refresh that
is DONE is no longer in progress. [log 94 DEDUCED] -/
def cancelRefreshes (k : Nat) (s : State) : State :=
  (List.range 8).foldl (fun s i =>
    if (s.rslot k i).state == .free || (s.rslot k i).state == .done then s else freeSlot k i (s.rslot k i).status (discardParts k i s)) s

/-- A bay is fenced: the refreshes it takes part in become SUSPENDED, and the other parts complete
SHELF_FENCED (R266). [log 91 DEDUCED] -/
def fenceRefreshes (k b : Nat) (s : State) : State :=
  (List.range 8).foldl (fun s i =>
    let x := s.rslot k i
    if x.parts.any (fun e => e.2 == b) && (x.state == .running || x.state == .paused || x.state == .gather) then
      setSlot k i .suspended (endParts k i .shelfFenced s)
    else s) s

/-- The last valid marker of a slot (R262). [log 92 DESIGN CHOICE] -/
def lastMarker (s : State) (k i : Nat) : Nat :=
  let ok (m : Nat) : Bool :=
    let a := markerAt (s.shelf k) i m
    vstat s k a 64 == .ok && leNat (vread s k a 1) == m && leNat (vread s k (a + 8) 8) != 0
  ((List.range 6).map (· + 1)).takeWhile ok |>.length

/-- At the start after a warm reset, each slot's state follows from its control page (R264); a slot issued since T_OPEN of the round
that waits belongs to that round (R267). [log 88 DEDUCED, 92 DESIGN CHOICE] -/
def reloadSlots (k : Nat) (s : State) : State :=
  (List.range (s.shelf k).refSlots).foldl (fun s i =>
    let a := (s.shelf k).refSlotAt i
    let b := vread s k a 128
    let valid := vstat s k a 128 == .ok && field b 0 4 == 0x4447524B && field b 4 1 != 0
    let last := lastMarker s k i
    let x : RSlot :=
      { partsN := field b 5 1, keysetId := field b 8 8, paramFp := field b 0x10 8, src := field b 0x18 8, dst := field b 0x20 8
        digest := slice b 0x30 32, last := last, head := vread s k (field b 0x18 8) 64
        outLen := if field b 0x20 8 = 0 then 0 else oLen (vread s k (field b 0x20 8) 64)
        inRound := (s.shelf k).round.active && decide ((s.shelf k).round.desc.tOpen ≤ field b 0x28 8) }
    if valid && decide (last < 6) then s.onRslot k i (fun _ => { x with state := .suspended })
    else if valid && x.dst == 0 then s.onRslot k i (fun _ => { x with state := .done })
    else freeSlot k i .ok s) (s.onLat k (fun x => { x with slots := [], window := false }))

/-- At the start after a cold reset, every control page is zeroed (R265). -/
def zeroControlPages (k : Nat) (s : State) : State :=
  (List.range (s.shelf k).refSlots).foldl (fun s i => vzero s k ((s.shelf k).refSlotAt i) 0x10000)
    (s.onLat k (fun x => { x with slots := [], window := false }))

end Sys2Proof.Machine
end

