-- ==== Sys2Proof/Machine/Lattice.lean ====
section
/-!
DEFINITION. The lattice cluster (R229-R240): NTT, INTT, MODMUL, KEYSW; and sealed rounds (R241-R251): the
sum area, partial decryption, partials from peers and combination.
-/
namespace Sys2Proof.Machine

/-! ### Residue commands (R230-R232) -/

/-- The residues of n 8-byte words. -/
def residues (b : Bytes) : Limb := (chunks 8 b).map leNat

/-- Residues as bytes. -/
def resBytes (l : Limb) : Bytes := l.flatMap (toLe 8)

/-- The blocks of a residue operand, each reduced modulo its limb (R230). -/
def resBlocks (s : State) (k : Nat) (p : PSet) (d : Bytes) (a : Nat) : List Limb :=
  (List.range (lPolys d * lCount d)).map (fun b =>
    limbRed (p.prime (lFirst d + b % lCount d)) (residues (vread s k (a + b * p.n * 8) (p.n * 8))))

/-- The parameter set of a residue command, if its limbs exist. -/
def resSet (h : Shelf) (d : Bytes) : Option PSet :=
  match h.pset (field d 8 1) with
  | none => none
  | some p => if lFirst d + lCount d ≤ p.limbs + p.special then some p else none

/-- A transform: SRC and DST are equal or apart. -/
def transform (f : Nat → Limb → Limb) (k : Nat) (d : Bytes) (s : State) : Answer :=
  match resSet (s.shelf k) d with
  | none => refuse s
  | some p =>
    let n := resLen p d
    if !latticeOk s k (lSrc d) n || !latticeOk s k (lDst d) n || (lSrc d != lDst d && overlap (lSrc d) n (lDst d) n) then refuse s
    else
      let st := if n = 0 then .ok else vstat s k (lSrc d) n
      let s := noteRead k (lSrc d) n s
      if st ≠ .ok then done st s
      else
        let out := (resBlocks s k p d (lSrc d)).zipIdx.map (fun e => f (p.prime (lFirst d + e.2 % lCount d)) e.1)
        done .ok (vwrite s k (lDst d) (out.flatMap resBytes))

/-- NTT (R231). -/
def execNtt (q n : Nat) (s : State) : Out := .next (accept 0x20 (transform ntt) q n s)

/-- INTT (R231). -/
def execIntt (q n : Nat) (s : State) : Out := .next (accept 0x21 (transform intt) q n s)

/-- MODMUL's operation (R232). -/
def modmulRun (k : Nat) (d : Bytes) (s : State) : Answer :=
  match resSet (s.shelf k) d with
  | none => refuse s
  | some p =>
    let scalar := nbit (field d 0xC 1) 0
    let acc := nbit (field d 0xC 1) 1
    let n := resLen p d
    let m := if scalar then lCount d * 8 else n
    if !latticeOk s k (lSrc d) n || !latticeOk s k (lDst d) n || !latticeOk s k (lSrc2 d) m ||
        (lSrc d != lDst d && overlap (lSrc d) n (lDst d) n) || overlap (lSrc2 d) m (lSrc d) n || overlap (lSrc2 d) m (lDst d) n then refuse s
    else
      let st := ([(lSrc d, n), (lSrc2 d, m)] ++ (if acc then [(lDst d, n)] else [])).map (fun r => if r.2 = 0 then Status.ok else vstat s k r.1 r.2)
      let s := noteBlocks k [(lSrc d, n), (lSrc2 d, m)] s
      match st.find? (fun x => x != .ok) with
      | some x => done x s
      | none =>
        let sc := residues (vread s k (lSrc2 d) m)
        let b := if scalar then (List.range (lPolys d * lCount d)).map (fun i => List.replicate p.n (sc.getD (i % lCount d) 0))
          else resBlocks s k p d (lSrc2 d)
        let old := if acc then resBlocks s k p d (lDst d) else []
        let out := ((resBlocks s k p d (lSrc d)).zip b).zipIdx.map (fun e =>
          let q := p.prime (lFirst d + e.2 % lCount d)
          let m := limbMul q e.1.1 (limbRed q e.1.2)
          if acc then limbAdd q (old.getD e.2 []) m else m)
        done .ok (vwrite s k (lDst d) (out.flatMap resBytes))

/-- MODMUL (R232). -/
def execModmul (q n : Nat) (s : State) : Out := .next (accept 0x22 modmulRun q n s)

/-! ### Objects -/

/-- Polynomial c0 or c1 of an object at address a with header hb, in coefficient form. -/
def objPoly (s : State) (k : Nat) (p : PSet) (a : Nat) (hb : Bytes) (c : Nat) : List Limb :=
  let n := p.n
  (List.range (oLevel hb)).map (fun i =>
    let q := p.prime i
    let l := limbRed q (residues (vread s k (a + 64 + (c * oLevel hb + i) * n * 8) (n * 8)))
    if oNtt hb then intt q l else l)

/-! ### KEYSW (R233-R239) -/

/-- Limb i of polynomial b (0) or a (1) of digit d of key ki, in NTT form (R225). -/
def keyLimb (s : State) (k : Nat) (x : KSet) (p : PSet) (ki d c i : Nat) : Limb :=
  let m := p.limbs + p.special
  residues (vread s k (x.chunkAt (x.first ki) + ((2 * d + c) * m + i) * p.n * 8) (p.n * 8))

/-- The digits of ℓ limbs: consecutive limbs, α each (R233). -/
def digits (p : PSet) (level : Nat) : List (List Nat) :=
  let alpha := (p.limbs + p.dnum - 1) / p.dnum
  (List.range ((level + alpha - 1) / alpha)).map (fun d => (List.range level).filter (fun i => i / alpha == d))

/-- The limbs of the accumulators: 0 to ℓ − 1, then the special primes. -/
def accLimbs (p : PSet) (level : Nat) : List Nat := List.range level ++ (List.range p.special).map (· + p.limbs)

/-- The accumulator A_b (c = 0) or A_a (c = 1) for a key, from u1 in coefficient form. -/
def accumulate (s : State) (k : Nat) (x : KSet) (p : PSet) (ki level c : Nat) (u1 : List Limb) : List Limb :=
  (accLimbs p level).map (fun i =>
    let q := p.prime i
    (digits p level).zipIdx.foldl (fun acc e =>
      let ext := if e.1.contains i then u1.getD i [] else fbc (e.1.map p.prime) q (e.1.map (fun j => u1.getD j []))
      limbAdd q acc (limbMul q (ntt q ext) (limbRed q (keyLimb s k x p ki e.2 c i)))) (List.replicate p.n 0))

/-- y = (A − FBC from P to Q of A) · P⁻¹ over ℓ limbs, in coefficient form. -/
def reduceP (p : PSet) (level : Nat) (a : List Limb) : List Limb :=
  let ps := (List.range p.special).map (fun j => p.prime (p.limbs + j))
  let prod := ps.foldl (· * ·) 1
  let top := (List.range p.special).map (fun j => intt (p.prime (p.limbs + j)) (a.getD (level + j) []))
  (List.range level).map (fun i =>
    let q := p.prime i
    limbScale q (invMod q (prod % q)) (limbSub q (intt q (a.getD i [])) (fbc ps q top)))

/-- Both accumulators of a key switch of the object at a: A_b, then A_a. -/
def keyswAcc (s : State) (k : Nat) (x : KSet) (p : PSet) (ki a : Nat) (hb : Bytes) : List Limb × List Limb :=
  let u1 := (objPoly s k p a hb 1).zipIdx.map (fun e => galois (p.prime e.2) (x.galois ki) e.1)
  (accumulate s k x p ki (oLevel hb) 0 u1, accumulate s k x p ki (oLevel hb) 1 u1)

/-- The body of Y (R233). -/
def keyswBody (s : State) (k : Nat) (x : KSet) (p : PSet) (ki a : Nat) (hb : Bytes) : Bytes :=
  let level := oLevel hb
  let u0 := (objPoly s k p a hb 0).zipIdx.map (fun e => galois (p.prime e.2) (x.galois ki) e.1)
  let acc := keyswAcc s k x p ki a hb
  let yb := reduceP p level acc.1
  let ya := reduceP p level acc.2
  let out (l : List Limb) : Bytes := (l.zipIdx.map (fun e => if oNtt hb then ntt (p.prime e.2) e.1 else e.1)).flatMap resBytes
  out ((u0.zip yb).zipIdx.map (fun e => limbAdd (p.prime e.2) e.1.1 e.1.2)) ++ out ya

/-- The operands of a key switch at a level, from a source of n0 bytes (R230, R234). -/
def keyswOperands (s : State) (k src n0 scr dst level : Nat) (p : PSet) : Bool :=
  let n := objLen level p.n
  let m := scrLen p level
  latticeOk s k scr m && latticeOk s k dst n && !overlap src n0 scr m && !overlap src n0 dst n && !overlap scr m dst n

/-- The stream and the final phase, from the object at a (R234, R235). An aborted stream leaves SCR's bytes
open. [log 81 DESIGN CHOICE] -/
def keyswFrom (k : Nat) (x : KSet) (p : PSet) (ki a scr dst budget : Nat) (mark : Bool) (s : State) : Answer :=
  let hb := vread s k a 64
  let st := streamStatus s k x (x.first ki) (x.count ki)
  let s := noteStream k x (x.first ki) (x.count ki) s
  if st ≠ .ok then
    let (b, s) := drawBytes (scrLen p (oLevel hb)) s
    latDone k st (vwrite s k scr b)
  else
    let flags := oFlags hb % 2 + (if oUnreliable hb || mark then 2 else 0)
    let s := if mark then countMark k s else s
    let readable := vstat s k a (oLen hb) == .ok
    let s := noteRead k a (oLen hb) s
    let acc := keyswAcc s k x p ki a hb
    let body := keyswBody s k x p ki a hb
    let s := vwrite s k dst (hdrLike hb (oLevel hb) (flags + 4) budget)
    if readable then
      let s := vwrite s k scr ((acc.1 ++ acc.2).flatMap resBytes)
      latDone k .ok (vwrite (vwrite s k (dst + 64) body) k dst (hdrLike hb (oLevel hb) flags budget))
    else
      let (b, s) := drawBytes (scrLen p (oLevel hb)) s
      latDone k .uncorrectable (vwrite s k scr b)

/-- KEYSW's operation. [log 80 DEDUCED, 82 DEDUCED, 89 DEDUCED] -/
def keyswRun (k : Nat) (d : Bytes) (s : State) : Answer :=
  let h := s.shelf k
  let src := lSrc d
  let scr := lSrc2 d
  let dst := lDst d
  let ki := field d 0x28 2
  if !latticeOk s k src 64 then refuse s
  else
    let hb := vread s k src 64
    let s := noteRead k src 64 s
    match srcRefused h.conf (vstat s k src 64) hb, h.kset (field d 8 1) with
    | some st, _ => latDone k st s
    | none, none => refuse s
    | none, some x =>
      match h.pset x.pset with
      | none => refuse s
      | some p =>
        if !latticeOk s k src (oLen hb) || !fitsSet p hb || !keyswOperands s k src (oLen hb) scr dst (oLevel hb) p || p.special == 0 || p.dnum == 0 || !decide (ki < x.keys) then refuse s
        else if oKeyset hb ≠ x.id then latDone k .keysetMismatch s
        else
          let out := min (oBudget hb) p.kswCap - 16
          let short := decide (min (oBudget hb) p.kswCap < p.decCost + 16)
          if !short then keyswFrom k x p ki src scr dst out false s
          else match oPolicy hb with
            | 0 => latDone k .noiseExhausted s
            | 1 =>
              match autoRefresh k (field d 8 1) src s with
              | (.error st, s) => latDone k st s
              | (.ok a, s) =>
                if min p.refreshBudget p.kswCap < p.decCost + 16 then latDone k .noiseExhausted s
                else if !keyswOperands s k src (oLen hb) scr dst p.limbs p then refuse s
                else keyswFrom k x p ki a scr dst (min p.refreshBudget p.kswCap - 16) false s
            | _ => keyswFrom k x p ki src scr dst out true s

/-- A KEYSW that is not refused and that AUTO must refresh waits while refreshes outside a round may not
run (R268); a slot that holds the refreshed copy needs no refresh (R267). [log 79 DEDUCED] -/
def keyswWaits (s : State) (k : Nat) (d : Bytes) : Bool :=
  let h := s.shelf k
  let src := lSrc d
  let hb := vread s k src 64
  let set := (h.kset (field d 8 1)).bind (fun x => (h.pset x.pset).map (fun p => (x, p)))
  !h.round.active && bit (h.reg rRefreshCfg) 4 && !h.lat.window && latticeOk s k src 64 && (srcRefused h.conf (vstat s k src 64) hb).isNone &&
  oPolicy hb == 1 &&
  (match set with
    | none => false
    | some (x, p) =>
      latticeOk s k src (oLen hb) && fitsSet p hb && keyswOperands s k src (oLen hb) (lSrc2 d) (lDst d) (oLevel hb) p && p.special != 0 &&
      p.dnum != 0 && decide (field d 0x28 2 < x.keys) && oKeyset hb == x.id && decide (min (oBudget hb) p.kswCap < p.decCost + 16) &&
      x.refreshKeys && decide (rdMin (refreshDesc s k x) ≤ oBudget hb) &&
      (match autoSlot s k src hb with | some i => (s.rslot k i).state != .done | none => false))

/-- KEYSW (R233). [log 79 DEDUCED] -/
def execKeysw (q n : Nat) (s : State) : Out :=
  .next (if presents s q n 0x23 && keyswWaits s ((shelfOf s (q / 4)).getD 0) (headDesc s q n) then s else accept 0x23 keyswRun q n s)

/-! ### The sum area at freeze (R237, R243) -/

/-- NOISE_BUDGET of the sum of n committed crates. [log 82 DEDUCED] -/
def sumBudget (p : PSet) (n : Nat) : Nat := p.fresh - 16 * clog2 n

/-- At freeze the round controller writes each sum object's header. -/
def writeSumHeaders (k : Nat) (s : State) : State :=
  let h := s.shelf k
  match h.sealedRound, h.roundSet with
  | true, some p =>
    let b := sumBudget p h.round.committed
    let hb := hdrBytes p.scheme p.log2n h.round.desc.keysetId p.fp p.limbs p.form b p.policy
    let s := (List.range p.cts).foldl (fun s o => vwrite s k ((h.sumArea p).1 + o * p.obj) hb) s
    s.onSeal k (fun x => { x with sumHdr := true, sumBudget := b, drained := [] })
  | _, _ => s

/-! ### Partial decryption (R227, R244, R245) -/

/-- The resident key set that the round names. -/
def roundKset (h : Shelf) : Option (Nat × KSet) := h.lat.ksets.find? (fun e => e.2.id == h.round.desc.keysetId)

/-- Limb i of the unsealed share (R227). [log 76 DEDUCED] -/
def shareLimb (s : State) (k : Nat) (x : KSet) (p : PSet) (key : Bytes) (i : Nat) : Limb :=
  let n := 8 * p.n
  let ctr := beNat (x.nonce ++ [0, 0, 0, 1]) + 1 + i * p.n / 2
  residues (xorBytes (vread s k (x.chunkAt x.shareFirst + i * n) n) (aesCtr key ctr n))

/-- One sample of the noise sampler: an integer that the manual leaves to chance. [log 77 DESIGN CHOICE] -/
def sample (s : State) : Int × State := let (v, s) := draw 128 s; (sext 128 v, s)

/-- n samples. [log 77 DESIGN CHOICE] -/
def samples : Nat → State → List Int × State
  | 0, s => ([], s)
  | n + 1, s =>
    let (z, s) := sample s
    let (l, s) := samples n s
    (z :: l, s)

/-- Residue of an integer. -/
def resOf (q : Nat) (z : Int) : Nat := (z % (q : Int)).toNat

/-- The partial decryption of one object: its L limbs in coefficient form. -/
def partialOf (s : State) (k : Nat) (x : KSet) (p : PSet) (key : Bytes) (a : Nat) (z : List Int) : List Limb :=
  let hb := vread s k a 64
  let n := p.n
  (List.range p.limbs).map (fun i =>
    let q := p.prime i
    let c := limbRed q (residues (vread s k (a + 64 + (oLevel hb + i) * n * 8) (n * 8)))
    let c := if oNtt hb then c else ntt q c
    let pi := intt q (limbMul q c (limbRed q (shareLimb s k x p key i)))
    limbAdd q pi (z.map (fun e => resOf q (if p.scheme = 1 then (p.t : Int) * e else e))))

/-- The use of samples by a command of bay b: the sampler's fill and request count move on by amounts that
depend on timing and rejections (R272). [log 77 DESIGN CHOICE, 106 DEDUCED] -/
def useSampler (b : Nat) (s : State) : State :=
  let (f, s) := draw 13 s
  let (r, s) := draw 16 s
  s.onBay b (fun y => { y with sampler := { y.sampler with
    fill := f % 4097, requests := sat 32 r y.sampler.requests
    reseeding := y.sampler.reseeding || decide (2 ^ 32 ≤ y.sampler.requests + r) } })

/-- The head of this member's partial message (R245). -/
def partHead (h : Shelf) (p : PSet) (resend : Bool) : Bytes :=
  toLe 8 h.round.desc.keysetId ++ fit 32 h.round.ownDigest ++ fit 32 h.sealSt.sumDigest ++ toLe 1 h.round.desc.groupIndex ++
  toLe 1 p.cts ++ toLe 1 p.limbs ++ toLe 1 p.log2n ++ toLe 1 (b2n resend) ++ zeros 51

/-- Send this member's partial to peer j. -/
def sendPartial (k j : Nat) (resend : Bool) (s : State) : State :=
  let h := s.shelf k
  match h.roundSet with
  | none => s
  | some p =>
    let a := h.partSlot p h.round.desc.groupIndex
    sendGroup k j 4 0 (partHead h p resend ++ vread s k (a + 128) (p.partLen - 128)) s

/-- When every object has its partial, the head is written, PDEC_DONE is set and the partial goes to every
other member (R244). -/
def finishPdec (k : Nat) (p : PSet) (s : State) : State :=
  let h := s.shelf k
  if h.sealSt.pdecObjs.length = p.cts then
    let s := vwrite s k (h.partSlot p h.round.desc.groupIndex) (partHead h p false)
    let s := fixSet k (s.onSeal k (fun x => { x with pdecDone := true }))
    h.round.peers.foldl (fun s j => sendPartial k j false s) s
  else s

/-- One sum object, from the object at a. -/
def pdecFrom (k b o a : Nat) (x : KSet) (p : PSet) (key : Bytes) (s : State) : Except Status Unit × State :=
  if vstat s k a (oLen (vread s k a 64)) ≠ .ok then (.error (vstat s k a (oLen (vread s k a 64))), noteRead k a (oLen (vread s k a 64)) s)
  else if vstat s k (x.chunkAt x.shareFirst) p.shareLen ≠ .ok then (.error .uncorrectable, noteRead k (x.chunkAt x.shareFirst) p.shareLen s)
  else
    let unrel := oUnreliable (vread s k a 64)
    let (z, s) := samples p.n s
    let s := useSampler b s
    let d := partialOf s k x p key a z
    let h := s.shelf k
    let at_ := h.partSlot p h.round.desc.groupIndex + 128 + o * (8 * p.limbs * p.n)
    let s := vwrite s k at_ (d.flatMap resBytes)
    (.ok (), s.onSeal k (fun y => { y with pdecObjs := y.pdecObjs ++ [o], unreliable := y.unreliable || unrel }))

/-- The objects of a PDEC in turn; one that is exhausted follows R238. [log 80 DEDUCED] -/
def pdecObjects (k b ki : Nat) (x : KSet) (p : PSet) (key : Bytes) : List Nat → State → Answer
  | [], s => latDone k .ok (finishPdec k p s)
  | o :: r, s =>
    let h := s.shelf k
    let a := (h.sumArea p).1 + o * p.obj
    let hb := vread s k a 64
    let go (a : Nat) (s : State) : Answer :=
      match pdecFrom k b o a x p key s with
      | (.error st, s) => latDone k st s
      | (.ok _, s) => pdecObjects k b ki x p key r s
    let s := noteRead k a 64 s
    match srcRefused h.conf (vstat s k a 64) hb with
    | some st => latDone k st s
    | none =>
      if p.decCost ≤ oBudget hb then go a s
      else match oPolicy hb with
        | 0 => latDone k .noiseExhausted s
        | 1 =>
          match autoRefresh k ki a s with
          | (.error st, s) => latDone k st s
          | (.ok a, s) => if p.refreshBudget < p.decCost then latDone k .noiseExhausted s else go a s
        | _ => go a (countMark k (s.onSeal k (fun y => { y with unreliable := true })))

/-- PDEC's operation (R244). -/
def pdecRun (q k : Nat) (d : Bytes) (s : State) : Answer :=
  let h := s.shelf k
  let first := field d 9 1
  let num := field d 0xA 1
  let objs := (List.range num).map (· + first)
  match h.roundSet, roundKset h with
  | some p, some (ki, x) =>
    if !h.sealedRound || h.round.phase != .unmask || !h.round.begun || !h.sealSt.sumReady || !decide (first + num ≤ p.cts) ||
        objs.any h.sealSt.pdecObjs.contains then refuse s
    else match bindCur s x.shareSlot (shareUse k) with
      | .error st => done st s
      | .ok key =>
        let a := pdecObjects k (q / 4) ki x p key.key objs s
        let bi := h.bayIndex (q / 4)
        (a.1, a.2.1, vzero a.2.2 k (loftAddr bi streamBuf.1) streamBuf.2)
  | _, _ => refuse s

/-- PDEC (R244): while its bay's sampler is being reseeded for UNMASK the command waits (R271). [log 78 DEDUCED] -/
def execPdec (q n : Nat) (s : State) : Out :=
  .next (if (s.bay (q / 4)).sampler.reseeding then s else accept 0x24 (pdecRun q) q n s)

/-! ### Partials from peers (R246, R247, R250) -/

/-- The residues of a partial are canonical. -/
def partialCanonical (p : PSet) (b : Bytes) : Bool :=
  (chunks 8 b).zipIdx.all (fun e => decide (leNat e.1 < p.prime (e.2 / p.n % p.limbs)))

/-- A partial message from member j (R246). [log 83 DESIGN CHOICE] -/
def takePartial (k j : Nat) (body : Bytes) (s : State) : State :=
  let h := s.shelf k
  match h.sealedRound, h.roundSet with
  | true, some p =>
    let bad := body.length != p.partLen || field body 0x48 1 != j || field body 0x49 1 != p.cts || field body 0x4A 1 != p.limbs ||
      field body 0x4B 1 != p.log2n || !decide (field body 0x4C 1 < 2) || !zeroAt body 0x4D 51 || !partialCanonical p (body.drop 128)
    let resend := nbit (field body 0x4C 1) 0
    let diverge (s : State) : State := s.onRound k (fun r => { r with divergent := sat 32 1 r.divergent })
    if bad then s.onSeal k (fun x => { x with badPartial := sat 16 1 x.badPartial })
    else if h.sealSt.stored.contains j then
      if resend && h.sealSt.pdecDone then
        sendPartial k j false (s.onSeal k (fun x => { x with resent := sat 16 1 x.resent }))
      else s
    else if field body 0 8 ≠ h.round.desc.keysetId then diverge (s.onSeal k (fun x => { x with keysetDiscard := true }))
    else if !h.sealSt.sumReady then
      (vwrite s k (h.partSlot p j) body).onSeal k (fun x => { x with stored := x.stored ++ [j], waiting := x.waiting ++ [j] })
    else if !h.sealSt.set_.isEmpty then
      if slice body 8 32 == h.round.ownDigest && slice body 0x28 32 == h.sealSt.sumDigest then
        s.onSeal k (fun x => { x with surplus := sat 16 1 x.surplus })
      else diverge s
    else checkDigests k j ((vwrite s k (h.partSlot p j) body).onSeal k (fun x => { x with stored := x.stored ++ [j] }))
  | _, _ => s

/-! ### Combination (R248, R249) -/

/-- Factorial. -/
def fact : Nat → Nat
  | 0 => 1
  | n + 1 => (n + 1) * fact n

/-- Λ_j of R248 for holder j of the set. -/
def bigLambda (group : Nat) (set : List Nat) (j : Nat) : Int :=
  let o := set.filter (· != j)
  let num := o.foldl (fun (a : Int) m => a * (Int.ofNat m + 1)) (Int.ofNat (fact group))
  let den := o.foldl (fun (a : Int) m => a * (Int.ofNat m - Int.ofNat j)) 1
  num / den

/-- The centred representative of v modulo m, in (−m/2, m/2]. -/
def centred (m v : Nat) : Int := if 2 * v ≤ m then (v : Int) else (v : Int) - (m : Int)

/-- The nearest integer to n / d, d positive; a half rounds up. -/
def nearest (n d : Int) : Int := (2 * n + d) / (2 * d)

/-- The plaintext coefficients of object o, before slot decoding. -/
def combineObj (s : State) (k : Nat) (p : PSet) (o : Nat) : List Nat :=
  let h := s.shelf k
  let g := h.round.desc.groupSize
  let set := h.sealSt.set_
  let a := (h.sumArea p).1 + o * p.obj
  let c0 := objPoly s k p a (vread s k a 64) 0
  let limbs := (List.range p.limbs).map (fun i =>
    let q := p.prime i
    let parts := set.map (fun j =>
      let at_ := h.partSlot p j + 128 + (o * p.limbs + i) * p.n * 8
      limbScale q (resOf q (bigLambda g set j)) (residues (vread s k at_ (p.n * 8))))
    parts.foldl (fun acc x => limbAdd q acc x) (limbScale q (fact g % q) (c0.getD i [])))
  let qs := (List.range p.limbs).map p.prime
  let big := qs.foldl (· * ·) 1
  let inv := invMod p.t (fact g % p.t)
  (columns p.n limbs).map (fun x =>
    let v := centred big (crt qs x)
    let m := if p.scheme = 1 then resOf p.t v else resOf p.t (nearest ((p.t : Int) * v) (big : Int))
    m * inv % p.t)

/-- The values of an object: coefficients, or slots under slot encoding. -/
def combineValues (s : State) (k : Nat) (p : PSet) (o : Nat) : List Nat :=
  let m := combineObj s k p o
  if p.slotEnc then ntt p.t m else m

/-- The reads of a PCOMB's objects and partials. -/
def combineStat (s : State) (k : Nat) (p : PSet) (objs : List Nat) : Status :=
  let h := s.shelf k
  let l := objs.flatMap (fun o => ((h.sumArea p).1 + o * p.obj, p.obj) ::
    h.sealSt.set_.map (fun j => (h.partSlot p j + 128 + o * p.limbs * p.n * 8, p.limbs * p.n * 8)))
  blocksStat s k l

/-- Bit length. -/
def bitLen (n : Nat) : Nat := if n = 0 then 0 else n.log2 + 1

/-- The refusals of PCOMB (R125, R248, R249). [log 85 DEDUCED] -/
def pcombCheck (q k : Nat) (d : Bytes) (s : State) : Option Status :=
  let h := s.shelf k
  let c := s.cask (foldBay q) (fCask d)
  match h.roundSet with
  | none => some .paramUnsupported
  | some p =>
    if h.sealedRound && !h.sealSt.set_.isEmpty && !foldShut h && rangeOk c (fCoff d) (mNum d * p.n) && c.op == opExact &&
        decide (bitLen p.t + 1 ≤ c.inWidth) && decide (mFirst d + mNum d ≤ p.cts) then none
    else some .paramUnsupported

/-- PCOMB runs: its values go straight into PCASK as one FOLD.O. [log 85 DEDUCED] -/
def pcombRun (q k : Nat) (d : Bytes) (s : State) : Answer :=
  match (s.shelf k).roundSet with
  | none => refuse s
  | some p =>
    let objs := (List.range (mNum d)).map (· + mFirst d)
    let at_ (o : Nat) : Nat := ((s.shelf k).sumArea p).1 + o * p.obj
    let bad := objs.findSome? (fun o => srcRefused false (vstat s k (at_ o) 64) (vread s k (at_ o) 64))
    let st := bad.getD (combineStat s k p objs)
    if st ≠ .ok then done st s
    else
      let raws := objs.flatMap (fun o => (combineValues s k p o).map (fun v => wrap 64 (centred p.t v)))
      let b := foldBay q
      let mods := (s.bay b).mods
      let s := (readFold b (fCask d) (fCoff d) raws.length s).onCask b (fCask d) (fun c =>
        { ((c.foldRange mods 0x06 0 false false true (fCoff d) raws).clearWhole (fCoff d) raws.length).countFold mods with plain := true })
      done .ok (s.onSeal k (fun x =>
        let l := objs.foldl (fun l o => insSet o l) x.combObjs
        { x with combObjs := l, combined := l.length == p.cts }))

/-- PCOMB (R248). -/
def execPcomb (q n : Nat) (s : State) : Out := .next (foldAccept 0x0B (pcombCheck q) (pcombRun q) q n s)

/-! ### START, the end of a round, and a restore (R241, R250, R251, R267) -/

/-- The least x with START refusing a sealed round: DETAIL and BAD_FIELD, in the order of R241 and then R267.
`regions` are those of R111. [log 89 DEDUCED] -/
def sealedBad (s : State) (k : Nat) (d : RoundDesc) (regions : List (Nat × Nat)) : Option (Status × Nat) :=
  let h := s.shelf k
  match h.pset (d.inst % 16) with
  | none => some (.paramUnsupported, 0x3E)
  | some p =>
    let sum := h.sumArea p
    let part := region64k (h.reg rSealPart)
    if 16 ≤ d.inst then some (.paramUnsupported, 0x3E)
    else if d.elemType ≠ 0x20 then some (.paramUnsupported, 0x24)
    else if d.foldOp ≠ opAddRns then some (.paramUnsupported, 0x25)
    else if d.elemCount ≠ p.cts * p.n then some (.paramUnsupported, 0x28)
    else if d.coordOffset % p.n ≠ 0 then some (.paramUnsupported, 0x2C)
    else if p.t ≤ d.groupSize then some (.paramUnsupported, 0x3C)
    else match h.lat.ksets.find? (fun e => e.2.id == d.keysetId) with
      | none => some (.keysetMismatch, 0x90)
      | some (_, x) =>
        let rd := refreshDesc s k x
        let scratch := decide (0 < (region64k (h.reg rRefreshScr)).2)
        if x.paramFp ≠ p.fp ∨ x.holder ≠ d.groupIndex ∨ x.groupSize ≠ d.groupSize ∨ x.threshold ≠ d.threshold then some (.keysetMismatch, 0x90)
        else if p.policy = 0 ∧ p.fresh < p.decCost + 16 * clog2 d.clientCount then some (.noiseExhausted, 0x1C)
        else if p.policy = 1 ∧ (!x.refreshKeys ∨ !scratch) then some (.paramUnsupported, 0x90)
        else if (match bindCur s x.shareSlot (shareUse k) with | .ok _ => false | .error _ => true) then some (.deniedAttribute, 0xFD)
        else if !inCellar h sum.1 sum.2 ∨ !inCellar h part.1 part.2 ∨ part.2 < d.groupSize * roundUp p.partLen 0x10000 ∨
            overlap sum.1 sum.2 part.1 part.2 ∨ !regions.all (fun r => !overlap sum.1 sum.2 r.1 r.2 && !overlap part.1 part.2 r.1 r.2) then
          some (.paramUnsupported, 0xFE)
        else if p.policy = 1 ∧ h.refSlots = 0 then some (.paramUnsupported, 0xFE)
        else if p.policy = 1 ∧ (p.refreshBudget < p.decCost ∨ p.fresh < rdMin rd + 16 * clog2 d.clientCount) then some (.noiseExhausted, 0x1C)
        else none

/-- After a restore in UNMASK the device sends its own partial again, with RESEND, which RESENT counts (R250). -/
def resendPartials (k : Nat) (s : State) : State :=
  let h := s.shelf k
  if h.sealedRound && h.round.phase == .unmask && h.sealSt.pdecDone then
    h.round.peers.foldl (fun s j => sendPartial k j true (s.onSeal k (fun x => { x with resent := sat 16 1 x.resent }))) s
  else s

end Sys2Proof.Machine
end

