-- ==== Sys2Proof/Machine/Release.lean ====
section
/-!
DEFINITION. Noise, optimiser step and release (10_release.md): the checks of R283, the noise sampler's
reseed (R271), NOISE (R274, R275), OPTSTEP (R279-R282), SEAL and the sealed pages (R284, R285), the
record and its signatures (R286, R287), and the flip (R288-R290).
-/
namespace Sys2Proof.Machine

/-- Change the release state of shelf k. -/
def State.onRel (s : State) (k : Nat) (f : Rel → Rel) : State := s.onShelf k (fun h => { h with rel := f h.rel })

def rRelAck : Nat := 0x0F08

def RoundDesc.noiseEn (d : RoundDesc) : Bool := nbit d.flags 1
def RoundDesc.stepEn (d : RoundDesc) : Bool := nbit d.flags 2

/-! ### Release Casks and the payload (R270, R284) -/

/-- An arithmetic of a release Cask. -/
def opRelease (op : Nat) : Bool := decide (1 ≤ op) && decide (op ≤ 7)

/-- An enabled Cask with such an arithmetic. -/
def Cask.release (c : Cask) : Bool := c.en && opRelease c.op

/-- Every release Cask of the shelf, with its bay and number. -/
def releaseCasks (s : State) (k : Nat) : List (Nat × Nat × Cask) :=
  (s.shelf k).bays.flatMap (fun b => ((s.bay b).casks.filter (fun e => e.2.release)).map (fun e => (b, e.1, e.2)))

/-- PAYLOAD_KIND of a round (R284). -/
def payloadKind (witness : Bool) (d : RoundDesc) : Nat :=
  if witness then 0 else if d.stepEn then 3 else if d.mode = 2 then 2 else 1

/-- The payload arithmetic. -/
def payloadOp (d : RoundDesc) : Nat := if d.mode = 3 then opExact else d.foldOp

/-- Bytes of one payload element. -/
def payloadElem (d : RoundDesc) : Nat :=
  let op := payloadOp d
  if op = opAdd32 then 4 else if op = opAdd64 ∨ op = opAddP ∨ op = opAddF64 then 8 else 16

/-- Bytes of the payload; opt is the optimiser. -/
def payloadLen (kind opt : Nat) (d : RoundDesc) : Nat :=
  match kind with
  | 0 => 0
  | 1 => payloadElem d * d.elemCount
  | 2 => sobLen (payloadElem d) d.elemCount
  | _ => shardLen opt d.elemCount

/-- Payload bytes of a page. -/
def pagePlain : Nat := 65488
/-- PAGES (R285). -/
def pageCount (payload : Nat) : Nat := (payload + pagePlain - 1) / pagePlain

/-- The kind, length and optimiser of the running round. -/
def Shelf.opt (h : Shelf) : Nat := field h.rel.opt 6 1
def Shelf.payKind (h : Shelf) : Nat := payloadKind h.rel.witness h.round.desc
def Shelf.payLen (h : Shelf) : Nat := payloadLen h.payKind h.opt h.round.desc
def Shelf.relScr (h : Shelf) : Nat × Nat := region64k (h.reg rRelScr)
/-- The model shard's Loft copy (R279). -/
def Shelf.copyAt (h : Shelf) : Nat := field h.rel.opt 0x20 8
def Shelf.shardBytes (h : Shelf) : Nat := shardLen h.opt h.round.desc.elemCount

/-! ### The checks of R283 -/

/-- Read a block of n bytes in the shelf's Cellar range. -/
def readBlock (s : State) (k a n : Nat) : Except Status Bytes :=
  if inCellar (s.shelf k) a n then
    if vstat s k a n = .ok then .ok (vread s k a n) else .error (vstat s k a n)
  else .error .paramUnsupported

/-- The noise block is as R273 says. [log 99 DEDUCED] -/
def noiseOk (d : RoundDesc) (b : Bytes) : Bool :=
  let num := field b 8 8
  let den := field b 0x10 8
  let rel := field b 7 1
  field b 0 4 == 0x45534E4B && field b 4 2 == 1 && (field b 6 1 == 1 || field b 6 1 == 2) &&
  (if d.mode = 3 then decide (rel < d.groupSize) else rel == 0) && decide (rel < d.groupSize) &&
  decide (1 ≤ num) && decide (1 ≤ den) && decide (den ≤ num * 256) && decide (num ≤ den * 2 ^ 62) && zeroAt b 0x18 40

/-- An FP32 value in [0, 1). [log 99 DEDUCED] -/
def unitF32 (x : Nat) : Bool := x == 0x8000_0000 || decide (x < 0x3F80_0000)

/-- The optimiser block is as R277 says. -/
def optOk (b : Bytes) : Bool :=
  let opt := field b 6 1
  let tau := field b 0x14 4
  field b 0 4 == 0x54504F4B && field b 4 2 == 1 && decide (1 ≤ opt) && decide (opt ≤ 5) && decide (field b 7 1 ≤ 2) &&
  F32.finite (field b 8 4) && unitF32 (field b 0xC 4) && unitF32 (field b 0x10 4) &&
  (if 3 ≤ opt then decide (0 < tau) && decide (tau < F32.inf) else true) &&
  (if field b 7 1 = 1 then decide (1 ≤ field b 0x18 4) else true) && zeroAt b 0x1C 4 && field b 0x20 8 % 0x10000 == 0 && zeroAt b 0x28 24

/-- The shard copy fits in the shelf's Loft clear of enabled Kegs, ring reservations and stream buffers. -/
def copyFits (s : State) (k : Nat) (d : RoundDesc) (b : Bytes) : Bool :=
  let h := s.shelf k
  let a := field b 0x20 8
  let n := shardLen (field b 6 1) d.elemCount
  let kegs := h.bays.zipIdx.flatMap (fun e => ((s.bay e.1).casks.filter (fun c => c.2.en)).map (fun c => (loftAddr e.2 c.2.kegAt.1, c.2.kegAt.2)))
  let rings := h.intake.rings.flatMap (fun e => e.2.reserve.map (fun r => (loftAddr e.2.bay r.1, r.2)))
  inLoft h a n && (kegs ++ rings ++ streamClosed h).all (fun r => !overlap a n r.1 r.2)

/-- The shard header is as R278 says, for an optimiser. -/
def shardOk (d : RoundDesc) (opt : Nat) (b : Bytes) : Bool :=
  field b 0 4 == 0x4C444D4B && field b 4 2 == 1 && field b 6 1 == opt && field b 7 1 == optVectors opt &&
  field b 8 4 == d.elemCount && field b 0xC 4 == d.coordOffset && zeroAt b 0x20 32

/-- The release descriptor is as R288 says, and each buffer holds a release of so many pages. -/
def relDescOk (h : Shelf) (b : Bytes) (pages : Nat) : Bool :=
  let act := field b 6 1
  let b0 := relBuf b 0
  let b1 := relBuf b 1
  field b 0 4 == 0x5344524B && field b 4 2 == 1 && (act == 0 || act == 1 || act == 0xFF) && zeroAt b 7 1 &&
  b0.1 % 0x10000 == 0 && b1.1 % 0x10000 == 0 && inCellar h b0.1 b0.2 && inCellar h b1.1 b1.2 && !overlap b0.1 b0.2 b1.1 b1.2 &&
  zeroAt b 0x2C 4 && zeroAt b 0x38 8 && decide (4096 + pages * 65536 ≤ b0.2)

/-- The blocks read at START. -/
structure RelBlocks where
  noise   : Bytes := []
  opt     : Bytes := []
  shard   : Bytes := []
  desc    : Bytes := []
  witness : Bool := false

/-- A block read for a round that uses it, and its check: the block, or DETAIL and BAD_FIELD. -/
def blockChecked (s : State) (k : Nat) (used : Bool) (a bad : Nat) (ok : Bytes → Bool) : Except (Status × Nat) Bytes :=
  if used then
    match readBlock s k a 64 with
    | .error st => .error (st, bad)
    | .ok b => if ok b then .ok b else .error (.paramUnsupported, bad)
  else .ok []

/-- R283, in table order: the blocks, or DETAIL and BAD_FIELD. `regions` are those of R111. -/
def releaseChecks (s : State) (k : Nat) (d : RoundDesc) (regions : List (Nat × Nat)) : Except (Status × Nat) RelBlocks :=
  let h := s.shelf k
  match blockChecked s k d.noiseEn d.noiseAddr 0xA8 (noiseOk d) with
  | .error e => .error e
  | .ok noise =>
  match blockChecked s k d.stepEn d.optAddr 0xB0 (fun b => optOk b && copyFits s k d b) with
  | .error e => .error e
  | .ok opt =>
  let o := field opt 6 1
  match blockChecked s k d.stepEn d.modelAddr 0x98 (fun b => shardOk d o b && inCellar h d.modelAddr (shardLen o d.elemCount)) with
  | .error e => .error e
  | .ok shard =>
  let wit := d.mode == 3 && d.noiseEn && d.groupIndex != field noise 7 1
  let pay := payloadLen (payloadKind wit d) o d
  match blockChecked s k true d.releaseAddr 0xA0 (fun b => relDescOk h b (pageCount pay)) with
  | .error e => .error e
  | .ok desc =>
    let scr := h.relScr
    let need := roundUp pay 0x10000 + roundUp ((d.elemCount + 7) / 8) 0x10000
    if need ≤ scr.2 ∧ inCellar h scr.1 scr.2 ∧ (regions ++ [relBuf desc 0, relBuf desc 1]).all (fun r => !overlap scr.1 scr.2 r.1 r.2) then
      .ok { noise := noise, opt := opt, shard := shard, desc := desc, witness := wit }
    else .error (.paramUnsupported, 0xFE)

/-- The release state at the start of a round (R292). -/
def relStart (k : Nat) (x : RelBlocks) (s : State) : State :=
  s.onRel k (fun _ => { noise := x.noise, opt := x.opt, shard := x.shard, relDesc := x.desc, witness := x.witness })

/-! ### The sampler's DRBG (R271) -/

/-- The samplers of the shelf's bays are to be reseeded. -/
def reseedBays (k : Nat) (s : State) : State :=
  (s.shelf k).bays.foldl (fun s b => s.onBay b (fun y => { y with sampler := { y.sampler with reseeding := true } })) s

/-- DRBG_RESEED (R271): the first TRNG output passes its health test, or the retry passes; otherwise the reseed
has failed and the round of the bay's shelf ends FAULTED. [log 104 DESIGN CHOICE, 105 DEDUCED, 106 DEDUCED] -/
def execDrbgReseed (b : BitVec 4) (first retry : Bool) (s : State) : Out :=
  .next (
    let b := b.toNat
    if (s.bay b).sampler.reseeding then
      if first || retry then
        s.onBay b (fun y => { y with sampler := { y.sampler with reseeding := false, fail := false, requests := 0, inst := true } })
      else
        let s := s.onBay b (fun y => { y with sampler := { y.sampler with reseeding := false, fail := true } })
        match shelfOf s b with
        | none => s
        | some k => if (s.shelf k).round.active then endRound k .faulted .ok (s.onRel k (fun r => { r with reseedFail := true })) else s
    else s)

/-! ### NOISE (R270, R274, R275) -/

/-- TILE of a block F command. -/
def fTile (d : Bytes) : Nat := field d 0xA 1

/-- The start of NOISE: every row of every enabled Cask is fresh, or the round ends FAULTED; with NOISE_EN the
samplers are reseeded. -/
def enterNoise (k : Nat) (s : State) : State :=
  let h := s.shelf k
  if h.bays.all (fun b => (s.bay b).casks.all (fun e => !e.2.en || e.2.live.isEmpty)) then
    if h.round.desc.noiseEn then reseedBays k s else s
  else endRound k .faulted .paramUnsupported s

/-- The groups of 32 elements of a tile. -/
def Cask.noiseGroups (c : Cask) : Nat := (c.len + 31) / 32

/-- A group of a tile holds a poisoned Keg row. [log 96 DEDUCED] -/
def Cask.groupBad (c : Cask) (t g : Nat) : Bool :=
  let last := min (g * 32 + 31) (c.len - 1)
  c.kegBad.any (fun r => decide (c.kegRowOf t (g * 32) ≤ r) && decide (r ≤ c.kegRowOf t last))

/-- Refusals of NOISE (R274, R275). [log 97 DEDUCED] -/
def noiseCheck (q k : Nat) (d : Bytes) (s : State) : Option Status :=
  let h := s.shelf k
  let b := foldBay q
  let c := s.cask b (fCask d)
  let coff := fCoff d
  let n := fCount d
  let t := fTile d
  let noised := tget [] h.rel.groups (b * 64 + fCask d)
  let gs := (List.range ((n + 31) / 32)).map (fun i => t * 65536 + coff / 32 + i)
  if h.round.active && h.round.phase == .noise && h.round.desc.noiseEn && !h.rel.witness && c.release && rangeOk c coff n &&
      coff % 32 == 0 && (n % 32 == 0 || coff + n == c.len) && decide (t ≤ c.tilesM1) && !gs.any noised.contains &&
      !(h.conf && h.round.holdover) then none
  else some .paramUnsupported

/-- One sample is added to each element of a group, in the Cask's arithmetic. -/
def noiseGroup (b ci t g : Nat) (s : State) : State :=
  let c := s.cask b ci
  let mods := (s.bay b).mods
  let es := (List.range (min 32 (c.len - g * 32))).map (· + g * 32)
  let (z, s) := samples es.length s
  s.onCask b ci (fun c =>
    { c with kegInit := false, kegs := (es.zip z).foldl (fun l e => tput l (t * c.len + e.1) (c.kegFold mods e.1 (c.kegWord t e.1) e.2)) c.kegs })

/-- NOISE runs: the groups that hold a poisoned Keg row take no noise. [log 96 DEDUCED, 97 DEDUCED] -/
def noiseRun (q k : Nat) (d : Bytes) (s : State) : Answer :=
  let b := foldBay q
  let ci := fCask d
  let t := fTile d
  let s := readKeg b ci ((s.cask b ci).kegSpan t (fCoff d) (fCount d)) s
  let c := s.cask b ci
  let gs := (List.range ((fCount d + 31) / 32)).map (· + fCoff d / 32)
  let good := gs.filter (fun g => !c.groupBad t g)
  let s := useSampler b (good.foldl (fun s g => noiseGroup b ci t g s) s)
  let s := s.onRel k (fun r => { r with groups := tput r.groups (b * 64 + ci) (addRows (tget [] r.groups (b * 64 + ci)) (good.map (· + t * 65536))) })
  done (if good.length = gs.length then .ok else .poisoned) s

/-- NOISE (R274): while its bay's sampler is being reseeded the command waits (R271). [log 78 DEDUCED] -/
def execNoise (q n : Nat) (s : State) : Out :=
  .next (if (s.bay (foldBay q)).sampler.reseeding then s else foldAccept 0x09 (noiseCheck q) (noiseRun q) q n s)

/-- The groups that are not NOISED: whether each holds a poisoned row. -/
def groupsLeft (s : State) (k : Nat) : List Bool :=
  (releaseCasks s k).flatMap (fun e =>
    let l := tget [] (s.shelf k).rel.groups (e.1 * 64 + e.2.1)
    (List.range (e.2.2.tilesM1 + 1)).flatMap (fun t =>
      ((List.range e.2.2.noiseGroups).filter (fun g => !l.contains (t * 65536 + g))).map (fun g => e.2.2.groupBad t g)))

/-- DETAIL of a check that left something undone (R275, R282, R284). -/
def leftDetail (bad : Bool) : Status := if bad then .poisoned else .paramUnsupported

/-- The end of NOISE (R275). -/
def leaveNoise (k : Nat) (s : State) : State :=
  let h := s.shelf k
  if h.round.desc.noiseEn && !h.rel.witness then
    match groupsLeft s k with
    | [] => s.onRel k (fun r => { r with noised := true })
    | l => endRound k .faulted (leftDetail (l.any id)) s
  else s

/-! ### STEP (R279-R282) -/

/-- The start of STEP: the shard is copied to LOFT_ADDR. [log 100 DESIGN CHOICE] -/
def enterStep (k : Nat) (s : State) : State :=
  let h := s.shelf k
  if h.round.desc.stepEn && !h.rel.witness then
    let a := h.round.desc.modelAddr
    let st := vstat s k a h.shardBytes
    let s := noteRead k a h.shardBytes s
    if st = .ok then
      let b := vread s k a h.shardBytes
      (vwrite s k h.copyAt b).onRel k (fun r => { r with copy := true, modelDigest := sha3 b })
    else endRound k .faulted st s
  else s

/-- The integer V of a Keg element (R280). -/
def Cask.valueOf (c : Cask) (mods : Tab Word) (e v : Nat) : Int :=
  if c.op = opAdd32 then sext 32 v
  else if c.op = opAdd64 then sext 64 v
  else if c.op = opAddP then centred (c.modulus mods e) v
  else if opSpills c.op then sext 128 v
  else v

/-- D of R280. [log 107 DEDUCED] -/
def divisor (h : Shelf) : Nat :=
  match field h.rel.opt 7 1 with
  | 0 => h.round.committed
  | 1 => field h.rel.opt 0x18 4
  | _ => 1

/-- The pseudo-gradient. [log 107 DEDUCED] -/
def gradient (h : Shelf) (v : Int) : Nat := F32.ofRat v (sext 8 h.round.desc.scaleE) (max 1 (divisor h))

/-- The parameters of the optimiser. -/
structure OptPar where
  opt : Nat
  eta : Nat
  b1  : Nat
  b2  : Nat
  tau : Nat

def optPar (b : Bytes) : OptPar :=
  { opt := field b 6 1, eta := field b 8 4, b1 := field b 0xC 4, b2 := field b 0x10 4, tau := field b 0x14 4 }

/-- w + η·x / (sqrt(v) + τ). -/
def OptPar.move (p : OptPar) (w x v : Nat) : Nat :=
  F32.add w (F32.div (F32.mul p.eta x) (F32.add (F32.sqrt v) p.tau))

/-- One element's step: w, m and v, each operation rounded in the order written (R281). -/
def OptPar.step (p : OptPar) (g w m v : Nat) : Nat × Nat × Nat :=
  match p.opt with
  | 1 => (F32.add w (F32.mul p.eta g), m, v)
  | 2 =>
    let m := F32.add (F32.mul p.b1 m) g
    (F32.add w (F32.mul p.eta m), m, v)
  | 3 =>
    let v := F32.add v (F32.mul g g)
    (p.move w g v, m, v)
  | 4 =>
    let m := F32.add (F32.mul p.b1 m) (F32.mul (F32.oneMinus p.b1) g)
    let v := F32.add (F32.mul p.b2 v) (F32.mul (F32.mul (F32.oneMinus p.b2) g) g)
    (p.move w m v, m, v)
  | _ =>
    let m := F32.add (F32.mul p.b1 m) (F32.mul (F32.oneMinus p.b1) g)
    let t := F32.mul g g
    let v := F32.sub v (F32.mul (F32.mul (F32.oneMinus p.b2) t) (F32.sign (F32.sub v t)))
    (p.move w m v, m, v)

/-- Where the vectors w, m and v of a shard of n elements lie, as offsets; a vector that the optimiser does
not use has none. -/
def vecAt (opt n : Nat) : Nat × Option Nat × Option Nat :=
  let l := roundUp (n * 4) 64
  match opt with
  | 1 => (64, none, none)
  | 2 => (64, some (64 + l), none)
  | 3 => (64, none, some (64 + l))
  | _ => (64, some (64 + l), some (64 + 2 * l))

/-- The FP32 value of element e of a vector, with the status of the read. -/
def vecGet (s : State) (k base e : Nat) : Option Nat → Status × Nat
  | none => (.ok, 0)
  | some o => (vstat s k (base + o + 4 * e) 4, leNat (vread s k (base + o + 4 * e) 4))

/-- Write it. -/
def vecPut (k base e : Nat) (o : Option Nat) (x : Nat) (s : State) : State :=
  match o with | none => s | some o => vwrite s k (base + o + 4 * e) (toLe 4 x)

/-- Step one shard element with a Keg value; a failed read of the copy leaves it. [log 96 DEDUCED] -/
def stepElem (k e : Nat) (v : Int) (s : State) : Status × State :=
  let h := s.shelf k
  let p := optPar h.rel.opt
  let at_ := vecAt p.opt h.round.desc.elemCount
  let (s1, w) := vecGet s k h.copyAt e (some at_.1)
  let (s2, m) := vecGet s k h.copyAt e at_.2.1
  let (s3, x) := vecGet s k h.copyAt e at_.2.2
  let st := if s1 ≠ .ok then s1 else if s2 ≠ .ok then s2 else s3
  let s := ([some at_.1, at_.2.1, at_.2.2].filterMap id).foldl (fun s o => noteRead k (h.copyAt + o + 4 * e) 4 s) s
  if st = .ok then
    let g := gradient h v
    let r := p.step g w m x
    let used := [r.1] ++ (if at_.2.1.isSome then [r.2.1] else []) ++ (if at_.2.2.isSome then [r.2.2] else [])
    let odd := !F32.finite g || used.any (fun y => !F32.finite y)
    let s := vecPut k h.copyAt e (some at_.1) r.1 (vecPut k h.copyAt e at_.2.1 r.2.1 (vecPut k h.copyAt e at_.2.2 r.2.2 s))
    (.ok, s.onRel k (fun y => { y with steps := insSet e y.steps, nonfinite := if odd then sat 16 1 y.nonfinite else y.nonfinite }))
  else (st, s)

/-- Field AUX of block F. -/
def fAux (d : Bytes) : Nat := field d 0x14 4

/-- The elements of an OPTSTEP in turn; `st` is the status so far. [log 100 DESIGN CHOICE, 101 DEDUCED] -/
def optstepElems (k b : Nat) (d : Bytes) : List Nat → Status → State → Answer
  | [], st, s => done st s
  | i :: r, st, s =>
    let c := s.cask b (fCask d)
    let e := fCoff d + i
    let t := fTile d
    if c.kegBad.contains (c.kegRowOf t e) then
      optstepElems k b d r .poisoned (s.onRel k (fun x => { x with stepBad := insSet (fAux d + i) x.stepBad }))
    else
      let (x, s) := stepElem k (fAux d + i) (c.valueOf (s.bay b).mods e (c.kegWord t e)) s
      if x = .ok then optstepElems k b d r st s else done x (endRound k .faulted x s)

/-- OPTSTEP's operation (R282). [log 97 DEDUCED] -/
def optstepRun (q k : Nat) (d : Bytes) (s : State) : Answer :=
  let h := s.shelf k
  let c := s.cask (foldBay q) (fCask d)
  let m := fAux d
  if h.round.active && h.round.phase == .step && h.round.desc.stepEn && !h.rel.witness && c.release && rangeOk c (fCoff d) (fCount d) &&
      decide (fTile d ≤ c.tilesM1) && decide (m + fCount d ≤ h.round.desc.elemCount) &&
      !h.rel.steps.any (fun e => decide (m ≤ e) && decide (e < m + fCount d)) then
    optstepElems k (foldBay q) d (List.range (fCount d)) .ok (readKeg (foldBay q) (fCask d) (c.kegSpan (fTile d) (fCoff d) (fCount d)) s)
  else refuse s

/-- OPTSTEP (R282). -/
def execOptstep (q n : Nat) (s : State) : Out := .next (accept 0x28 (optstepRun q) q n s)

/-- The end of STEP: every element has been stepped, and the copy's header names the round (R282). -/
def leaveStep (k : Nat) (s : State) : State :=
  let h := s.shelf k
  if h.round.desc.stepEn && !h.rel.witness then
    if h.rel.steps.length = h.round.desc.elemCount then
      let n := field h.rel.shard 0x10 8
      (vwrite s k (h.copyAt + 0x10) (toLe 8 (n + 1) ++ toLe 8 h.round.desc.roundId)).onRel k (fun r => { r with stepped := true })
    else endRound k .faulted (leftDetail (h.rel.stepBad.any (fun e => !h.rel.steps.contains e))) s
  else s

/-! ### SEAL (R284) -/

/-- The island's use of SEAL_SLOT. -/
def sealUse (k : Nat) : KeyUse := { usages := [uEncrypt], kinds := [1], master := .island, shelf := some k }

/-- The header of the share object of a shared round. -/
def shareHeader (h : Shelf) : Bytes :=
  let d := h.round.desc
  toLe 4 0x5348524B ++ toLe 2 1 ++ toLe 1 (if d.foldOp = opAddF128 then 0x11 else 0x10) ++ zeros 1 ++ toLe 8 d.roundId ++
  toLe 1 d.groupSize ++ toLe 1 d.groupIndex ++ toLe 1 h.roundInst.truncBits ++ zeros 1 ++ toLe 4 d.elemCount ++ zeros 16 ++
  toLe 8 d.roundId ++ zeros 16

/-- The start of SEAL, also after a restore: nothing of an earlier pass stays, SEAL_SLOT is bound, the salt drawn, and the payload's
place in the release scratch prepared (R284, R285, R291). [log 100 DESIGN CHOICE, 102 DEDUCED] -/
def enterSeal (k : Nat) (s : State) : State :=
  let h := s.shelf k
  match bindCur s h.round.desc.sealSlot (sealUse k) with
  | .error st => endRound k .faulted st s
  | .ok key =>
    let (salt, s) := if h.rel.witness then (0, s) else draw 64 s
    let s := s.onRel k (fun r =>
      { r with keyGen := key.gen, key := key.key, salt := salt, gather := [], gatherBad := [], gathered := false, signed := false
               waitAck := false, record := [], sigs := [], pages := 0 })
    let a := h.relScr.1
    match h.payKind with
    | 3 =>
      let st := vstat s k h.copyAt h.shardBytes
      let s := noteRead k h.copyAt h.shardBytes s
      if st = .ok then vwrite s k a (vread s k h.copyAt h.shardBytes) else endRound k .faulted st s
    | 2 => vwrite (vzero s k a h.payLen) k a (shareHeader h)
    | 1 => vzero s k a h.payLen
    | _ => s

/-- Refusals of SEAL (R284). [log 97 DEDUCED] -/
def sealCheck (q k : Nat) (d : Bytes) (s : State) : Option Status :=
  let h := s.shelf k
  let c := s.cask (foldBay q) (fCask d)
  let p := fAux d
  if h.round.active && h.round.phase == .seal && (h.payKind == 1 || h.payKind == 2) && c.release && c.op == payloadOp h.round.desc &&
      rangeOk c (fCoff d) (fCount d) && decide (fTile d ≤ c.tilesM1) && decide (p + fCount d ≤ h.round.desc.elemCount) &&
      !h.rel.gather.any (fun e => decide (p ≤ e) && decide (e < p + fCount d)) then none
  else some .paramUnsupported

/-- Gather one element into the release scratch. -/
def gatherElem (k b : Nat) (d : Bytes) (i : Nat) (s : State) : State :=
  let h := s.shelf k
  let c := s.cask b (fCask d)
  let e := fCoff d + i
  let t := fTile d
  let p := fAux d + i
  if c.kegBad.contains (c.kegRowOf t e) then s.onRel k (fun x => { x with gatherBad := insSet p x.gatherBad })
  else
    let n := payloadElem h.round.desc
    let off := (if h.payKind = 2 then 64 else 0) + n * p
    let v := c.valueOf (s.bay b).mods e (c.kegWord t e)
    (vwrite s k (h.relScr.1 + off) (toLe n (wrap (8 * n) v))).onRel k (fun x => { x with gather := insSet p x.gather })

/-- SEAL runs: the elements of a poisoned Keg row are not gathered. -/
def sealRun (q k : Nat) (d : Bytes) (s : State) : Answer :=
  let b := foldBay q
  let s := readKeg b (fCask d) ((s.cask b (fCask d)).kegSpan (fTile d) (fCoff d) (fCount d)) s
  let c := s.cask b (fCask d)
  let bad := (List.range (fCount d)).any (fun i => c.kegBad.contains (c.kegRowOf (fTile d) (fCoff d + i)))
  done (if bad then .poisoned else .ok) ((List.range (fCount d)).foldl (fun s i => gatherElem k b d i s) s)

/-- SEAL (R284). -/
def execSeal (q n : Nat) (s : State) : Out := .next (foldAccept 0x0A (sealCheck q) (sealRun q) q n s)

/-! ### The record and the pages (R285, R286) -/

/-- INEXACT and SAT of the record: sums over the release Casks. -/
def eventSum (s : State) (k : Nat) (f : Cask → Nat) : Nat := ((releaseCasks s k).map (fun e => f e.2.2)).sum

/-- The modes' digest: MASKKEY_DIGEST or SUM_DIGEST. -/
def modeDigest (h : Shelf) : Bytes :=
  match h.round.desc.mode with | 1 => h.recov.digest | 3 => h.sealSt.sumDigest | _ => []

/-- The digest of a block, zero for a block that the round does not use. -/
def digestIf (used : Bool) (b : Bytes) : Bytes := if used then sha3 b else zeros 32

/-- Record bytes 0x000-0x04F. [log 102 DEDUCED] -/
def recordHead (h : Shelf) : Bytes :=
  let d := h.round.desc
  let r := h.rel
  let flags := b2n h.round.holdover + 2 * b2n r.noised + 4 * b2n r.stepped + 8 * b2n (d.mode == 3 && h.sealSt.unreliable) +
    16 * b2n r.witness + 32 * b2n (decide (0 < r.nonfinite))
  toLe 4 0x4C45524B ++ toLe 2 1 ++ toLe 1 d.mode ++ toLe 1 flags ++ toLe 8 d.roundId ++ toLe 8 d.cohortId ++
  toLe 8 Config.deviceId.toNat ++ toLe 4 d.clientBase ++ toLe 4 d.clientCount ++ toLe 4 h.round.committed ++ toLe 4 d.minCohort ++
  toLe 4 d.elemCount ++ toLe 4 d.coordOffset ++ toLe 1 d.groupSize ++ toLe 1 d.groupIndex ++ toLe 1 h.payKind ++ toLe 1 d.sealSlot ++
  toLe 4 (pageCount h.payLen) ++ toLe 8 h.payLen ++ toLe 4 r.keyGen ++ toLe 1 d.foldOp ++ toLe 1 d.scaleE ++ zeros 2

/-- The signed message: record bytes 0x000-0x1FF, fixed at time t. -/
def recordMessage (s : State) (k t : Nat) (pages : Bytes) : Bytes :=
  let h := s.shelf k
  let d := h.round.desc
  let r := h.rel
  recordHead h ++ toLe 8 t ++ toLe 8 (eventSum s k (·.inexact)) ++ toLe 8 (eventSum s k (·.sat)) ++ toLe 8 r.salt ++
  fit 32 h.round.descDigest ++ fit 32 d.programDigest ++ fit 32 h.round.ownDigest ++ fit 32 (modeDigest h) ++
  digestIf d.noiseEn r.noise ++ digestIf d.stepEn r.opt ++ fit 32 r.modelDigest ++ sha3 pages ++ zeros 144

/-- A sealed page (R285). -/
def sealedPage (h : Shelf) (plain : Bytes) (i : Nat) : Bytes :=
  let r := h.rel
  let part := slice plain (i * pagePlain) pagePlain
  let nonce := (sha3 (recordHead h ++ toLe 8 r.salt ++ toLe 4 i)).take 12
  let head := toLe 4 0x47504D4B ++ toLe 2 1 ++ zeros 2 ++ toLe 4 r.keyGen ++ toLe 4 i ++ toLe 4 part.length ++ nonce
  let (c, tag) := gcmSeal r.key nonce head (fit pagePlain part)
  head ++ tag ++ c

/-- The sealed pages in order. -/
def sealedPages (h : Shelf) (plain : Bytes) : Bytes := (List.range (pageCount plain.length)).flatMap (sealedPage h plain)

/-- The uses of the two signing slots (R287). -/
def signUse (k kind : Nat) : KeyUse := { usages := [uSign], kinds := [kind], master := .island, shelf := some k }

/-- The signatures over the message, SIG_P384 then SIG_MLDSA, once both slots are bound. [log 103 DEDUCED, 104 DESIGN CHOICE] -/
def signRecord (k : Nat) (msg : Bytes) (s : State) : Except Status Bytes × State :=
  let slot := (s.shelf k).round.desc.signSlot
  match bindCur s slot (signUse k 7), bindCur s (slot + 1) (signUse k 6) with
  | .error st, _ => (.error st, s)
  | .ok _, .error st => (.error st, s)
  | .ok pq, .ok ec =>
    let (rnd, s) := drawBytes 32 s
    (.ok (p384.sign hmac384 (beNat ec.key) (sha384 msg) ++ fit 3309 (mlDsa65.sign pq.key msg rnd)), s)

/-- The inactive buffer holds a release that host software has not acknowledged (R289). -/
def mustWaitAck (h : Shelf) : Bool :=
  let seq := field h.rel.relDesc 8 8
  decide (2 ≤ seq) && decide ((h.reg rRelAck).toNat < seq - 1)

/-- The round controller seals the payload into pages, fills the record and starts the signatures; it waits
under R289. [log 100 DESIGN CHOICE, 105 DEDUCED] -/
def sealPass (k : Nat) (s : State) : State :=
  let h := s.shelf k
  if mustWaitAck h then s.onRel k (fun r => { r with waitAck := true })
  else
    let s := s.onRel k (fun r => { r with waitAck := false, writing := true })
    let st := vstat s k h.relScr.1 h.payLen
    let s := noteRead k h.relScr.1 h.payLen s
    if st = .ok then
      let buf := (relBuf h.rel.relDesc (inactiveBuf h.rel.relDesc)).1
      let pages := sealedPages (s.shelf k) (vread s k h.relScr.1 h.payLen)
      let s := (vwrite s k (buf + 4096) pages).onRel k (fun r => { r with pages := pageCount h.payLen })
      let msg := recordMessage s k s.epoch pages
      let (r, s) := signRecord k msg s
      match r with
      | .error e => endRound k .faulted e s
      | .ok sigs => s.onRel k (fun r => { r with record := msg, sigs := sigs })
    else endRound k .faulted st s

/-- The program work of SEAL ends: the payload must be complete (R284). -/
def sealWorkDone (k : Nat) (s : State) : State :=
  let h := s.shelf k
  if h.payKind == 0 || h.payKind == 3 || h.rel.gather.length == h.round.desc.elemCount then
    sealPass k (s.onRel k (fun r => { r with gathered := true }))
  else endRound k .faulted (leftDetail (h.rel.gatherBad.any (fun e => !h.rel.gather.contains e))) s

/-- RELEASE_SIGNATURES_DONE (R287): both signatures are written into the record in the inactive buffer, and SEAL
completes. [log 105 DEDUCED] -/
def execReleaseSignaturesDone (k : Nat) (s : State) : Out :=
  .next (
    let h := s.shelf k
    if h.round.active && h.round.phase == .seal && !h.rel.sigs.isEmpty && !h.rel.signed then
      let buf := (relBuf h.rel.relDesc (inactiveBuf h.rel.relDesc)).1
      let s := vwrite s k buf (h.rel.record ++ h.rel.sigs ++ zeros 179)
      (s.onRel k (fun r => { r with signed := true, sigs := [] })).onRound k (fun r => { r with sealDone := true })
    else s)

/-- REL_ACK_WRITE (R289): a SEAL that waits for it goes on. -/
def relAckWrite (k : Nat) (v : Word) (s : State) : State :=
  let s := s.setReg k rRelAck v
  let h := s.shelf k
  if h.round.active && h.rel.waitAck then sealPass k s else s

def execRelAckWrite (k : Nat) (v : Word) (s : State) : Out := .next (relAckWrite k v s)

/-! ### The flip (R290) -/

/-- The release descriptor after a flip at time t (R288). -/
def flippedDesc (h : Shelf) (t : Nat) : Bytes :=
  let b := h.rel.relDesc
  b.take 6 ++ toLe 1 (inactiveBuf b) ++ zeros 1 ++ toLe 8 (field b 8 8 + 1) ++ toLe 8 h.round.desc.roundId ++ slice b 0x18 24 ++ toLe 8 t ++ zeros 8

/-- The flip, once SEAL has completed and T_RELEASE has come. [log 107 DEDUCED] -/
def releaseFlip (k : Nat) (s : State) : State :=
  let h := s.shelf k
  if h.round.committed < h.round.desc.minCohort then endRound k .refusedCohort .ok s
  else
    let d := flippedDesc h s.epoch
    endRound k .released .ok ((vwrite s k h.round.desc.releaseAddr d).onRel k (fun r => { r with relDesc := d }))

end Sys2Proof.Machine
end

