-- ==== Sys2Proof/Machine/Held.lean ====
section
/-!
DEFINITION. Commands that leave the hold station of a fold unit (R128, R135).
-/
namespace Sys2Proof.Machine

/-- The operation of a fold command that goes on, by its kind. [log 47 DEDUCED] -/
def heldRun (q k : Nat) (d : Bytes) (s : State) : Answer :=
  match dKind d with
  | 0x01 => foldARun q k d s
  | 0x02 => foldORun q k d s
  | 0x03 => foldPRun q k d s
  | 0x04 => done .ok (spillRun q d s)
  | 0x05 => drainWRun q k d s
  | 0x06 => drainKRun q k d s
  | 0x07 => maskRun false q k d s
  | 0x08 => maskRun true q k d s
  | 0x09 => noiseRun q k d s
  | 0x0A => sealRun q k d s
  | _ => pcombRun q k d s

/-- HELD_COMMAND_RELEASE (R128, R135): entry n of bay b's hold station, once no earlier held command and no
pending verdict stands before it; a FOLD.P that lacks ledger space stays (R150). A command that outlives its round leaves its Cask
zeroised. [log 19 DESIGN CHOICE, 35 DESIGN CHOICE, 47 DEDUCED] -/
def execHeldCommandRelease (b : BitVec 4) (n : BitVec 3) (s : State) : Out :=
  .next (
    let b := b.toNat
    let l := (s.bay b).hold
    match l[n.toNat]? with
    | none => s
    | some h =>
      let d := heldDesc s h
      let k := (shelfOf s b).getD 0
      if foldWaits s k h.seq d (l.take n.toNat) || (dKind d == 0x03 && lacksSpace s h.seq k d) then s
      else
        let s := s.onBay b (fun y => { y with hold := y.hold.eraseIdx n.toNat })
        let (r, det, s) := heldRun h.seq k d s
        let s := setLast h.seq h.queue r det s
        let c := s.cask b (fCask d)
        if h.ended then (zeroAreas b c.areaAt c.kegAt s).onCask b (fCask d) caskZero else s)

end Sys2Proof.Machine
end

