-- ==== Sys2Proof/Machine/Prog.lean ====
section
/-!
DEFINITION. Round programs and service runs (R295, R297, R320-R322): loading an image, the start of a
phase in every sequencer, and the service run.
-/
namespace Sys2Proof.Machine

/-- Change the loaded program of shelf k. -/
def State.onProg (s : State) (k : Nat) (f : Prog → Prog) : State := s.onShelf k (fun h => { h with prog := f h.prog })

def rProgCmd : Nat := 0x1000
/-- An entry that names no program work. -/
def noEntry : Nat := 0xFFFF_FFFF

/-! ### The start and the end of program work (R55, R295, R296) -/

/-- A sequencer starts at an entry; with none it has no program work, and has ended at once (R295). [log 109 DEDUCED] -/
def seqStart (entry : Nat) (fresh : Bool) (q : Seq) : Seq :=
  if entry = noEntry then { q with pended := false, wait := .none }
  else
    let q := if fresh then { q with g := [], p := 1, d := [], scratch := [], epc := 0, evec := 0, retired := 0, cycle := 0 } else q
    { q with pc := entry, hmode := false, run := .running, pended := false, wait := .none }

/-- The completion counters of a sequencer, and what QERR says of them, are cleared (R295, R342). [log 128 DEDUCED] -/
def clearQueues (q : Nat) (s : State) : State :=
  (List.range 12).foldl (fun s n => s.onQueue q n (fun u => { u with count := 0, recent := [] })) (s.onQErr q (fun e => { e with first := 0, nonok := 0 }))

/-- Every sequencer of the shelf starts at an entry. -/
def startSeqs (k entry : Nat) (fresh : Bool) (s : State) : State := (s.shelf k).seqs.foldl (fun s q => s.onSeq q (seqStart entry fresh)) s

/-- Every sequencer of the shelf starts a phase of a round at its entry; with program work the completion counters are cleared (R295). [log 128 DEDUCED] -/
def startPhase (k entry : Nat) (fresh : Bool) (s : State) : State :=
  let s := startSeqs k entry fresh s
  if entry = noEntry then s else (s.shelf k).seqs.foldl (fun s q => clearQueues q s) s

/-- A sequencer has ended its part. [log 118 DEDUCED] -/
def Seq.ended (q : Seq) : Bool :=
  match q.run with | .idle => true | .stopped => true | .running => false | .waiting => false

/-- Every engine queue of the shelf has drained. -/
def queuesDrained (s : State) (k : Nat) : Bool :=
  (s.shelf k).seqs.all (fun q => (List.range 12).all (fun n => (s.queue q n).entries.isEmpty && (s.queue q n).inflight.isEmpty))

/-- Every command of the shelf that a unit has accepted is counted (R341, R449). [log 22 DEDUCED] -/
def allCounted (s : State) (k : Nat) : Bool := (s.shelf k).seqs.all (fun q => (List.range 12).all (fun n => (s.queue q n).inflight.isEmpty))

/-- Every sequencer of the shelf has ended the phase or run (R295-R297). [log 118 DEDUCED] -/
def seqsEnded (s : State) (k : Nat) : Bool := (s.shelf k).seqs.all (fun q => (s.seq q).ended)

/-- The program work of a phase or run is complete (R55). -/
def workDone (s : State) (k : Nat) : Bool := seqsEnded s k && queuesDrained s k

/-- A service run is active (R297): PROG_CMD.SERVICE. A run that host software has stopped is active until its queues have drained (R322). [log 116 DEDUCED, 118 DEDUCED] -/
def serviceActive (s : State) (k : Nat) : Bool :=
  (s.shelf k).prog.service && !(if (s.shelf k).prog.stopping then workDone s k else seqsEnded s k)

/-! ### The data region (R321) -/

/-- Copy the program's data into every bay store of the shelf. -/
def copyData (k : Nat) (s : State) : State :=
  let h := s.shelf k
  h.bays.foldl (fun s b => dwrite s (storeAddr b h.prog.dataOff) h.prog.data) s

/-- The data region of a bay overlaps an enabled Cask area. -/
def dataHitsCask (s : State) (k : Nat) : Bool :=
  let h := s.shelf k
  h.bays.any (fun b => hitsCask (s.bay b) h.prog.dataOff h.prog.data.length)

/-! ### Images (R320) -/

/-- Bytes of an image by its header. -/
def imageLen (b : Bytes) : Nat := 64 + field b 8 4 + field b 0xC 4

/-- The eight entries of an image. -/
def imageEntries (b : Bytes) : List Nat := (List.range 8).map (fun i => field b (0x20 + 4 * i) 4)

/-- The header is as R320 says, for a shelf of so many bays. -/
def imageOk (b : Bytes) (bays : Nat) : Bool :=
  let text := field b 8 4
  let data := field b 0xC 4
  let off := field b 0x10 4
  field b 0 4 == 0x4752504B && field b 4 2 == 1 && field b 6 1 == bays && zeroAt b 7 1 && zeroAt b 0x14 12 &&
  decide (0 < text) && text % 8 == 0 && decide (text ≤ 131072) && decide (data ≤ 1048576) && off % 256 == 0 && decide (off + data ≤ 0xC0_0000) &&
  (imageEntries b).all (fun e => e == noEntry || (e % 8 == 0 && decide (e < text)))

/-- The program that an image holds. -/
def imageProg (b : Bytes) : Prog :=
  let text := field b 8 4
  { loaded := true, bays := field b 6 1, text := (chunks 8 (slice b 64 text)).map (fun w => BitVec.ofNat 64 (leNat w))
    data := b.drop (64 + text), dataOff := field b 0x10 4, entries := imageEntries b, digest := sha3 b }

/-- RESULT of a program command. -/
def progDone (k : Nat) (st : Status) (s : State) : State := s.onProg k (fun p => { p with result := st.code })

/-- Read and check the image at an address: the program, or the status (R321, R593). [log 116 DEDUCED] -/
def readImage (s : State) (k addr : Nat) : Except Status Prog :=
  let h := s.shelf k
  if inCellar h addr 64 then
    if vstat s k addr 64 ≠ .ok then .error (vstat s k addr 64)
    else
      let b := vread s k addr 64
      if imageOk b h.bays.length && inCellar h addr (imageLen b) then
        if vstat s k addr (imageLen b) = .ok then .ok (imageProg (vread s k addr (imageLen b))) else .error (vstat s k addr (imageLen b))
      else .error .paramUnsupported
  else .error .paramUnsupported

/-- What the reads of an image's header and of the whole image meet. [log 116 DEDUCED] -/
def noteImage (k addr : Nat) (s : State) : State :=
  let h := s.shelf k
  if inCellar h addr 64 then
    if vstat s k addr 64 ≠ .ok then noteRead k addr 64 s
    else
      let b := vread s k addr 64
      if imageOk b h.bays.length && inCellar h addr (imageLen b) then noteRead k addr (imageLen b) s else noteRead k addr 64 s
  else s

/-- PROG_CMD OP 0b01 (R321). [log 116 DEDUCED] -/
def progLoad (k addr : Nat) (s : State) : State :=
  if (s.shelf k).round.active || serviceActive s k then progDone k .paramUnsupported s
  else
    let r := readImage s k addr
    let s := noteImage k addr s
    match r with
    | .error st => progDone k st s
    | .ok p => progDone k .ok (s.onProg k (fun _ => { p with addr := addr }))

/-- PROG_CMD OP 0b10 (R297, R321, R322). [log 117 DESIGN CHOICE, 119 DESIGN CHOICE, 128 DEDUCED] -/
def serviceStart (k : Nat) (s : State) : State :=
  let h := s.shelf k
  if h.round.active || serviceActive s k || !h.prog.loaded || h.prog.entries.getD 0 noEntry == noEntry || dataHitsCask s k then
    progDone k .paramUnsupported s
  else progDone k .ok (startSeqs k (h.prog.entries.getD 0 noEntry) true ((copyData k s).onProg k (fun p => { p with service := true, stopping := false })))

/-- PROG_CMD OP 0b11 (R322): commands in the run's queues go on. [log 116 DEDUCED, 117 DESIGN CHOICE] -/
def serviceStop (k : Nat) (s : State) : State :=
  if serviceActive s k then progDone k .ok ((stopSeqs k s).onProg k (fun p => { p with stopping := true })) else progDone k .paramUnsupported s

/-- A write of PROG_CMD (R322). -/
def progCmdWrite (k : Nat) (v : Word) (s : State) : State :=
  let s := s.setReg k rProgCmd (v &&& 0xFFFF_FFFF_FFC0_0000)
  match bits v 1 0 with
  | 1 => progLoad k (bits v 63 22 * 64) s
  | 2 => serviceStart k s
  | 3 => serviceStop k s
  | _ => s

end Sys2Proof.Machine
end

