-- ==== Sys2Proof/Machine/Sender.lean ====
section
/-!
DEFINITION. Messages at their sender (R352-R372): sending packets, acknowledgements, timers, paths, rates and
the end of a message.
-/
namespace Sys2Proof.Machine

/-- Change the transport. -/
def State.onTp (s : State) (f : Transport → Transport) : State := { s with tp := f s.tp }

/-- Change a message at its sender. -/
def onTx (key : Nat) (f : TxMsg → TxMsg) (s : State) : State :=
  s.onTp (fun t => { t with tx := mapIf (fun e => e.1 == key) (fun e => (e.1, f e.2)) t.tx })

/-- A message at its sender. -/
def State.txMsg (s : State) (key : Nat) : Option TxMsg := (s.tp.tx.find? (fun e => e.1 == key)).map (·.2)

/-- The key of a read response: its requester's NODE with the MSG_SEQ of the READ_REQ (R353). [log 134 DEDUCED] -/
def respKey (node seq : Nat) : Nat := 2 ^ 32 * (node + 1) + seq

/-! ### Counters (R374, R375) -/

/-- Count n retransmitted packets for a shelf. -/
def countRetx (k n : Nat) (s : State) : State :=
  (s.onTp (fun t => { t with retx := Machine.sat 32 n t.retx })).onRemote k (fun r => { r with tpsRetx := sat 32 n r.tpsRetx })

/-- Count a message ended RETRY_EXHAUSTED. -/
def countExhausted (k : Nat) (s : State) : State :=
  (s.onTp (fun t => { t with exhausted := sat 16 1 t.exhausted })).onRemote k (fun r => { r with tpsExhausted := sat 16 1 r.tpsExhausted })

/-! ### The end of a message (R361, R362, R364, R365) -/

/-- The transport finishes a queue's command, given by its place in the order of the queue's commands. -/
def finishCommand (q n id : Nat) (st : Status) (detail : Nat) (s : State) : State :=
  finish q n (id - (s.queue q n).counted) st detail s

/-- What the end of a message does for its use. [log 21 DEDUCED, 61 DEDUCED, 161 DEDUCED] -/
def useEnded (m : TxMsg) (st : Status) (s : State) : State :=
  match m.use with
  | .command q n id => finishCommand q n id st (if m.op = 3 then m.placed else 0) s
  | .envelope k _ kind records =>
    if st = .ok then s
    else
      let s := s.onShelf k (fun h => { h with verif := { h.verif with lost := if h.round.active then sat 16 records h.verif.lost else h.verif.lost } })
      if kind = 1 ∧ m.keyTag % 2 ^ 48 = (s.shelf k).round.desc.roundId % 2 ^ 48 then digestFailed k s else s
  | .buddy k cut =>
    if !tmem (s.shelf k).wpt.buddy cut then s
    else
      let s := s.onShelf k (fun h => { h with wpt := { h.wpt with
        buddy := if st = .ok then tupd (0, 0, 0, 0, 0) h.wpt.buddy cut (fun e => (e.1 - 1, e.2)) else tdel h.wpt.buddy cut } })
      if st = .ok then s else s.onRemote k (fun r => { r with buddyFail := true, buddyStatus := st.code })
  | .response _ w => leaveWindow w s
  | .wptAck _ limit =>
    if st = .ok ∨ limit ≤ s.epoch then s
    else enter { m with state := .wait, sent := [], onChan := [], acked := [], cum := 0, tries := 0, ce := 0 } s

/-- A message ends at its sender with a status: its entry is freed, and its successors no longer name it. -/
def endTx (key : Nat) (st : Status) (s : State) : State :=
  match s.txMsg key with
  | none => s
  | some m =>
    let s := s.onTp (fun t => { t with tx := mapIf (fun e => e.2.prev == key) (fun e => (e.1, { e.2 with prev := 0 })) (tdel t.tx key) })
    let s := if st = .retryExhausted then countExhausted m.shelf s else s
    useEnded m st s

/-! ### Paths (R354) -/

/-- The state of path p of a destination. -/
def State.pathOf (s : State) (node p : Nat) : PathState := tget {} s.tp.pathTab (node * 8 + p)

/-- Change it. -/
def onPath (node p : Nat) (f : PathState → PathState) (s : State) : State :=
  s.onTp (fun t => { t with pathTab := tput t.pathTab (node * 8 + p) (f (tget {} t.pathTab (node * 8 + p))) })

/-- The first path from p on, in rotation, that is not suspect; if all are, p itself. [log 133 DEDUCED] -/
def pickPath (s : State) (m : TxMsg) (p : Nat) : Nat :=
  let l := (List.range m.paths).map (fun i => (p + i) % max 1 m.paths)
  (l.find? (fun x => !(s.pathOf m.node x).suspect)).getD (p % max 1 m.paths)

/-- The path of the first transmission of packet k. -/
def firstPath (s : State) (key : Nat) (m : TxMsg) (k : Nat) : Nat := pickPath s m (k + key % 2 ^ 32)

/-- The path of the next retransmission of packet k. -/
def nextPath (s : State) (m : TxMsg) (k : Nat) : Nat := pickPath s m (tget 0 m.sent k + 1)

/-- A retransmit timeout falls on a path of a message's destination: the third in a row makes it suspect, unless it is the last path left. [log 133 DEDUCED, 140 DEDUCED] -/
def pathTimeout (m : TxMsg) (p : Nat) (s : State) : State :=
  let spare := (List.range m.paths).any (fun x => x != p && !(s.pathOf m.node x).suspect)
  onPath m.node p (fun x =>
    if x.timeouts + 1 < 3 then { x with timeouts := x.timeouts + 1 }
    else if spare then { timeouts := 0, suspect := true, since := s.clk } else x) s

/-- PATH_SUSPECT_END (R354): 1 ms after a path became suspect it returns to the rotation. -/
def execPathSuspectEnd (node path : Nat) (s : State) : Out :=
  .next (if (s.pathOf node path).suspect then
    onPath node path (fun x => { x with suspect := false }) (advanceClk ((s.pathOf node path).since + 1_000_000) s) else s)

/-! ### Rate records (R368, R370) -/

/-- The line rate of a channel in Mb/s (R344). -/
def lineRate (s : State) (k : Nat) : Nat :=
  match bits (s.portCfg (k / 4)) 1 0 with | 1 => 800_000 | 2 => 400_000 | 3 => 200_000 | _ => 0

def rateKey (chan node : Nat) : Nat := chan * 65536 + node
def initRate (s : State) (k : Nat) : Nat := let v := bits s.tpRate 9 0; if v = 0 then lineRate s k else v * 1000
def minRate (s : State) : Nat := bits s.tpRate 19 10 * 1000

/-- Records per stop. [log 139 DEDUCED] -/
def rateLimit : Nat := 2048

/-- A message to the record is in flight. -/
def rateBusy (s : State) (key : Nat) : Bool := s.tp.tx.any (fun e => rateKey e.2.chan e.2.node == key && (match e.2.state with | .wait => false | .send => true | .drain => true))

/-- The record that a new one at a stop replaces: the least recently used without messages in flight. -/
def rateVictim (s : State) (stop : Nat) : Option Nat :=
  let l := s.tp.rates.filter (fun e => e.1 / 65536 / 32 == stop && !rateBusy s e.1)
  (l.foldl (fun (a : Option (Nat × Nat)) e => match a with
    | none => some (e.2.used, e.1)
    | some x => if e.2.used < x.1 then some (e.2.used, e.1) else a) none).map (·.2)

/-- A rate record for a message: none where the cache is full. -/
def rateFor (m : TxMsg) (s : State) : Option State :=
  let key := rateKey m.chan m.node
  let stop := m.chan / 32
  let fresh (s : State) : State :=
    s.onTp (fun t => { t with order := t.order + 1, rates := tput t.rates key { r := initRate s m.chan, used := t.order + 1 } })
  if tmem s.tp.rates key then
    some (s.onTp (fun t => { t with order := t.order + 1, rates := mapIf (fun e => e.1 == key) (fun e => (e.1, { e.2 with used := t.order + 1 })) t.rates }))
  else if (s.tp.rates.filter (fun e => e.1 / 65536 / 32 == stop)).length < rateLimit then some (fresh s)
  else (rateVictim s stop).map (fun v => fresh (s.onTp (fun t => { t with rates := tdel t.rates v })))

/-- Change the record of a message. -/
def onRate (m : TxMsg) (f : Rate → Rate) (s : State) : State :=
  let key := rateKey m.chan m.node
  s.onTp (fun t => { t with rates := mapIf (fun e => e.1 == key) (fun e => (e.1, f e.2)) t.rates })

/-- One period of R370 for a record of a channel. [log 130 DEDUCED] -/
def ratePeriod (s : State) (chan : Nat) (x : Rate) : Rate :=
  let g := 2 ^ bits s.tpRate 31 28
  let f : Rat := (x.marked : Rat) / (max 1 x.acked : Nat)
  let a : Rat := x.alpha - x.alpha / (g : Nat) + f / (g : Nat)
  if 0 < x.marked then
    { x with alpha := a, inc := 0, acked := 0, marked := 0, r := max (minRate s) ((x.r : Rat) * (1 - a / 2)).floor.toNat }
  else if 0 < x.acked then
    let step := bits s.tpRate 27 20 * 1000 * (if bits s.tpRate 43 40 < x.inc + 1 then 8 else 1)
    { x with alpha := a, inc := x.inc + 1, acked := 0, r := min (lineRate s chan) (x.r + step) }
  else { x with alpha := a }

/-- A record is updated at the end of a period: messages to it are in flight, or were acknowledged within it. [log 130 DEDUCED] -/
def rateDue (s : State) (e : Nat × Rate) : Bool := rateBusy s e.1 || decide (0 < e.2.acked) || decide (0 < e.2.marked)

/-- RATE_PERIOD (R370): each record with messages in flight is updated. [log 130 DEDUCED, 131 DESIGN CHOICE] -/
def execRatePeriod (s : State) : Out :=
  .next (s.onTp (fun t => { t with rates := t.rates.map (fun e => if rateDue s e then (e.1, ratePeriod s (e.1 / 65536) e.2) else e) }))

/-! ### Flow records (R368) -/

/-- Flow records per stop. [log 139 DEDUCED] -/
def flowLimit : Nat := 2048

/-- The flow records in use at a stop: of senders as (0, shelf, destination, FLOW), of receivers as (SNODE + 1,
SSHELF, 0, FLOW). A record is held while any message of the flow has an entry; reads belong to no flow (R362). [log 138 DEDUCED] -/
def flowsAt (s : State) (stop : Nat) : List (Nat × Nat × Nat × Nat) :=
  let tx := (s.tp.tx.filter (fun e => e.2.chan / 32 == stop && e.2.flowRec)).map (fun e => (0, e.2.shelf, e.2.dest, e.2.flow))
  let rx := (s.tp.rx.filter (fun e => e.2.cause / 32 == stop && (e.2.op == 1 || e.2.op == 2))).map (fun e => (e.1 / 2 ^ 32 + 1, e.2.sshelf, 0, e.2.flow))
  (tx ++ rx).eraseDups

/-- A flow has a record, or one is free. -/
def flowRoom (s : State) (stop : Nat) (f : Nat × Nat × Nat × Nat) : Bool :=
  let l := flowsAt s stop
  l.contains f || decide (l.length < flowLimit)

/-! ### Sending (R354, R355, R365) -/

/-- Send packet k of a message, for the first time or again; a failed read of its source ends it (R361). Nothing is sent while the
transport is off (R374) or the message's channel and its alternate are down (R372). [log 137 DESIGN CHOICE] -/
def transmit (key k path : Nat) (retx ackNow : Bool) (s : State) : State :=
  match s.txMsg key with
  | none => s
  | some m =>
    if !s.tpEn || !chanUp s (egress s m) then s else
    let s := if m.op = 4 then stampReq m.shelf (min s.mss (m.len - k * s.mss)) s else s
    let st := (m.payload s s.mss k).1
    let s := noteBlocks m.shelf (m.reads s.mss k) s
    if st ≠ .ok then endTx key (if st = .poisoned then .poisoned else .uncorrectable) s
    else
      let s := sendPacket key m k path retx ackNow s
      if retx then countRetx m.shelf 1 s else s

/-- DATA_PACKET_SEND (R371): the next packet of a message leaves, under the window of R355. The first packet
needs a rate record and a flow record. [log 132 DESIGN CHOICE, 144 DEDUCED] -/
def dataPacketSend (key : Nat) (s : State) : State :=
  match s.txMsg key with
  | none => s
  | some m =>
    let k := m.sent.length
    if !s.tpEn || !chanUp s (egress s m) || !decide (k < m.packets s.mss) || !decide (k < m.cum + 257) then s
    else
      let first := match m.state with | .wait => true | .send => false | .drain => false
      let flows := m.op == 1 || m.op == 2
      let room := !first || !flows || flowRoom s (m.chan / 32) (0, m.shelf, m.dest, m.flow)
      match (if room then rateFor m s else none) with
      | none => s
      | some s =>
        let s := if first && flows then s.onTp (fun t => { t with
          tx := mapIf (fun e => e.2.ofFlow m.shelf m.dest m.flow) (fun e => (e.1, { e.2 with flowRec := true })) t.tx }) else s
        let s := onTx key (fun m => { m with
          state := if k + 1 = m.packets s.mss then .drain else .send, timer := if first then s.clk else m.timer }) s
        transmit key k (firstPath s key m k) false false s

def execDataPacketSend (key : Nat) (s : State) : Out := .next (dataPacketSend key s)

/-! ### Acknowledgements (R350, R359-R361) -/

/-- What an acknowledgement says. -/
structure Ack where
  done    : Bool
  refused : Bool
  flow    : Nat
  seq     : Nat
  cum     : Nat
  ce      : Nat
  status  : Nat
  snode   : Nat
  sack    : Bytes

/-- Parse an acknowledgement. -/
def parseAck (b : Bytes) : Ack :=
  let f := field b 1 1
  { done := nbit f 0, refused := nbit f 1, flow := beNat (slice b 2 2), seq := beNat (slice b 4 4), cum := beNat (slice b 8 4)
    ce := beNat (slice b 0xC 4), status := field b 0x14 1, snode := beNat (slice b 0x16 2), sack := slice b 0x20 32 }

/-- The packets that an acknowledgement shows held. -/
def Ack.held (a : Ack) : List Nat :=
  List.range a.cum ++ ((List.range 256).filter (fun i => nbit (field a.sack (i / 8) 1) (i % 8))).map (fun i => a.cum + 1 + i)

/-- The message in flight that an acknowledgement names: one of the device's own, or a read response. [log 134 DEDUCED] -/
def ackKey (s : State) (a : Ack) : Option Nat :=
  let has (key : Nat) : Bool := match s.txMsg key with | none => false | some m => m.flow == a.flow
  if has a.seq then some a.seq else if has (respKey a.snode a.seq) then some (respKey a.snode a.seq) else none

/-- The status that a refusal carries. [log 134 DEDUCED] -/
def refusalOf (code : Nat) : Status :=
  if code = Status.windowRevoked.code then .windowRevoked else if code = Status.noBin.code then .noBin else .remoteFault

/-- Retransmit each packet of a list, on its next path. -/
def resend (key : Nat) (l : List Nat) (s : State) : State :=
  l.foldl (fun s k => match s.txMsg key with | none => s | some m => transmit key k (nextPath s m k) true false s) s

/-- The packets of a message that an acknowledgement is the first to show held. -/
def freshAcks (m : TxMsg) (a : Ack) : List Nat := (a.held.filter (tmem m.sent)).filter (fun k => !m.acked.contains k)

/-- What every acknowledgement of a message counts: newly acknowledged packets and the rise in CE_COUNT for its rate
record (R370), and the end of a row of timeouts on their paths (R354). [log 129 DEDUCED, 140 DEDUCED] -/
def ackCount (m : TxMsg) (a : Ack) (s : State) : State :=
  let fresh := freshAcks m a
  let s := fresh.foldl (fun s k => onPath m.node (tget 0 m.sent k) (fun x => { x with timeouts := 0 }) s) s
  onRate m (fun r => { r with acked := r.acked + fresh.length, marked := r.marked + (a.ce - m.ce) }) s

/-- An acknowledgement that neither ends nor refuses the message. [log 129 DEDUCED] -/
def ackUpdate (key : Nat) (a : Ack) (s : State) : State :=
  match s.txMsg key with
  | none => s
  | some m =>
    let fresh := freshAcks m a
    let s := ackCount m a s
    let s := onTx key (fun m => { m with
      acked := fresh.foldl (fun l k => insSet k l) m.acked, cum := max m.cum a.cum, ce := max m.ce a.ce
      tries := if fresh.isEmpty then m.tries else 0, timer := if fresh.isEmpty then m.timer else s.clk }) s
    let top := a.held.foldl max 0
    let reorder := bits s.tpTimer 51 44
    match s.txMsg key with
    | none => s
    | some m => resend key ((List.range m.sent.length).filter (fun k => !m.acked.contains k && decide (k + reorder ≤ top))) s

/-- An acknowledgement arrives (R359-R361, R364). [log 129 DEDUCED] -/
def ackReceive (a : Ack) (s : State) : State :=
  match ackKey s a with
  | none => s
  | some key =>
    match s.txMsg key with
    | none => s
    | some m =>
      if a.refused then endTx key (refusalOf a.status) (ackCount m a s)
      else if a.done then (if m.op = 3 then s else endTx key .ok (ackCount m a s))
      else ackUpdate key a s

/-! ### The retransmit timer (R359) -/

/-- RTO of a message in ns. -/
def rto (s : State) (m : TxMsg) : Nat := bits s.tpTimer 7 0 * 2 ^ m.tries * 1000
def retryLimit (s : State) : Nat := bits s.tpTimer 11 8

/-- RETRANSMIT_TIMEOUT (R359): retransmission, a probe, or RETRY_EXHAUSTED. Where every packet sent is acknowledged and others are still to
be sent, the timer only starts again. Once the first packet of a read
response has come, a READ_REQ is not sent again (R364). [log 135 DEDUCED, 140 DEDUCED, 145 DEDUCED] -/
def retransmitTimeout (key : Nat) (s : State) : State :=
  match s.txMsg key with
  | none => s
  | some m =>
    if m.sent.isEmpty then s
    else
      let s := advanceClk (m.timer + rto s m) s
      let s := s.onTp (fun t => { t with timeouts := sat 32 1 t.timeouts })
      let s := onRate m (fun r => { r with r := max (minRate s) (r.r / 2), inc := 0 }) s
      let open_ := (List.range m.sent.length).filter (fun k => !m.acked.contains k)
      let hit := (open_.map (fun k => tget 0 m.sent k)).eraseDups
      let s := hit.foldl (fun s p => pathTimeout m p s) s
      if m.tries = retryLimit s then endTx key .retryExhausted s
      else
        if open_.isEmpty && decide (m.sent.length < m.packets s.mss) then onTx key (fun m => { m with timer := s.clk }) s
        else if open_.isEmpty then
          let s := if m.prev = 0 then onTx key (fun m => { m with tries := m.tries + 1, timer := s.clk }) s else onTx key (fun m => { m with timer := s.clk }) s
          if m.op = 3 then s
          else
            let last := m.packets s.mss - 1
            transmit key last (nextPath s m last) true true s
        else
          resend key (open_.filter (fun k => decide (k < m.cum + 257))) (onTx key (fun m => { m with tries := m.tries + 1, timer := s.clk }) s)

def execRetransmitTimeout (key : Nat) (s : State) : Out := .next (retransmitTimeout key s)

/-! ### A channel goes down (R372) -/

/-- Every unacknowledged packet sent on a channel goes again on the alternate. -/
def channelLost (c : Nat) (s : State) : State :=
  s.tp.tx.foldl (fun s e =>
    if chanUp s (egress s e.2) then resend e.1 ((e.2.onChan.filter (fun p => p.2 == c && !e.2.acked.contains p.1)).map (·.1)) s else s) s

end Sys2Proof.Machine
end

