-- ==== Sys2Proof/Machine/Frames.lean ====
section
/-!
DEFINITION. Received frames (R346, R350, R351): what a frame is, the packet it carries, discards, the answer to
a Neighbor Solicitation, and acknowledgements.
-/
namespace Sys2Proof.Machine

/-! ### Frames (R346) -/

/-- A packet as it came: its channel, IPv6 source, flow label, UDP source port, CE, and bytes. -/
structure Packet where
  chan    : Nat
  src     : Nat
  label   : Nat
  sport   : Nat
  ce      : Bool
  bytes   : Bytes

/-- What a received frame is. -/
inductive FrameKind where
  | fcs | vlan | pause | other | checksum
  | basdo (p : Packet)
  | solicit (src : Nat) (mac : Option Bytes)
  | ptp (b : Bytes)

/-- The bytes after the Ethernet header and tag, with the EtherType; none where the tag is wrong. -/
def untag (s : State) (chan : Nat) (f : Bytes) : Option (Nat × Bytes) :=
  let t := beNat (slice f 12 2)
  let pc := s.portCfg (chan / 4)
  if t = 0x8100 then
    if bit pc 2 ∧ beNat (slice f 14 2) % 4096 = bits pc 19 8 ∧ beNat (slice f 16 2) ≠ 0x8100 then some (beNat (slice f 16 2), f.drop 18) else none
  else some (t, f.drop 14)

/-- The channel and port are those of PTP (R343, R518). -/
def ptpChan (s : State) (chan : Nat) : Bool :=
  let c := s.dreg 0xC0_0800
  bit c 2 && chan == bits c 7 4 * 4 + bits c 9 8

/-- A UDP datagram's checksum verifies. -/
def udpOk (src dst : Nat) (udp : Bytes) : Bool := onesSum (pseudo src dst udp.length ++ udp) == 0xFFFF

/-- The options of a Neighbor Discovery message: none where one has length 0 or runs past the end (RFC 4861). [log 141 DEDUCED] -/
def ndOptions : Nat → Bytes → Option (List (Nat × Bytes))
  | 0, b => if b.isEmpty then some [] else none
  | n + 1, b =>
    if b.isEmpty then some []
    else
      let len := field b 1 1 * 8
      if len = 0 ∨ b.length < len then none
      else (ndOptions n (b.drop len)).map (fun l => (field b 0 1, slice b 2 (len - 2)) :: l)

/-- A Neighbor Solicitation for an address, as RFC 4861 lets a node take it: its source and the source link-layer address option. [log 141 DEDUCED] -/
def solicitation (addr : Nat) (ip body : Bytes) : Option (Nat × Option Bytes) :=
  let src := beNat (slice ip 8 16)
  let dst := beNat (slice ip 24 16)
  let sum := onesSum (toBe 16 src ++ toBe 16 dst ++ toBe 4 body.length ++ zeros 3 ++ [58] ++ body)
  let group := 0xFF02_0000_0000_0000_0000_0001_FF00_0000 + addr % 2 ^ 24
  if field ip 6 1 ≠ 58 ∨ field ip 7 1 ≠ 255 ∨ field body 0 1 ≠ 135 ∨ field body 1 1 ≠ 0 ∨ body.length < 24 ∨ sum ≠ 0xFFFF ∨
      beNat (slice body 8 16) ≠ addr ∨ (dst ≠ addr ∧ dst ≠ group) then none
  else match ndOptions body.length (body.drop 24) with
    | none => none
    | some l =>
      let mac := (l.find? (fun o => o.1 == 1)).map (fun o => o.2.take 6)
      if src = 0 ∧ (dst ≠ group ∨ mac.isSome) then none else some (src, mac)

/-- An IPv6 packet to the channel's address. -/
def ipKind (s : State) (chan : Nat) (ip : Bytes) : FrameKind :=
  let dst := beNat (slice ip 24 16)
  let src := beNat (slice ip 8 16)
  let next := field ip 6 1
  let body := slice ip 40 (beNat (slice ip 4 2))
  let dport := beNat (slice body 2 2)
  if field ip 0 1 / 16 ≠ 6 then .other
  else if let some (a, mac) := solicitation (s.tpAddr chan) ip body then .solicit a mac
  else if next = 17 ∧ ptpChan s chan ∧ (dport = 319 ∨ dport = 320) then .ptp (body.drop 8)
  else if next ≠ 17 ∨ dst ≠ s.tpAddr chan ∨ dport ≠ bits s.tpCfg 31 16 then .other
  else if beNat (slice body 6 2) = 0 ∨ !udpOk src dst body then .checksum
  else .basdo
    { chan := chan, src := src, label := beNat (slice ip 0 4) % 2 ^ 20, sport := beNat (slice body 0 2)
      ce := beNat (slice ip 0 2) / 16 % 4 == 3, bytes := body.drop 8 }

/-- What a frame that arrives on a channel is; `fcs` says that its FCS is correct. -/
def frameKind (s : State) (chan : Nat) (fcs : Bool) (f : Bytes) : FrameKind :=
  if !fcs then .fcs
  else match untag s chan f with
    | none => .vlan
    | some (t, ip) =>
      if t = 0x8808 then .pause
      else if t ≠ 0x86DD then .other
      else match ipKind s chan ip with
        | .basdo p => if beNat (f.take 6) = s.portMac chan then .basdo p else .other
        | .ptp b => .ptp b
        | .solicit a m => .solicit a m
        | .checksum => .checksum
        | .fcs => .other | .vlan => .other | .pause => .other | .other => .other

/-- Change a port. -/
def onPort (n : Nat) (f : Port → Port) (s : State) : State := { s with ports := tput s.ports n (f (tget {} s.ports n)) }

/-- FRAME_DISCARD (R346): a frame that is nothing the device takes is counted. [log 141 DEDUCED] -/
def execFrameDiscard (chan : Nat) (fcs : Bool) (f : Bytes) (s : State) : Out :=
  .next (
    let n := chan / 4
    if chanUp s chan then
      match frameKind s chan fcs f with
      | .fcs => onPort n (fun p => { p with fcs := sat 16 1 p.fcs }) s
      | .vlan => onPort n (fun p => { p with vlan := sat 16 1 p.vlan }) s
      | .pause => onPort n (fun p => { p with pause := sat 16 1 p.pause }) s
      | .other => onPort n (fun p => { p with other := sat 16 1 p.other }) s
      | .checksum =>
        (onPort n (fun p => { p with other := sat 16 1 p.other }) s).onTp (fun t => { t with checksum := sat 16 1 t.checksum })
      | .basdo _ => s | .solicit _ _ => s | .ptp _ => s
    else s)

/-! ### Neighbor Solicitation (R343, R346) -/

/-- The Neighbor Advertisement that answers a solicitation, with override and the target link-layer address (RFC 4861): solicited, to its
source, or unsolicited, to all nodes, where the source is unspecified. A solicitation without a source link-layer address is answered
over the channel's next hop, as every other packet goes. [log 141 DEDUCED, 143 DESIGN CHOICE] -/
def advertisement (s : State) (chan asker : Nat) (from_ : Option Bytes) : Bytes :=
  let src := s.tpAddr chan
  let dst := if asker = 0 then 0xFF02_0000_0000_0000_0000_0000_0000_0001 else asker
  let mac := if asker = 0 then toBe 6 0x3333_0000_0001 else from_.getD (toBe 6 (s.nextHop chan).toNat)
  let own := toBe 6 (s.portMac chan).toNat
  let body := [2, 1] ++ own
  let icmp (sum : Nat) : Bytes := [136, 0] ++ toBe 2 sum ++ toBe 4 (if asker = 0 then 0x2000_0000 else 0x6000_0000) ++ toBe 16 src ++ body
  let sum := 0xFFFF - onesSum (toBe 16 src ++ toBe 16 dst ++ toBe 4 32 ++ zeros 3 ++ [58] ++ icmp 0)
  let pc := s.portCfg (chan / 4)
  mac ++ own ++ (if bit pc 2 then toBe 2 0x8100 ++ toBe 2 (bits pc 6 4 * 0x2000 + bits pc 19 8) else []) ++ toBe 2 0x86DD ++
  toBe 4 (6 * 2 ^ 28) ++ toBe 2 32 ++ [58, 255] ++ toBe 16 src ++ toBe 16 dst ++ icmp sum

/-- NEIGHBOR_SOLICITATION (R346). [log 141 DEDUCED] -/
def execNeighborSolicitation (chan : Nat) (fcs : Bool) (f : Bytes) (s : State) : Out :=
  .next (if chanUp s chan then
    match frameKind s chan fcs f with
    | .solicit src mac => emit chan (advertisement s chan src mac) s
    | .fcs => s | .vlan => s | .pause => s | .other => s | .checksum => s | .basdo _ => s | .ptp _ => s
  else s)

/-! ### Basdo packets -/

/-- A frame's Basdo packet, if the transport receives it. -/
def basdoOf (s : State) (chan : Nat) (fcs : Bool) (f : Bytes) : Option Packet :=
  if chanUp s chan && s.tpEn then
    match frameKind s chan fcs f with
    | .basdo p => some p
    | .fcs => none | .vlan => none | .pause => none | .other => none | .checksum => none | .solicit _ _ => none | .ptp _ => none
  else none

/-- Count a packet discarded for its header (R351). -/
def badHdr (s : State) : State := s.onTp (fun t => { t with badHdr := sat 16 1 t.badHdr })

/-- An acknowledgement's fields are well formed (R350, R351). -/
def ackOk (b : Bytes) : Bool :=
  b.length == 64 && decide (field b 1 1 < 4) && zeroAt b 0x18 8 && beNat (slice b 0x16 2) != 0

/-- ACK_RECEIVE (R359): the frame carries an acknowledgement. -/
def execAckReceive (chan : Nat) (fcs : Bool) (f : Bytes) (s : State) : Out :=
  .next (match basdoOf s chan fcs f with
    | none => s
    | some p => if field p.bytes 0 1 = 0x12 then (if ackOk p.bytes then ackReceive (parseAck p.bytes) s else badHdr s) else s)

end Sys2Proof.Machine
end

