-- ==== Sys2Proof/Machine/Admission.lean ====
section
/-!
DEFINITION. Admission of a crate at its message completion time (R58, R83, R95-R98).
-/
namespace Sys2Proof.Machine

/-! ### The header (R80) -/

def crKind (b : Bytes) : Nat := field b 7 1
def crScheme (b : Bytes) : Nat := field b 0x1E 1
def crClient (b : Bytes) : Nat := field b 0x18 4
def crPayload (b : Bytes) : Nat := field b 0x28 4
def crProof (b : Bytes) : Nat := field b 0x2C 4
def crTrailer (b : Bytes) : Nat := field b 0x30 4

/-- PAYLOAD_LEN of an update crate of the round (R83). -/
def updatePayload (h : Shelf) : Nat :=
  let d := h.round.desc
  if d.elemType = 0x20 then (match h.roundSet with | none => 0 | some p => p.ctLen)
  else if d.elemType = 0x0B then (d.elemCount + 7) / 8
  else d.elemCount * (etypeBytes d.elemType).getD 0

/-- PROOF_LEN of an update crate (R83, R195). -/
def updateProof (h : Shelf) : Nat := if h.round.desc.mode = 2 then h.roundInst.proofLen h.round.desc.groupSize else 0

/-- TRAILER_LEN of a signature scheme. -/
def trailerLen (scheme : Nat) : Nat := if scheme = 3 then 5261 else 0

/-- The largest message that a round's crates can have (R83, R111). -/
def maxMessage (h : Shelf) : Nat :=
  let d := h.round.desc
  let t := if nbit d.sigSchemes 2 then 5261 else 0
  let share := if d.mode = 1 then (d.k + 1) * 64 else 0
  512 + max (updatePayload h + updateProof h) share + t

/-! ### The checks of R96 -/

/-- A refusal: the reason code and the status. -/
abbrev Refused := Option (Nat × Status)

/-- The ciphertext objects of a sealed update crate have the headers that admission asks (R222): every byte of a header is fixed. [log 84 DEDUCED] -/
def objectsOk (h : Shelf) (b : Bytes) : Bool :=
  match h.roundSet with
  | none => true
  | some p =>
    let hd := hdrBytes p.scheme p.log2n h.round.desc.keysetId p.fp p.limbs p.form p.fresh 0
    (List.range p.cts).all (fun i => slice b (512 + i * p.obj) 64 == hd)

/-- Checks 0x01 to 0x0A, in table order, for a message b that completes at time t on ring r. [log 84 DEDUCED] -/
def crateHeaderBad (h : Shelf) (b : Bytes) (r t : Nat) : Refused :=
  let d := h.round.desc
  let update := crKind b == 1
  let bad (n : Nat) : Refused := some (n, .verdictReject)
  if !h.round.active then bad 1
  else if b.length < 512 ∨ field b 0 4 ≠ 0x5452434B ∨ field b 4 2 ≠ 1 ∨ (crKind b ≠ 1 ∧ crKind b ≠ 2) ∨
      !zeroAt b 0x34 4 ∨ !zeroAt b 0x60 160 ∨ !zeroAt b 0x140 192 then bad 2
  else if field b 8 8 ≠ d.roundId ∨ field b 0x10 8 ≠ d.cohortId then bad 3
  else if !nbit d.ringMask r then bad 4
  else if (if update then d.tCut ≤ t else d.tExchange ≤ t) then some (5, .lateCrate)
  else if !update ∧ t < d.tCut then bad 6
  else if field b 6 1 ≠ d.mode ∨ (!update ∧ d.mode ≠ 1) ∨ field b 0x1C 1 ≠ (if update then d.elemType else 0) ∨ field b 0x1D 1 ≠ 1 ∨
      crScheme b = 0 ∨ 3 < crScheme b ∨ !nbit d.sigSchemes (crScheme b - 1) then bad 7
  else if field b 0x20 4 ≠ (if update then d.elemCount else 0) ∨ field b 0x24 4 ≠ (if update then d.coordOffset else 0) ∨
      crPayload b ≠ (if update then updatePayload h else (d.k + 1) * 64) ∨ crProof b ≠ (if update then updateProof h else 0) ∨
      crTrailer b ≠ trailerLen (crScheme b) ∨ b.length ≠ 512 + crPayload b + crProof b + crTrailer b ∨ crPayload b = 0 then bad 8
  else if (d.mode = 2 ∧ field b 0x1F 1 ≠ d.groupIndex) ∨ (d.mode = 3 ∧ (field b 0x38 8 ≠ d.keysetId ∨ !objectsOk h b)) then bad 9
  else if crClient b < d.clientBase ∨ d.clientBase + d.clientCount ≤ crClient b then bad 0xA
  else none

/-- Check 0x0B: the client's directory entry, or the refusal (R86, R96). -/
def keydirEntry (s : State) (k : Nat) (b : Bytes) : Except (Nat × Status) Bytes :=
  let h := s.shelf k
  let first := bits (h.reg rKeydirRange) 31 0
  let n := bits (h.reg rKeydirRange) 63 32
  if crClient b < first ∨ first + n ≤ crClient b then .error (0xB, .verdictReject)
  else
    let a := h.keydir.1 + (crClient b - first) * 64
    let st := vstat s k a 64
    let s := noteRead k a 64 s
    if st ≠ .ok then .error (0x11, st)
    else
      let e := vread s k a 64
      if field e 0 1 = crScheme b then .ok (slice e 8 33) else .error (0xB, .verdictReject)

/-- Checks 0x0C to 0x0E; a client bound to a PENDING record of a takeover is admitted by its ROOT (R547). [log 32 DEDUCED] -/
def crateClientBad (s : State) (k : Nat) (b : Bytes) : Refused :=
  let e := clientEntry s k (crClient b)
  let orphan := tget (0, []) (s.shelf k).rcv.orphans (crClient b)
  let dup :=
    if crKind b ≠ 1 then (s.shelf k).intake.shareSenders.contains (crClient b)
    else if tmem (s.shelf k).rcv.orphans (crClient b) then orphan.2 != slice b 0x40 32
    else e != .absent
  if dup then some (0xC, .verdictReject)
  else if crKind b = 2 ∧ !e.isCommitted then some (0xD, .verdictReject)
  else if merkleRoot (slice b 512 (crPayload b + crProof b)) ≠ slice b 0x40 32 then some (0xE, .verdictReject)
  else none

/-- The first check of R96 that fails, or the client's key. -/
def admissionCheck (s : State) (k r t : Nat) (b : Bytes) : Except (Nat × Status) Bytes :=
  match crateHeaderBad (s.shelf k) b r t with
  | some e => .error e
  | none =>
    match keydirEntry s k b with
    | .error e => .error e
    | .ok key => match crateClientBad s k b with | some e => .error e | none => .ok key

/-! ### The outcome (R95-R98, R106) -/

/-- The round counters of a refusal: reason 0x11 counts nothing (R96, R98). [log 29 DEDUCED] -/
def countRefusal (k reason : Nat) (st : Status) (s : State) : State :=
  if (s.shelf k).round.active && reason != 0x11 then
    s.onRound k (fun r =>
      let r := if st = .lateCrate then { r with late := sat 32 1 r.late } else { r with rejected := sat 32 1 r.rejected }
      if reason = 0xC then { r with duplicate := sat 32 1 r.duplicate } else r)
  else s

/-- A message is refused at admission. [log 27 DEDUCED, 28 DEDUCED] -/
def refuseCrate (k r seq t reason : Nat) (st : Status) (b : Bytes) (s : State) : State :=
  let short := b.length < 0x1C
  let s := onLog k seq (fun e => { e with time := t, roundId := if b.length < 16 then 0 else field b 8 8, client := crClient b, kind := crKind b }) s
  let s := rejectLog k t (if short then 0xFFFFFFFF else crClient b) (if b.length < 16 then 0 else field b 8 4) b.length reason st r seq s
  let s := countRefusal k reason st s
  let s := if reason = 0xE ∧ crKind b = 1 then setClient k (crClient b) .rejected s else s
  setLogState k seq .refused (settleRing k r seq s)

/-- The record of a crate (R102). -/
def crateRecord (seq t r off : Nat) (b : Bytes) : CrateRecord :=
  { logSeq := seq, time := t, client := crClient b, kind := crKind b, sigScheme := crScheme b, ring := r, entryOffset := off
    payloadLen := crPayload b, proofLen := crProof b, trailerLen := crTrailer b, elemCount := field b 0x20 4, coordOffset := field b 0x24 4 }

/-- On a spare after takeover, the crate's LOG_SEQ replaces the old one in the ledger entry, whose retractions can now be sent (R163,
R547). -/
def adopt (k seq client : Nat) (s : State) : State :=
  let o := (s.shelf k).rcv.orphans
  if tmem o client then
    let s := onEntry k (tget (0, []) o client).1 (fun e => { e with logSeq := seq }) s
    let s := s.onShelf k (fun h => { h with rcv := { h.rcv with orphans := tdel h.rcv.orphans client } })
    match ledgerEntry s k seq with
    | none => s
    | some e => trySettle k seq (resendRetractions k e s)
  else s

/-- A crate is admitted: its record waits for delivery. -/
def admitCrate (k r seq t : Nat) (key b : Bytes) (s : State) : State :=
  let off := match (ringOf s k r).bind (fun x => x.entry seq) with | none => 0 | some e => e.offset
  let s := onLog k seq (fun e => { e with
    state := .admitted, time := t, roundId := field b 8 8, client := crClient b, kind := crKind b, entryOffset := off, body := crPayload b + crProof b
    scheme := crScheme b, key := key }) s
  let s := writeLogHeader k seq s
  let x := crateRecord seq t r off b
  let s := onRing k r (fun y => { y with waiting := insRecord x y.waiting }) s
  if crKind b = 1 then adopt k seq (crClient b) (setClient k (crClient b) .provisional s)
  else s.onIntake k (fun n => { n with shareSenders := crClient b :: n.shareSenders })

/-- The checks reach the crate's client entry, whose line is read: one that cannot be read ends the round FAULTED (R78). [log 25 DEDUCED] -/
def clientRead (k r t : Nat) (b : Bytes) (s : State) : State :=
  if (crateHeaderBad (s.shelf k) b r t).isNone && (match keydirEntry s k b with | .ok _ => true | .error _ => false) then
    match clientStat s k (crClient b) with
    | .ok => s
    | st => endRound k .faulted st (noteRead k ((s.shelf k).ctab.1 + (crClient b - (s.shelf k).round.desc.clientBase) / 256 * 64) 64 s)
  else s

/-- CRATE_ADMISSION (R96): the message with LOG_SEQ seq on ring r is complete. [log 195 DESIGN CHOICE] -/
def crateComplete (k r seq : Nat) (s : State) : State :=
  match (ringOf s k r).bind (fun x => x.entry seq) with
  | none => s
  | some e =>
    let s := (List.range ((crPayload e.data + crProof e.data + 0xFFFF) / 0x10000)).foldl
      (fun s i => stampReq k (min 0x10000 (crPayload e.data + crProof e.data - i * 0x10000)) s) s
    let s := clientRead k r s.epoch e.data s
    match admissionCheck s k r s.epoch e.data with
    | .error (reason, st) => refuseCrate k r seq s.epoch reason st e.data s
    | .ok key => admitCrate k r seq s.epoch key e.data s

/-- A message that ends before it is complete settles its entries (R93, R107). -/
def crateAbandon (k r seq : Nat) (s : State) : State := setLogState k seq .refused (settleRing k r seq s)

end Sys2Proof.Machine
end

