-- ==== Sys2Proof/Machine/ShareRefresh.lean ====
section
/-!
DEFINITION. Share objects and share refresh (R211-R215), and the opening of received envelopes (R209).
-/
namespace Sys2Proof.Machine

/-! ### Received envelopes (R209) -/

/-- What a receiver knows about the messages it accepts: the first pairwise slot, its own index, the
members, and the identifier. -/
structure PeerCtx where
  base  : Nat
  me    : Nat
  size  : Nat
  id    : Nat

/-- A SEQ is new within a window of the 64 most recent values. -/
def seqNew (seen : List Nat) (n : Nat) : Bool :=
  let top := seen.foldl max 0
  !seen.contains n && (seen.isEmpty || decide (top < n + 64))

/-- Note a SEQ, keeping the window. -/
def seqNote (seen : List Nat) (n : Nat) : List Nat :=
  let l := n :: seen
  let top := l.foldl max 0
  l.filter (fun x => decide (top < x + 64))

/-- The generation that a slot holds whose bits [31:0] are KEY_GEN, or KEY_GEN itself (R208). -/
def heldGen (s : State) (slot g : Nat) : Nat :=
  match [(s.slot slot).cur, (s.slot slot).prev].filterMap id |>.find? (fun h => h.gen % 2 ^ 32 == g) with
  | some h => h.gen
  | none => g

/-- Open an envelope that came with a tag: its kind, sender and body (R209). -/
def openEnvelope (s : State) (k : Nat) (c : PeerCtx) (tag : Nat) (env : Bytes) : Option (Nat × Nat × Bytes) :=
  let kind := field env 5 1
  let sender := field env 6 1
  let seq := field env 0x10 4
  let n := field env 0x14 4
  let seen := tget [] (s.shelf k).verif.rxSeen (sender * 256 + kind)
  if field env 0 4 ≠ 0x50454E56 ∨ field env 4 1 ≠ 1 ∨ field env 7 1 ≠ c.me ∨ sender ≠ nbits tag 63 56 ∨ kind ≠ nbits tag 55 48 ∨
      field env 8 8 ≠ c.id ∨ c.size ≤ sender ∨ sender = c.me ∨ env.length ≠ 48 + n ∨ !seqNew seen seq then none
  else match bindGen s (peerSlot c.base c.me sender) (heldGen s (peerSlot c.base c.me sender) (field env 0x18 4)) (peerUse k) with
    | .error _ => none
    | .ok key =>
      (gcmOpen key.key (envNonce kind sender c.id seq) (env.take 32) (slice env 32 n) (env.drop (32 + n))).map (fun b => (kind, sender, b))

/-- Note an accepted envelope's SEQ. -/
def noteEnvelope (k : Nat) (env : Bytes) (s : State) : State :=
  let key := field env 6 1 * 256 + field env 5 1
  s.onVerif k (fun v => { v with rxSeen := tput v.rxSeen key (seqNote (tget [] v.rxSeen key) (field env 0x10 4)) })

/-- A discarded envelope is counted (R209); the counters are frozen while neither a round nor a refresh
runs (R215). [log 61 DEDUCED, 152 DESIGN CHOICE] -/
def badEnvelope (k : Nat) (s : State) : State :=
  if (s.shelf k).round.active || (s.shelf k).verif.shref.busy then s.onVerif k (fun v => { v with peerBad := sat 32 1 v.peerBad }) else s

/-! ### Share objects (R211) -/

def rShrefCtl : Nat := 0x0B60
def rShrefObj : Nat := 0x0B68
def rShrefId : Nat := 0x0B70
def rShrefDeadline : Nat := 0x0B78

def sobField (b : Bytes) : Nat := field b 6 1
def sobActive (b : Bytes) : Nat := field b 7 1
def sobGroup (b : Bytes) : Nat := field b 0x10 1
def sobIndex (b : Bytes) : Nat := field b 0x11 1
def sobCount (b : Bytes) : Nat := field b 0x14 4
def sobEpoch (b : Bytes) : Nat := field b 0x18 8
def sobLast (b : Bytes) : Nat := field b 0x20 8
/-- Bytes of an element of the object's field, and its prime. -/
def sobElem (b : Bytes) : Nat := if sobField b = 0x10 then 8 else 16
def sobPrime (b : Bytes) : Nat := if sobField b = 0x10 then field64 else field128
/-- Bytes of a half. -/
def sobHalf (b : Bytes) : Nat := roundUp (sobCount b * sobElem b) 64
/-- The address of half i. -/
def sobHalfAt (a : Nat) (b : Bytes) (i : Nat) : Nat := a + 64 + i * sobHalf b

/-- MAGIC, VERSION, FIELD and GROUP_SIZE are right, and the object lies in the shelf's Cellar. [log 64 DESIGN CHOICE] -/
def sobOk (h : Shelf) (a : Nat) (b : Bytes) : Bool :=
  field b 0 4 == 0x5348524B && field b 4 2 == 1 && (sobField b == 0x10 || sobField b == 0x11) && decide (sobActive b ≤ 1) &&
  decide (2 ≤ sobGroup b) && decide (sobGroup b ≤ 4) && inCellar h a (64 + 2 * sobHalf b)

/-! ### The steps of a refresh (R213) -/

/-- Change the share refresh of shelf k. -/
def State.onShref (s : State) (k : Nat) (f : ShRefresh → ShRefresh) : State := s.onVerif k (fun v => { v with shref := f v.shref })

/-- The header of the object being refreshed. -/
def shrefHead (s : State) (k : Nat) : Bytes := vread s k (s.shelf k).verif.shref.obj 64

/-- n field elements below p from candidates of the XOF, with enough candidates found within m doublings. [log 65 DESIGN CHOICE] -/
def fieldVec (seed : Bytes) (p w n : Nat) : Nat → Nat → List Nat
  | 0, _ => []
  | m + 1, cand =>
    let l := ((chunks w (turboShake Config.shrefDomain.toNat seed (cand * w))).map leNat).filter (fun x => decide (x < p))
    if n ≤ l.length then l.take n else fieldVec seed p w n m (2 * cand + 1)

/-- z of a pair from its seed (step 3). [log 65 DESIGN CHOICE] -/
def pairVec (hb z : Bytes) : List Nat :=
  fieldVec (z ++ slice hb 8 8 ++ toLe 8 (sobEpoch hb + 1)) (sobPrime hb) (sobElem hb) (sobCount hb) 64 (sobCount hb)

/-- Step 4: the new share. -/
def newShare (s : State) (k : Nat) : Bytes :=
  let x := (s.shelf k).verif.shref
  let hb := shrefHead s k
  let p := sobPrime hb
  let w := sobElem hb
  let old := (chunks w (vread s k (sobHalfAt x.obj hb (sobActive hb)) (sobCount hb * w))).map leNat
  let out := x.seeds.foldl (fun acc e =>
    let z := pairVec hb e.2
    (acc.zip z).map (fun y => if sobIndex hb < e.1 then (y.1 + y.2) % p else (y.1 + p - y.2) % p)) (old.map (· % p))
  out.flatMap (toLe w)

/-- The refresh ends with its header unchanged: the inactive half, Z and z are zeroised (R214). [log 63 DESIGN CHOICE] -/
def endShref (k : Nat) (st : Status) (s : State) : State :=
  let x := (s.shelf k).verif.shref
  let hb := shrefHead s k
  let s := vzero s k (sobHalfAt x.obj hb (1 - sobActive hb)) (sobHalf hb)
  s.onShref k (fun _ => { result := st })

/-- The peers of the object. -/
def shrefPeers (hb : Bytes) : List Nat := (List.range (sobGroup hb)).filter (fun j => j != sobIndex hb)

/-- The body of an envelope of step 1 or 5. -/
def shrefBody (hb : Bytes) (epoch : Nat) (z : Bytes) : Bytes := slice hb 8 8 ++ toLe 8 epoch ++ z

/-- Send an envelope of the refresh to peer j. -/
def shrefSend (k j kind : Nat) (body : Bytes) (s : State) : State :=
  let x := (s.shelf k).verif.shref
  sendEnvelope k x.slot (sobIndex (shrefHead s k)) j kind x.id 0 body s

/-- The digests that have come and agree with this device's (step 5). [log 66 DESIGN CHOICE] -/
def agreeing (hb : Bytes) (x : ShRefresh) : List Nat :=
  (shrefPeers hb).filter (fun j => tmem x.bodies j && tmem x.seeds j &&
    tget [] x.bodies j == shrefBody hb (sobEpoch hb + 1) (sha3 (tget [] x.seeds j)))

/-- Step 6, when every peer agrees before the deadline (R214): the header in one write. [log 68 DEDUCED] -/
def finishShref (k : Nat) (s : State) : State :=
  let x := (s.shelf k).verif.shref
  let hb := shrefHead s k
  let ok := agreeing hb x
  if x.limit < s.epoch then endShref k .retryExhausted s
  else if x.wrote && (shrefPeers hb).all ok.contains then
    let nb := hb.take 7 ++ toLe 1 (1 - sobActive hb) ++ slice hb 8 16 ++ toLe 8 (sobEpoch hb + 1) ++ toLe 8 x.id ++ hb.drop 0x28
    (vwrite s k x.obj nb).onShref k (fun _ => { result := .ok })
  else s.onShref k (fun y => { y with agreed := ok })

/-- Steps 3 to 5, once every seed is held. [log 63 DESIGN CHOICE] -/
def writeShref (k : Nat) (s : State) : State :=
  let x := (s.shelf k).verif.shref
  let hb := shrefHead s k
  if !x.wrote && (shrefPeers hb).all (tmem x.seeds) then
    let a := sobHalfAt x.obj hb (sobActive hb)
    let st := vstat s k a (sobCount hb * sobElem hb)
    let s := noteRead k a (sobCount hb * sobElem hb) s
    if st ≠ .ok then endShref k st s
    else
      let s := vwrite s k (sobHalfAt x.obj hb (1 - sobActive hb)) (newShare s k)
      let s := s.onShref k (fun y => { y with wrote := true })
      let s := (shrefPeers hb).foldl (fun s j => shrefSend k j 0x81 (shrefBody hb (sobEpoch hb + 1) (sha3 (tget [] x.seeds j))) s) s
      finishShref k s
  else s

/-- An envelope of kind 0x80 from peer j (step 2); only a lower index sends one, and the
first is the one awaited. [log 66 DESIGN CHOICE] -/
def takeSeed (k j : Nat) (body : Bytes) (s : State) : State :=
  let hb := shrefHead s k
  if sobIndex hb ≤ j ∨ tmem (s.shelf k).verif.shref.seeds j then s
  else if body.length = 48 ∧ body.take 16 = shrefBody hb (sobEpoch hb) [] then
    writeShref k (s.onShref k (fun x => { x with seeds := tput x.seeds j (body.drop 16) }))
  else endShref k .verdictReject s

/-- An envelope of kind 0x81 from peer j (step 5). [log 66 DESIGN CHOICE] -/
def takeDigest (k j : Nat) (body : Bytes) (s : State) : State :=
  finishShref k (s.onShref k (fun x => { x with bodies := tput x.bodies j body }))

/-! ### Start, revert, abort and the deadline (R212, R214) -/

/-- RESULT of a command that is turned away. -/
def shrefRefuse (k : Nat) (st : Status) (s : State) : State := s.onShref k (fun x => { x with result := st })

/-- Step 1: draw and send a seed for each higher peer. -/
def sendSeeds (k : Nat) (hb : Bytes) : List Nat → State → State
  | [], s => s
  | j :: r, s =>
    let (z, s) := drawBytes 32 s
    let s := s.onShref k (fun x => { x with seeds := tput x.seeds j z })
    sendSeeds k hb r (shrefSend k j 0x80 (shrefBody hb (sobEpoch hb) z) s)

/-- OP 0b01 (R212). [log 64 DESIGN CHOICE] -/
def shrefStart (k : Nat) (s : State) : State :=
  let h := s.shelf k
  let obj := bits (h.reg rShrefObj) 47 6 * 64
  let id := bits (h.reg rShrefId) 47 0
  let limit := (h.reg rShrefDeadline).toNat
  let base := bits (h.reg rShrefCtl) 31 24
  if h.round.active || h.verif.shref.busy then shrefRefuse k .paramUnsupported s
  else if !inCellar h obj 64 then shrefRefuse k .paramUnsupported s
  else
    let st := vstat s k obj 64
    let s := noteRead k obj 64 s
    let hb := vread s k obj 64
    if st ≠ .ok then shrefRefuse k st s
    else if !sobOk h obj hb || id == 0 || decide (id ≤ sobLast hb) || decide (limit ≤ s.epoch) then shrefRefuse k .paramUnsupported s
    else if (shrefPeers hb).any (fun j => match bindCur s (peerSlot base (sobIndex hb) j) (peerUse k) with | .ok _ => false | .error _ => true) then
      shrefRefuse k .deniedAttribute s
    else
      let fresh (t : Nat × Nat) : Bool := t.1 % 256 != 0x80 && t.1 % 256 != 0x81
      let s := s.onVerif k (fun v => { v with
        txSeq := v.txSeq.filter fresh, rxSeen := v.rxSeen.filter (fun e => fresh (e.1, 0))
        shref := { busy := true, result := v.shref.result, id := id, obj := obj, limit := limit, slot := base } })
      writeShref k (sendSeeds k hb ((shrefPeers hb).filter (fun j => decide (sobIndex hb < j))) s)

/-- OP 0b10 (R214): it undoes one refresh only. [log 64 DESIGN CHOICE, 67 DEDUCED] -/
def shrefRevert (k : Nat) (s : State) : State :=
  let h := s.shelf k
  let obj := bits (h.reg rShrefObj) 47 6 * 64
  if h.verif.shref.busy || !inCellar h obj 64 then shrefRefuse k .paramUnsupported s
  else
    let st := vstat s k obj 64
    let s := noteRead k obj 64 s
    let hb := vread s k obj 64
    if st ≠ .ok then shrefRefuse k st s
    else if sobOk h obj hb && decide (0 < sobEpoch hb) && sobLast hb != 0 then
      let nb := hb.take 7 ++ toLe 1 (1 - sobActive hb) ++ slice hb 8 16 ++ toLe 8 (sobEpoch hb - 1) ++ toLe 8 0 ++ hb.drop 0x28
      shrefRefuse k .ok (vwrite s k obj nb)
    else shrefRefuse k .paramUnsupported s

/-- OP 0b11 (R214). [log 67 DEDUCED] -/
def shrefAbort (k : Nat) (s : State) : State := if (s.shelf k).verif.shref.busy then endShref k .ok s else s

/-- A write of SHREF_CTL (R215): PEER_SLOT is written while neither a round nor a refresh runs. -/
def shrefCtlWrite (k : Nat) (v : Word) (s : State) : State :=
  let h := s.shelf k
  let s := if h.round.active || h.verif.shref.busy then s else s.setReg k rShrefCtl (v &&& 0xFF00_0000)
  match bits v 1 0 with
  | 1 => shrefStart k s
  | 2 => shrefRevert k s
  | 3 => shrefAbort k s
  | _ => s

/-- SHARE_REFRESH_START (R212): SHREF_CTL is written with OP 0b01 and PEER_SLOT. -/
def execShareRefreshStart (k : Nat) (slot : BitVec 8) (s : State) : Out :=
  .next (shrefCtlWrite k ((0 : BitVec 32) ++ slot ++ (1 : BitVec 24)) s)

/-- SHARE_REFRESH_REVERT (R214). -/
def execShareRefreshRevert (k : Nat) (slot : BitVec 8) (s : State) : Out :=
  .next (shrefCtlWrite k ((0 : BitVec 32) ++ slot ++ (2 : BitVec 24)) s)

/-- SHARE_REFRESH_ABORT (R214). -/
def execShareRefreshAbort (k : Nat) (slot : BitVec 8) (s : State) : Out :=
  .next (shrefCtlWrite k ((0 : BitVec 32) ++ slot ++ (3 : BitVec 24)) s)

/-- SHARE_REFRESH_DEADLINE (R214): SHREF_DEADLINE passes before step 6. [log 68 DEDUCED] -/
def execShareRefreshDeadline (k : Nat) (s : State) : Out :=
  .next (
    let x := (s.shelf k).verif.shref
    if x.busy then endShref k .retryExhausted (s.toEpoch x.limit) else s)

end Sys2Proof.Machine
end

