-- ==== Sys2Proof/Machine/RoundStart.lean ====
section
/-!
DEFINITION. ROUND_CTL.START (R45-R51): the descriptor, the checks of R49 and of the other chapters in the
order of R50, and the start of a round.
-/
namespace Sys2Proof.Machine

def rRoundDesc : Nat := 0x0200
def rRoundCtl : Nat := 0x0208
def rPrioVerif : Nat := 0x0B08
def rBuddyCfg : Nat := 0x1948
def rWptCfg : Nat := 0x1B00

/-! ### The descriptor (R48) -/

/-- The descriptor that 256 bytes hold. -/
def parseDesc (b : Bytes) : RoundDesc :=
  { raw := b, magic := field b 0 4, version := field b 4 2, mode := field b 6 1, flags := field b 7 1, roundId := field b 8 8
    cohortId := field b 0x10 8, clientBase := field b 0x18 4, clientCount := field b 0x1C 4, minCohort := field b 0x20 4
    elemType := field b 0x24 1, foldOp := field b 0x25 1, scaleE := field b 0x26 1, sigSchemes := field b 0x27 1
    elemCount := field b 0x28 4, coordOffset := field b 0x2C 4, modulus := field b 0x30 8, degree := field b 0x38 2
    threshold := field b 0x3A 2, groupSize := field b 0x3C 1, groupIndex := field b 0x3D 1, inst := field b 0x3E 2
    tOpen := field b 0x40 8, tCut := field b 0x48 8, tExchange := field b 0x50 8, tRelease := field b 0x58 8
    tDeadline := field b 0x60 8, waypointMs := field b 0x68 4, graphSeed := slice b 0x70 32, keysetId := field b 0x90 8
    modelAddr := field b 0x98 8, releaseAddr := field b 0xA0 8, noiseAddr := field b 0xA8 8, optAddr := field b 0xB0 8
    ringMask := field b 0xB8 8, signSlot := field b 0xC0 1, sealSlot := field b 0xC1 1, peerSlot := field b 0xC2 1
    programDigest := slice b 0xC8 32 }

/-- BUDDY of FLAGS. -/
def RoundDesc.buddy (d : RoundDesc) : Bool := nbit d.flags 3

/-! ### Checks -/

/-- One check: whether it fails, DETAIL and BAD_FIELD. -/
abbrev Check := Bool × Status × Nat

/-- The first check of a list that fails. -/
def firstBad (l : List Check) : Option (Status × Nat) := (l.find? (fun c => c.1)).map (fun c => c.2)

/-- A key use is not permitted. -/
def useDenied (s : State) (slot : Nat) (u : KeyUse) : Bool :=
  match bindCur s slot u with | .ok _ => false | .error _ => true

/-- A fold arithmetic that no mode takes (R49, third row). -/
def opRefused (op : Nat) : Bool := op == opAnd || op == opOr || op == opMin || op == opMax

/-- FOLD_OP lies outside the supported set of the mode (R49, R116, R167). [log 12 DEDUCED] -/
def opUnsupported (d : RoundDesc) : Bool :=
  if d.mode = 1 then !(d.foldOp == opAdd32 || d.foldOp == opAdd64 || d.foldOp == opAddP || opRefused d.foldOp) else !opDefined d.foldOp

/-- ELEM_TYPE lies outside the supported set; masked-sum takes the source types of its arithmetic (R117, R167). [log 12 DEDUCED] -/
def elemUnsupported (d : RoundDesc) : Bool :=
  if d.mode = 1 then
    (if d.foldOp = opAdd32 then !(d.elemType == 0x01 || d.elemType == 0x05)
     else if d.foldOp = opAdd64 then !(d.elemType == 0x02 || d.elemType == 0x06)
     else if d.foldOp = opAddP then !(d.elemType == 0x07)
     else !etypeKnown d.elemType)
  else !etypeKnown d.elemType

/-- The checks of R49 on identity, mode, cohort and group, in table order. [log 11 DESIGN CHOICE, 12 DEDUCED] -/
def r49Shape (s : State) (k : Nat) (d : RoundDesc) : List Check :=
  let pu := Status.paramUnsupported
  let masked := d.mode == 1
  let shared := d.mode == 2
  let sealedM := d.mode == 3
  let h := s.shelf k
  [ (d.magic != 0x444E524B, pu, 0x00), (d.version != 1, pu, 0x04),
    (!(masked || shared || sealedM), pu, 0x06), (elemUnsupported d, pu, 0x24), (opUnsupported d, pu, 0x25),
    (if masked then d.inst != 0 else decide (16 ≤ d.inst), pu, 0x3E), (d.sigSchemes == 0 || decide (8 ≤ d.sigSchemes), pu, 0x27),
    (opRefused d.foldOp, pu, 0x25),
    ((match h.round.highId with | none => false | some n => decide (d.roundId ≤ n)), pu, 0x08),
    (d.clientCount == 0 || decide (2 ^ 24 < d.clientCount), pu, 0x1C), (decide (2 ^ 32 < d.clientBase + d.clientCount), pu, 0x18),
    (decide (d.minCohort < 2) || decide (d.clientCount < d.minCohort), pu, 0x20),
    (masked && (decide (2 * d.threshold ≤ d.k) || decide (d.k < d.threshold)), pu, 0x3A), (masked && decide (1024 < d.k), pu, 0x38),
    (masked && decide (d.minCohort < d.threshold), pu, 0x20),
    (shared && (decide (d.groupSize < 2) || decide (4 < d.groupSize)), pu, 0x3C), (shared && d.stepEn, pu, 0x07),
    (sealedM && (decide (d.groupSize < 2) || decide (16 < d.groupSize)), pu, 0x3C),
    (sealedM && (decide (d.threshold < 2) || decide (d.groupSize < d.threshold)), pu, 0x3A),
    (sealedM && !h.lat.ksets.any (fun e => e.2.id == d.keysetId), .keysetMismatch, 0x90),
    (masked && (decide (d.groupSize < 1) || decide (64 < d.groupSize)), pu, 0x3C), (decide (d.groupSize ≤ d.groupIndex), pu, 0x3D) ]

/-- An address field of the descriptor is unusable. -/
def addrBad (h : Shelf) (a : Nat) : Bool := a % 64 != 0 || !inShelf h a 64

/-- The checks of R49 on times, addresses, slots, program and reserved fields, in table order. [log 11 DESIGN CHOICE] -/
def r49Rest (s : State) (k : Nat) (d : RoundDesc) : List Check :=
  let pu := Status.paramUnsupported
  let h := s.shelf k
  [ (decide (d.tCut ≤ d.tOpen), pu, 0x48), (decide (d.tExchange ≤ d.tCut), pu, 0x50), (decide (d.tDeadline ≤ d.tExchange), pu, 0x60),
    (d.tRelease != 0 && (decide (d.tRelease < d.tExchange) || decide (d.tDeadline < d.tRelease)), pu, 0x58),
    (decide (d.tCut ≤ s.epoch), pu, 0x48),
    (d.waypointMs != 0 && (decide (d.waypointMs < 10) || decide (1000 < d.waypointMs) || d.waypointMs % 10 != 0), pu, 0x68),
    (addrBad h d.modelAddr, pu, 0x98), (addrBad h d.releaseAddr, pu, 0xA0), (addrBad h d.noiseAddr, pu, 0xA8), (addrBad h d.optAddr, pu, 0xB0),
    ((List.range 64).any (fun r => nbit d.ringMask r && (ringOf s k r).isNone), pu, 0xB8),
    (useDenied s d.signSlot (signUse k 7) || useDenied s (d.signSlot + 1) (signUse k 6), .deniedAttribute, 0xC0),
    (useDenied s d.sealSlot (sealUse k), .deniedAttribute, 0xC1),
    ((List.range (d.groupSize - 1)).any (fun j => useDenied s (d.peerSlot + j) (peerUse k)), .deniedAttribute, 0xC2),
    (!h.prog.loaded || d.programDigest != h.prog.digest, pu, 0xC8),
    (decide (16 ≤ d.flags), pu, 0x07), (!zeroAt d.raw 0x6C 4, pu, 0x6C), (!zeroAt d.raw 0xC3 5, pu, 0xC3), (!zeroAt d.raw 0xE8 24, pu, 0xE8) ]

/-- The regions of R111: crate log, reject log, key directory, client table and ring middles. -/
def intakeRegions (h : Shelf) : List (Nat × Nat) :=
  h.clog :: h.rejlog :: h.keydir :: h.ctab :: h.intake.rings.map (fun e => (e.2.middleBase, e.2.middleSize))

/-- No two ranges of a list overlap. -/
def disjoint : List (Nat × Nat) → Bool
  | [] => true
  | r :: l => l.all (fun x => !overlap r.1 r.2 x.1 x.2) && disjoint l

/-- The shelf as it would run the round of a descriptor. -/
def Shelf.withDesc (h : Shelf) (d : RoundDesc) : Shelf := { h with round := { h.round with desc := d } }

/-- R111 and the client-table check of R60. -/
def intakeBad (h : Shelf) (d : RoundDesc) : Bool :=
  let first := bits (h.reg rKeydirRange) 31 0
  let n := bits (h.reg rKeydirRange) 63 32
  h.clog.2 == 0 || decide (h.clog.2 < logLen (maxMessage (h.withDesc d))) || decide (d.clientBase < first) ||
  decide (first + n < d.clientBase + d.clientCount) || !inCellar h h.clog.1 h.clog.2 || !inCellar h h.keydir.1 h.keydir.2 ||
  (bit (h.reg rRejlogCfg) 63 && !inCellar h h.rejlog.1 h.rejlog.2) || !disjoint (intakeRegions h) ||
  h.ctab.2 == 0 || !inCellar h h.ctab.1 h.ctab.2 || decide (h.ctab.2 < ctabLen d.clientCount)

/-- The checks of R196, in table order. -/
def sharedChecks (s : State) (k : Nat) (d : RoundDesc) : List Check :=
  let pu := Status.paramUnsupported
  let h := s.shelf k
  let i := h.inst (d.inst % 16)
  let t := region64k (h.reg rPrioVerif)
  let relay := (List.range 4).any (fun j => bit (h.reg (rPeerRoute j)) 0) && (region64k (h.reg rRelayCfg)).2 == 0
  [ (decide (16 ≤ d.inst) || !i.valid || !i.ok, pu, 0x3E),
    (d.elemType != (if i.f128 then 0x11 else 0x10), pu, 0x24), (d.foldOp != (if i.f128 then opAddF128 else opAddF64), pu, 0x25),
    (d.elemCount != i.measLen, pu, 0x28), (d.coordOffset != 0, pu, 0x2C), (d.noiseEn && decide (1 < i.truncBits), pu, 0x07),
    (useDenied s i.vkSlot (vkUse k), .deniedAttribute, 0xFD),
    (decide (t.2 < verifTableLen d.clientCount d.groupSize i) || !(intakeRegions h).all (fun r => !overlap t.1 t.2 r.1 r.2) || relay, pu, 0xFE) ]

/-- The checks of the round's mode. -/
def modeBad (s : State) (k : Nat) (d : RoundDesc) : Option (Status × Nat) :=
  match d.mode with
  | 1 => (maskedBad (s.shelf k) d).map (fun f => (Status.paramUnsupported, f))
  | 2 => firstBad (sharedChecks s k d)
  | _ => sealedBad s k d (intakeRegions (s.shelf k))

/-- The checks that follow R283 (R321, R395, R485, R523, R538). -/
def lateChecks (s : State) (k : Nat) (d : RoundDesc) : List Check :=
  let pu := Status.paramUnsupported
  let h := s.shelf k
  let w := region64k (h.reg rWptCfg)
  let timeless := match s.tim.state with | .free => true | .acquiring => s.tim.fromFree | .locked => false | .holdover => false
  [ (!h.prog.loaded || dataHitsCask s k, pu, 0xC8),
    (d.buddy && (!bit (h.reg rBuddyCfg) 48 || !bit s.tpSeal 8), pu, 0x07),
    (d.stepEn && (match h.model with | none => true | some m => m.1 != d.modelAddr), pu, 0x98),
    (timeless, pu, 0x40),
    (w.2 == 0 || !inCellar h w.1 w.2 || !(intakeRegions h).all (fun r => !overlap w.1 w.2 r.1 r.2), pu, 0xFE) ]

/-- Every check of R50 on a descriptor: the blocks of R283, or DETAIL and BAD_FIELD. -/
def startChecks (s : State) (k : Nat) (d : RoundDesc) : Except (Status × Nat) RelBlocks :=
  match firstBad (r49Shape s k d ++ r49Rest s k d) with
  | some e => .error e
  | none =>
    if intakeBad (s.shelf k) d then .error (.paramUnsupported, 0xFF)
    else match modeBad s k d with
      | some e => .error e
      | none =>
        match releaseChecks s k d (intakeRegions (s.shelf k)) with
        | .error e => .error e
        | .ok x => match firstBad (lateChecks s k d) with | some e => .error e | none => .ok x

/-! ### START (R51, R297) -/

/-- The counters and status of the last round are cleared (R51, R166, R188, R215, R252, R292, R525). [log 13 DEDUCED, 14 DESIGN CHOICE] -/
def clearCounters (k : Nat) (s : State) : State :=
  s.onShelf k (fun h =>
    let keep (t : Nat × Nat) : Bool := t.1 % 256 == 0x80 || t.1 % 256 == 0x81
    { h with
      round := { phase := .idle, highId := h.round.highId, startRefused := h.round.startRefused, lo := h.round.lo }
      ledger := { h.ledger with retractSegs := 0, noopSegs := 0, forced := 0 }
      recov := {}
      verif := { head := h.verif.head, held := h.verif.held, shref := h.verif.shref
                 txSeq := h.verif.txSeq.filter keep, rxSeen := h.verif.rxSeen.filter (fun e => keep (e.1, 0)) }
      sealSt := {}
      rel := {}
      sched := h.sched.filter (fun e => decide (8 ≤ e.1))
      intake := { h.intake with shareSenders := [] } })

/-- START is refused with REFUSED_DESCRIPTOR. [log 13 DEDUCED] -/
def refuseStart (k : Nat) (st : Status) (bad : Nat) (s : State) : State :=
  roundIrq k (s.onRound k (fun r => { r with outcome := .refusedDescriptor, detail := st, badField := bad }))

/-- Raise PHASE_IRQ for a phase (R51). [log 19 DESIGN CHOICE] -/
def phaseIrq (k : Nat) (p : Phase) (s : State) : State :=
  let c := (s.shelf k).reg rRoundCtl
  if bit c 2 && bit c (8 + p.code) then signalShelf k 1 s else s

/-- The waypoint interval in ms: WAYPOINT_MS, or 100 where it is 0 (R48). -/
def RoundDesc.interval (d : RoundDesc) : Nat := if d.waypointMs = 0 then 100 else d.waypointMs

/-- The last boundary before the epoch time t, for a round that starts (R56). [log 242 DEDUCED] -/
def RoundDesc.lastBoundary (d : RoundDesc) (t : Nat) : Nat :=
  let i := d.interval * 1_000_000
  (t - 1) / i * i

/-- Waypoint state as a round starts at the epoch time t: no waypoint of the round, and what tells of the last complete one kept (R551). [log 242 DEDUCED] -/
def Wpt.fresh (w : Wpt) (d : RoundDesc) (t : Nat) : Wpt :=
  { cuts := w.cuts, startCut := w.cuts, doneCut := w.cuts, slot := w.slot, doneTime := w.doneTime, overflow := w.overflow
    passed := w.passed, bound := d.lastBoundary t }

/-- The round starts: the client table is zeroed and the round waits in IDLE for T_OPEN. [log 13 DEDUCED, 19 DESIGN CHOICE] -/
def startRound (k : Nat) (d : RoundDesc) (x : RelBlocks) (s : State) : State :=
  let s := s.onRound k (fun r => { r with
    active := true, desc := d, sum := if d.mode = 3 then (match (s.shelf k).pset (d.inst % 16) with | none => (0, 0) | some p => (s.shelf k).sumArea p) else (0, 0), highId := some d.roundId, lo := d.roundId % 2 ^ 32 })
  let s := s.onProg k (fun p => { p with service := false, stopping := false })
  let s := s.onShelf k (fun h => { h with
    wpt := h.wpt.fresh d s.epoch
    rcv := { h.rcv with restores := 0, orphans := [] } })
  phaseIrq k .idle (relStart k x (zeroCtab k s))

/-- Count the read of a block that could not be read, found by the field that names it. -/
def noteBlock (k : Nat) (d : RoundDesc) (e : Status × Nat) (s : State) : State :=
  let a := match e.2 with | 0x98 => some d.modelAddr | 0xA0 => some d.releaseAddr | 0xA8 => some d.noiseAddr | 0xB0 => some d.optAddr | _ => none
  match e.1, a with
  | .uncorrectable, some a => noteRead k a 64 s
  | .poisoned, some a => noteRead k a 64 s
  | _, _ => s

/-- Read and check the descriptor, and start the round (R49); the digest is formed of every descriptor that can be read (R47). [log 13 DEDUCED] -/
def roundStart (k : Nat) (s : State) : State :=
  let s := clearCounters k s
  let h := s.shelf k
  let a := bits (h.reg rRoundDesc) 47 6 * 64
  if !inCellar h a 256 then refuseStart k .paramUnsupported 0 s
  else
    let st := vstat s k a 256
    let s := noteRead k a 256 s
    if st ≠ .ok then refuseStart k st 0 s
    else
      let d := parseDesc (vread s k a 256)
      let s := s.onRound k (fun r => { r with descDigest := sha3 d.raw })
      match startChecks s k d with
      | .error e => refuseStart k e.1 e.2 ((noteBlock k d e s).onRound k (fun r => { r with lo := d.roundId % 2 ^ 32 }))
      | .ok x => startRound k d x s

/-- A START that has no effect (R51, R212, R297). [log 12 DEDUCED] -/
def startBusy (s : State) (k : Nat) : Bool :=
  (s.shelf k).round.active || serviceActive s k || (s.shelf k).verif.shref.busy

end Sys2Proof.Machine
end

