-- ==== Sys2Proof/Machine/Receive.lean ====
section
/-!
DEFINITION. Messages at their receiver (R351, R356-R358, R363-R366): admission, placement, sealing, delivery
and acknowledgement, in windows, rings, bins, the unexpected buffer and read destinations (R380-R387).
-/
namespace Sys2Proof.Machine

/-! ### Data packets (R349, R351) -/

/-- The header fields of a data packet, and its payload. -/
structure Data where
  flags  : Nat
  flow   : Nat
  seq    : Nat
  prev   : Nat
  len    : Nat
  off    : Nat
  op     : Nat
  path   : Nat
  index  : Nat
  keyTag : Nat
  roff   : Nat
  tshelf : Nat
  sshelf : Nat
  snode  : Nat
  time   : Nat
  body   : Bytes

/-- Parse the 56-byte header. -/
def parseData (b : Bytes) : Data :=
  { flags := field b 1 1, flow := beNat (slice b 2 2), seq := beNat (slice b 4 4), prev := beNat (slice b 8 4)
    len := beNat (slice b 0xC 4), off := beNat (slice b 0x10 4), op := field b 0x14 1, path := field b 0x15 1
    index := beNat (slice b 0x16 2), keyTag := beNat (slice b 0x18 8), roff := beNat (slice b 0x20 8)
    tshelf := field b 0x28 1, sshelf := field b 0x29 1, snode := beNat (slice b 0x2A 2), time := beNat (slice b 0x2C 4)
    body := b.drop 56 }

/-- The sender's MSS. -/
def Data.mss (d : Data) : Nat := if nbit d.flags 3 then 8192 else 4096

/-- The index of the packet in its message. -/
def Data.packet (d : Data) : Nat := d.off / d.mss

/-- The packet's form is as R351 wants it, but for the match of a READ_RSP. [log 32 DEDUCED] -/
def dataOk (b : Bytes) : Bool :=
  let d := parseData b
  decide (56 ≤ b.length) && field b 0 1 == 0x11 && decide (d.flags < 16) && zeroAt b 0x30 8 && decide (1 ≤ d.op) && decide (d.op ≤ 4) &&
  (d.op == 1 || d.op == 3 || d.index == 0) && (d.op != 2 || d.roff == 0) && (d.op == 1 || d.op == 2 || d.prev == 0) &&
  decide (d.len ≤ 2 ^ 30) && d.snode != 0 &&
  (if d.op = 3 then d.body.isEmpty && d.off == 0
   else d.off % d.mss == 0 && (if d.len = 0 then d.off == 0 else decide (d.off < d.len)) && d.body.length == min d.mss (d.len - d.off))

/-- The key of a message at its receiver. -/
def rxKey (snode seq : Nat) : Nat := snode * 2 ^ 32 + seq
def Data.key (d : Data) : Nat := rxKey d.snode d.seq

def State.rxMsg (s : State) (key : Nat) : Option RxMsg := (s.tp.rx.find? (fun e => e.1 == key)).map (·.2)

/-- Change a message at its receiver. -/
def onRx (key : Nat) (f : RxMsg → RxMsg) (s : State) : State :=
  s.onTp (fun t => { t with rx := mapIf (fun e => e.1 == key) (fun e => (e.1, f e.2)) t.rx })

/-! ### Acknowledgements (R350) -/

/-- The least packet not held. -/
def RxMsg.cum (m : RxMsg) : Nat := ((List.range (m.packets.length + 1)).find? (fun i => !m.packets.contains i)).getD 0

/-- Packets of the message. -/
def RxMsg.total (m : RxMsg) : Nat := if m.op = 3 then 1 else packetCount m.mss m.len

/-- The state of a delivered or refused message. -/
def RxMsg.delivered (m : RxMsg) : Bool := match m.state with | .linger => true | .placing => false | .held => false | .refused => false
def RxMsg.isRefused (m : RxMsg) : Bool := match m.state with | .refused => true | .placing => false | .held => false | .linger => false

/-- The 64 bytes of an acknowledgement. -/
def ackBytes (s : State) (key : Nat) (m : RxMsg) : Bytes :=
  let cum := if m.isRefused then 0 else if m.delivered then m.total else m.cum
  let sack := if m.isRefused || m.delivered then zeros 32 else
    (List.range 32).map (fun i => BitVec.ofNat 8 (((List.range 8).map (fun j => if m.packets.contains (cum + 1 + 8 * i + j) then 2 ^ j else 0)).sum))
  toBe 1 0x12 ++ toBe 1 (b2n m.delivered + 2 * b2n m.isRefused) ++ toBe 2 m.flow ++ toBe 4 key ++ toBe 4 cum ++ toBe 4 m.ce ++ toBe 4 m.echo ++
  toBe 1 (if m.isRefused then m.status.code else 0) ++ toBe 1 m.path ++ toBe 2 s.node ++ zeros 8 ++ sack

/-- Send the acknowledgement of a message as it stands, if the transport is on and the channel that caused it is up (R372, R374). -/
def ackFrame (key : Nat) (m : RxMsg) (s : State) : State :=
  let dport := bits s.tpCfg 31 16
  if !s.tpEn || !chanUp s m.cause then s else
  emit m.cause (frameOf s m.cause m.srcAddr (bits s.tpCfg 13 8) 0 m.flowLabel dport m.sport (ackBytes s key m)) s

/-- Acknowledge a message; the counts and timer of R358 start again. [log 145 DEDUCED] -/
def sendAck (key : Nat) (s : State) : State :=
  match s.rxMsg key with
  | none => s
  | some m => onRx key (fun m => { m with sinceAck := 0, firstAt := 0 }) (ackFrame key m s)

/-! ### Admission (R357, R380, R385, R386) -/

/-- The outcome of a first packet. -/
inductive Admit where
  | silent
  | refuse (st : Status)
  | take (t : RxTarget) (sealed : Bool)

/-- The target shelf can take no message (R380, R385). [log 157 DEDUCED] -/
def shelfClosed (h : Shelf) : Bool :=
  h.desc.isNone || (match h.state with | .ready => false | .switching => true | .fenced => true)

/-- A crate that its ring or crate log can never take (R79). -/
def crateNever (s : State) (k r len : Nat) : Bool :=
  let h := s.shelf k
  match ringOf s k r with
  | none => true
  | some x => decide (2 ^ 30 < len) || decide (x.capacity < len) || h.clog.2 == 0 || decide (h.clog.2 < logLen len)

/-- The ring and the crate log have space for a crate (R104). -/
def crateRoom (s : State) (k r len : Nat) : Bool :=
  match ringOf s k r with | none => false | some x => x.room len && logRoom (s.shelf k) len

/-- A crate finds no space: RING_STATUS.FULL or CLOG_STATUS.FULL is set (R104). -/
def noteFull (k r len : Nat) (s : State) : State :=
  let s := match ringOf s k r with
    | none => s
    | some x => if x.room len then s else onRing k r (fun x => { x with full := true }) s
  if logRoom (s.shelf k) len then s else s.onIntake k (fun n => { n with clogFull := true })

/-- From the start of UNMASK to the end of the round (R392). -/
def unmasked (h : Shelf) : Bool := h.round.active && decide (Phase.unmask.code ≤ h.round.phase.code)

/-- Admission of a WRITE or READ_REQ, by the first row of R380 that applies; resources come after. -/
def admitWindow (s : State) (d : Data) : Admit :=
  let k := d.tshelf
  let h := s.shelf k
  let key := slotKey k d.index
  let w := s.win key
  let accessKey := s.gen key * 2 ^ 32 + w.key32
  if shelfClosed h || !decide (d.index < winSlice h) then .refuse .remoteFault
  else match w.state with
    | .free => .refuse .remoteFault
    | .draining => .refuse .windowRevoked
    | .open_ =>
      if d.keyTag % 2 ^ 32 = w.key32 ∧ d.keyTag / 2 ^ 32 ≠ s.gen key then .refuse .windowRevoked
      else if d.keyTag ≠ accessKey then .refuse .remoteFault
      else if !(if d.op = 1 then w.canWrite else w.canRead) ∨ (w.allow ≠ 0 ∧ w.allow ≠ d.snode) then .refuse .remoteFault
      else if d.op = 3 ∧ h.conf ∧ unmasked h ∧ !w.sealedOnly then .refuse .remoteFault
      else if w.kind = 2 then (if crateNever s k w.ring d.len then .refuse .remoteFault else .take (.ring w.ring 0) false)
      else if w.len < d.roff + (if w.sealedOnly then d.len - 16 else d.len) then .refuse .remoteFault
      else .take (.window key) w.sealedOnly

/-- A bin is POSTED. -/
def Bin.posted (b : Bin) : Bool := match b.state with | .posted => true | .free => false | .bound => false

/-- Bytes of the blocks of a buffer. -/
def blocksLen (l : List (Nat × Nat)) : Nat := (l.map (·.2)).sum

/-- A bin matches a message. -/
def Bin.takes (b : Bin) (tag len : Nat) : Bool :=
  b.posted && ((tag ^^^ b.tag) &&& b.mask) == 0 &&
  (b.kind != 0 || decide ((if b.seal_ then len - 16 else len) ≤ blocksLen b.blocks))

/-- The matching bin of a shelf posted earliest. -/
def matchBin (s : State) (k tag len : Nat) : Option (Nat × Bin) :=
  (s.bins.filter (fun e => e.1 / 65536 == k && e.2.takes tag len)).foldl
    (fun (a : Option (Nat × Bin)) e => match a with | none => some e | some x => if e.2.order < x.2.order then some e else a) none

/-- Space for n bytes in a group bin's region: the first place clear of its allocations. [log 151 DESIGN CHOICE] -/
def groupPlace (b : Bin) (n : Nat) : Option Nat :=
  let need := roundUp n 64
  ((0 :: b.used.map (fun u => u.1 + roundUp u.2 64)).filter (fun o => decide (o + need ≤ b.size) && b.used.all (fun u => !overlap o need u.1 (roundUp u.2 64)))).head?

/-- The unexpected buffer: base and size, and its occupied bytes (R386). [log 148 DEDUCED] -/
def unexArea (h : Shelf) : Nat × Nat := region64k (h.reg rUnexCfg)
def unexLen (n : Nat) : Nat := 64 + roundUp n 64
/-- The bytes of the unexpected buffer that its messages occupy (R386). [log 148 DEDUCED] -/
def unexUsed (h : Shelf) : Nat := (h.remote.unex.map (fun u => unexLen u.len)).sum

/-- Admission of a SEND. [log 148 DEDUCED] -/
def admitSend (s : State) (d : Data) : Admit :=
  let k := d.tshelf
  let h := s.shelf k
  if shelfClosed h then .refuse .remoteFault
  else match matchBin s k d.keyTag d.len with
    | some (i, b) =>
      if b.kind = 1 then (if crateNever s k b.ring d.len then .refuse .remoteFault else .take (.ring b.ring 0) false)
      else if b.kind = 2 then (match groupPlace b d.len with | none => .silent | some o => .take (.group i (b.base + o)) false)
      else .take (.bin i) b.seal_
    | none =>
      if (unexArea h).2 = 0 ∨ (unexArea h).2 < unexUsed h + unexLen d.len ∨ 4096 ≤ (h.remote.unex.filter (fun u => !u.gone)).length then .refuse .noBin
      else .take (.unex h.remote.unexId) false

/-- The outstanding RMA.RD that a READ_RSP answers (R353). [log 138 DEDUCED] -/
def readOf (s : State) (d : Data) : Option TxMsg :=
  match s.txMsg d.seq with
  | none => none
  | some m => if m.op = 3 ∧ m.node = d.snode then some m else none

/-- The target's decision on a first packet; resources come last (R357). [log 32 DEDUCED, 136 DEDUCED] -/
def admission (s : State) (c : Nat) (d : Data) : Admit :=
  let want := match d.op with
    | 2 => admitSend s d
    | 4 => (match readOf s d with | none => .silent | some m => .take (.read d.seq) m.sealed)
    | _ => admitWindow s d
  let k := d.tshelf
  let room := decide (flightUsed s k (c / 32) + (if d.op = 3 then 2 else 1) ≤ flightSlice (s.shelf k) (c / 32)) &&
    (d.op == 3 || d.op == 4 || flowRoom s (c / 32) (d.snode + 1, d.sshelf, 0, d.flow))
  match want with
  | .take (.ring r _) _ => if room && crateRoom s k r d.len then want else .silent
  | .take .none _ => if room then want else .silent
  | .take (.window _) _ => if room then want else .silent
  | .take (.bin _) _ => if room then want else .silent
  | .take (.group _ _) _ => if room then want else .silent
  | .take (.unex _) _ => if room then want else .silent
  | .take (.read _) _ => if room then want else .silent
  | .refuse _ => if room then want else .silent
  | .silent => .silent

/-- The entry that a first packet makes. -/
def rxNew (p : Packet) (d : Data) (t : RxTarget) (sealed : Bool) (now : Nat) : RxMsg :=
  { sshelf := d.sshelf, tshelf := d.tshelf, flow := d.flow, op := d.op, len := d.len, index := d.index, keyTag := d.keyTag, roff := d.roff
    mss := d.mss, prev := d.prev, target := t, sealed := sealed, tag := zeros 16, lastAt := now, cause := p.chan, srcAddr := p.src
    sport := p.sport, flowLabel := p.label, path := d.path, echo := d.time }

/-- Refuse a first packet (R357): the refusal entry answers later packets. RMA_CNT counts a refusal under R380 and one for want of a bin
(R398). -/
def refuseFirst (p : Packet) (d : Data) (st : Status) (s : State) : State :=
  let m := { rxNew p d .none false s.clk with state := .refused, status := st, endAt := s.clk }
  let s := s.onTp (fun t => { t with refusedRx := sat 16 1 t.refusedRx })
  let s := s.onRemote d.tshelf (fun r =>
    if st = .noBin then { r with noBin := sat 16 1 r.noBin } else if d.op = 2 then r else { r with refused := sat 16 1 r.refused })
  sendAck d.key (s.onTp (fun t => { t with rx := tput t.rx d.key m }))

/-- A first packet is not admitted; a shelf that is not defined has no registers that count it. [log 136 DEDUCED] -/
def silentFirst (d : Data) (s : State) : State :=
  let s := match d.op with
    | 1 => (let w := s.win (slotKey d.tshelf d.index); if w.kind = 2 then noteFull d.tshelf w.ring d.len s else s)
    | 2 => (match matchBin s d.tshelf d.keyTag d.len with | some (_, b) => if b.kind = 1 then noteFull d.tshelf b.ring d.len s else s | none => s)
    | _ => s
  let s := s.onTp (fun t => { t with silent := sat 16 1 t.silent })
  if (s.shelf d.tshelf).desc.isNone then s else s.onRemote d.tshelf (fun r => { r with tpsSilent := sat 16 1 r.tpsSilent })

/-! ### Placement (R356, R381) -/

/-- Write bytes into blocks of shelf memory from an offset. -/
def placeBlocks (k : Nat) : List (Nat × Nat) → Nat → Bytes → State → State
  | [], _, _, s => s
  | (a, n) :: r, off, b, s =>
    if n ≤ off then placeBlocks k r (off - n) b s
    else
      let now := b.take (n - off)
      let s := if now.isEmpty then s else vwrite s k (a + off) now
      placeBlocks k r 0 (b.drop now.length) s

/-- Write into the unexpected buffer, which is circular. [log 149 DESIGN CHOICE] -/
def unexWrite (k off : Nat) (b : Bytes) (s : State) : State :=
  let area := unexArea (s.shelf k)
  let o := off % max 1 area.2
  let n := min b.length (area.2 - o)
  let s := vwrite s k (area.1 + o) (b.take n)
  if b.length ≤ n then s else vwrite s k area.1 (b.drop n)

/-- Read n bytes of it, with the status. -/
def unexRead (s : State) (k off n : Nat) : Status × Bytes :=
  let area := unexArea (s.shelf k)
  let o := off % max 1 area.2
  let m := min n (area.2 - o)
  let st := vstat s k (area.1 + o) m
  (if st = .ok then vstat s k area.1 (n - m) else st, vread s k (area.1 + o) m ++ vread s k area.1 (n - m))

/-- The unexpected message with an id. -/
def unexMsg (s : State) (k id : Nat) : Option Unex := (s.shelf k).remote.unex.find? (fun u => u.id == id)

/-- Bytes arrive at an offset of a ring entry: in the tail, and through it in the part of the entry that has spilled to the middle (R91). [log 25 DEDUCED] -/
def placeRing (k r seq off : Nat) (b : Bytes) (s : State) : State :=
  let s := onRing k r (fun x => x.onEntry seq (fun y => { y with data := splice y.data off b })) s
  match (ringOf s k r).bind (fun x => (x.entry seq).map (fun y => (x, y))) with
  | none => s
  | some (x, y) => spillEntry k x y (max off y.head) (min (off + b.length) y.mid) s

/-- Place bytes at an offset of a message's target. [log 158 DESIGN CHOICE] -/
def placeBytes (m : RxMsg) (off : Nat) (b : Bytes) (s : State) : State :=
  let k := m.tshelf
  match m.target with
  | .none => s
  | .window w => vwrite s k ((s.win w).base + m.roff + off) b
  | .ring r seq =>
    match logEntry s k seq with
    | none => s
    | some e =>
      placeRing k r seq off b (clogWrite k (e.offset + 64 + off) b s)
  | .bin i => placeBlocks k (s.bin i).blocks off b s
  | .group _ a => vwrite s k (a + off) b
  | .unex id => (match unexMsg s k id with | none => s | some u => unexWrite k (u.off + 64 + off) b s)
  | .read seq => (match s.txMsg seq with | none => s | some t => placeBlocks t.shelf t.place off b s)

/-- Read the first n bytes of a message's target back. -/
def readBack (s : State) (m : RxMsg) (n : Nat) : Bytes :=
  let go (k : Nat) (l : List (Nat × Nat)) : Bytes := (l.flatMap (fun e => vread s k e.1 e.2)).take n
  match m.target with
  | .window w => vread s m.tshelf ((s.win w).base + m.roff) n
  | .bin i => go m.tshelf (s.bin i).blocks
  | .read seq => (match s.txMsg seq with | none => [] | some t => go t.shelf t.place)
  | .none => [] | .ring _ _ => [] | .group _ _ => [] | .unex _ => []

/-- The requests that intake makes of a packet's placement: the placement itself, and for a crate the write into the crate log (R454). [log 195 DESIGN CHOICE] -/
def stampPlace (m : RxMsg) (n : Nat) (s : State) : State :=
  let s := stampReq m.tshelf n s
  match m.target with
  | .ring _ _ => stampReq m.tshelf n s
  | .none => s | .window _ => s | .bin _ => s | .group _ _ => s | .unex _ => s | .read _ => s

/-- Place one packet: of a sealed message the last 16 bytes are the tag, which the entry holds. -/
def placePacket (key : Nat) (m : RxMsg) (d : Data) (s : State) : State :=
  if m.sealed then
    let n := m.len - 16
    let c := d.body.take (n - d.off)
    let t := d.body.drop (n - d.off)
    let s := placeBytes m d.off c s
    onRx key (fun m => { m with tag := splice m.tag (max d.off n - n) t }) s
  else placeBytes m d.off d.body s

/-! ### Bins, reads and windows end their part of a message -/

/-- A buffer bin completes (R387). -/
def completeBin (i tag len snode sshelf : Nat) (st : Status) (s : State) : State :=
  let b := s.bin i
  let k := i / 65536
  let s : State := { s with bins := tdel s.bins i }
  let s := if b.notifyEn then notifyWord k b.notify 1 s else s
  writeEvent k (evtEntry 2 st sshelf snode (i % 65536) tag len 0 s.epoch) s

/-- Free the group allocation at an address; the bin may have been cancelled since (R387). [log 160 DEDUCED] -/
def groupFree (i a : Nat) (s : State) : State :=
  if tmem s.bins i then s.onBin i (fun b => { b with used := b.used.filter (fun u => b.base + u.1 != a) }) else s

/-- A state code in the header of an unexpected message (R386): 0 arriving, 1 delivered, 2 released. [log 149 DESIGN CHOICE] -/
def unexState (k id code : Nat) (s : State) : State :=
  match unexMsg s k id with
  | none => s
  | some u => unexWrite k (u.off + 32) [BitVec.ofNat 8 code] s

/-- Unexpected messages are reclaimed from the oldest on. -/
def reclaimUnex (k : Nat) (s : State) : State := s.onRemote k (fun r => { r with unex := r.unex.dropWhile (·.gone) })

/-- Release an unexpected message. -/
def unexGone (k id : Nat) (s : State) : State :=
  reclaimUnex k ((unexState k id 2 s).onRemote k (fun r => { r with unex := mapIf (fun u => u.id == id) (fun u => { u with gone := true }) r.unex }))

/-- A delivered unexpected message is copied into the buffer bin or group bin it is bound to (R386, R390). A group bin
without free space lets it wait for another posting; a group message that cannot be read is discarded. [log 146 DESIGN CHOICE, 151 DESIGN CHOICE, 160 DEDUCED] -/
def copyUnex (k : Nat) (u : Unex) (i : Nat) (s : State) : State :=
  let b := s.bin i
  let (st, msg) := unexRead s k (u.off + 64) u.len
  let held := s
  let s := unexGone k u.id s
  if b.kind = 2 then
    if st ≠ .ok then badEnvelope k s else
    match groupPlace b u.len with
    | none => held.onRemote k (fun r => { r with unex := mapIf (fun x => x.id == u.id) (fun x => { x with bin := none }) r.unex })
    | some o =>
      let s := vwrite s k (b.base + o) msg
      let s := s.onBin i (fun b => { b with used := b.used ++ [(o, u.len)] })
      s.onRemote k (fun r => { r with group := r.group ++ [(u.tag, i, b.base + o, u.len)] })
  else if st ≠ .ok then completeBin i u.tag u.len u.snode u.sshelf .uncorrectable s
  else if b.seal_ then
    let n := u.len - 16
    let nonce := tpNonce u.snode (Config.peerSession u.snode).toNat u.msgSeq 2 0
    match rackOpen s k nonce (tpAad 0 k u.sshelf u.len u.tag) (msg.take n) (msg.drop n) with
    | some p => completeBin i u.tag n u.snode u.sshelf .ok (placeBlocks k b.blocks 0 p s)
    | none =>
      let s := placeBlocks k b.blocks 0 (zeros n) s
      completeBin i u.tag n u.snode u.sshelf .remoteFault (s.onRemote k (fun r => { r with sealFail := sat 16 1 r.sealFail }))
  else completeBin i u.tag u.len u.snode u.sshelf .ok (placeBlocks k b.blocks 0 msg s)

/-! ### Sealed messages at completion (R391) -/

/-- A sealed message's tag fails: its range is zeroised and it is refused. -/
def sealFailed (key : Nat) (m : RxMsg) (s : State) : State :=
  let n := m.len - 16
  let s := placeBytes m 0 (zeros n) s
  let s := s.onRemote m.tshelf (fun r => { r with sealFail := sat 16 1 r.sealFail })
  let s := onRx key (fun m => { m with state := .refused, status := .remoteFault, endAt := s.clk }) s
  match m.target with
  | .window w => leaveWindow w s
  | .bin i => completeBin i m.keyTag n (key / 2 ^ 32) m.sshelf .remoteFault s
  | .read seq => endTx seq .remoteFault s
  | .none => s | .ring _ _ => s | .group _ _ => s | .unex _ => s

/-- Verify and decrypt in place: whether the tag holds, and the state. [log 146 DESIGN CHOICE] -/
def openSealed (key : Nat) (m : RxMsg) (s : State) : Bool × State :=
  let n := m.len - 16
  let snode := key / 2 ^ 32
  let keyOrOff := if m.op = 2 then m.keyTag else m.roff
  let nonce := tpNonce snode (Config.peerSession snode).toNat (key % 2 ^ 32) m.op (if m.op = 4 then s.node else 0)
  match rackOpen s m.tshelf nonce (tpAad m.index m.tshelf m.sshelf m.len keyOrOff) (readBack s m n) m.tag with
  | some p => (true, placeBytes m 0 p s)
  | none => (false, sealFailed key m s)

/-! ### Delivery (R363, R381, R385, R389) -/

/-- The message's delivery must write an event. -/
def needsEvent (s : State) (m : RxMsg) : Bool :=
  match m.target with
  | .window w => (s.win w).eventEn
  | .bin _ => true
  | .none => false | .ring _ _ => false | .group _ _ => false | .unex _ => false | .read _ => false

/-- What delivery does at the target. -/
def deliverAt (key : Nat) (m : RxMsg) (s : State) : State :=
  let k := m.tshelf
  let n := if m.sealed then m.len - 16 else m.len
  let snode := key / 2 ^ 32
  match m.target with
  | .none => s
  | .window w =>
    let x := s.win w
    let s := if x.notifyEn then notifyWord k x.notify 1 s else s
    let s := if x.eventEn then writeEvent k (evtEntry 1 .ok m.sshelf snode (w % 65536) m.roff n (s.gen w) s.epoch) s else s
    leaveWindow w s
  | .ring r seq =>
    let s := crateComplete k r seq s
    if m.op = 1 then leaveWindow (slotKey k m.index) s else s
  | .bin i => completeBin i m.keyTag n snode m.sshelf .ok s
  | .group i o => s.onRemote k (fun r => { r with group := r.group ++ [(m.keyTag, i, o, m.len)] })
  | .unex id =>
    let s := (unexState k id 1 s).onRemote k (fun r => { r with unex := mapIf (fun u => u.id == id) (fun u => { u with delivered := true, at_ := s.clk }) r.unex })
    (match unexMsg s k id with
      | none => s
      | some u => match u.bin with | none => s | some i => copyUnex k u i s)
  | .read seq => endTx seq .ok (onTx seq (fun t => { t with placed := n }) s)

/-- The predecessor lets a message be delivered. -/
def predDone (s : State) (key : Nat) (m : RxMsg) : Bool :=
  m.prev == 0 || (match s.rxMsg (rxKey (key / 2 ^ 32) m.prev) with | none => false | some p => p.delivered)

/-- The messages held behind a delivered one. -/
def successors (s : State) (key : Nat) : List Nat :=
  (s.tp.rx.filter (fun e => e.1 / 2 ^ 32 == key / 2 ^ 32 && e.2.prev == key % 2 ^ 32 &&
    (match e.2.state with | .held => true | .placing => false | .linger => false | .refused => false))).map (·.1)

/-- Deliver the complete messages of a list as far as their predecessors and the event ring allow, and then
those held behind them. -/
def tryDeliver : Nat → List Nat → State → State
  | 0, _, s => s
  | _ + 1, [], s => s
  | n + 1, key :: r, s =>
    match s.rxMsg key with
    | none => tryDeliver n r s
    | some m =>
      let heldNow := match m.state with | .held => true | .placing => false | .linger => false | .refused => false
      if heldNow && predDone s key m then
        if needsEvent s m && !evtRoom s m.tshelf then tryDeliver n r (onRx key (fun m => { m with waiting := true }) s)
        else
          let s := deliverAt key m s
          let s := sendAck key (onRx key (fun m => { m with state := .linger, endAt := s.clk, waiting := false }) s)
          tryDeliver n (successors s key ++ r) s
      else tryDeliver n r s

/-- Deliver what can be delivered of a list. -/
def deliverAll (l : List Nat) (s : State) : State := tryDeliver (l.length + 2 * s.tp.rx.length + 1) l s

/-- A message holds every byte: its seal is verified, and it is delivered or held. -/
def messageComplete (key : Nat) (s : State) : State :=
  match s.rxMsg key with
  | none => s
  | some m =>
    let (good, s) := if m.sealed then openSealed key m s else (true, s)
    if good then
      let s := deliverAll [key] (onRx key (fun m => { m with state := .held }) s)
      match s.rxMsg key with
      | none => s
      | some m => if m.delivered then s else sendAck key s
    else sendAck key s

/-! ### A data packet (R356-R358) -/

/-- A packet arrives with CE or without it: each distinct packet that has come with CE counts once in CE_COUNT (R369). -/
def RxMsg.noteCe (m : RxMsg) (ce : Bool) (k : Nat) : RxMsg :=
  if ce && !m.marked.contains k then { m with ce := m.ce + 1, marked := insSet k m.marked } else m

/-- A new packet of a message in PLACING. [log 135 DEDUCED] -/
def takePacket (key : Nat) (m : RxMsg) (d : Data) (s : State) : State :=
  let s := placePacket key m d (stampPlace m d.body.length s)
  let s := onRx key (fun m => { m with packets := insSet d.packet m.packets }) s
  let s := match m.target with
    | .read seq => onTx seq (fun t => { t with tries := 0, timer := s.clk, acked := [0], placed := t.placed + d.body.length }) s
    | .none => s | .window _ => s | .ring _ _ => s | .bin _ => s | .group _ _ => s | .unex _ => s
  if m.packets.length + 1 = m.total then messageComplete key s
  else if nbit d.flags 1 ∨ nbit d.flags 2 ∨ d.packet + 1 = m.total then sendAck key s
  else
    let s := onRx key (fun m => { m with sinceAck := m.sinceAck + 1, firstAt := if m.sinceAck = 0 then s.clk else m.firstAt }) s
    if m.sinceAck + 1 = bits s.tpTimer 15 12 then sendAck key s else s

/-- A packet of a message that has an entry. -/
def laterPacket (key : Nat) (m : RxMsg) (p : Packet) (d : Data) (s : State) : State :=
  if m.len ≠ d.len ∨ m.op ≠ d.op ∨ m.index ≠ d.index ∨ m.keyTag ≠ d.keyTag ∨ m.roff ≠ d.roff ∨ m.tshelf ≠ d.tshelf then badHdr s
  else
    let s := onRx key (fun m => { m with
      prev := d.prev, lastAt := s.clk, cause := p.chan, srcAddr := p.src, sport := p.sport, flowLabel := p.label, path := d.path, echo := d.time }) s
    let mark (s : State) : State := onRx key (fun m => m.noteCe p.ce d.packet) s
    let dup (s : State) : State := (mark s).onTp (fun t => { t with duplicate := sat 16 1 t.duplicate })
    match m.state with
    | .refused => sendAck key s
    | .linger => if m.op = 3 then s else sendAck key (dup s)
    | .held => sendAck key (deliverAll [key] (dup s))
    | .placing =>
      if m.cum + 257 ≤ d.packet then s.onTp (fun t => { t with outOfWindow := sat 16 1 t.outOfWindow })
      else if m.packets.contains d.packet then sendAck key (dup s)
      else takePacket key m d (mark s)

/-- The resources that an admitted message takes at its target. [log 149 DESIGN CHOICE] -/
def takeTarget (d : Data) (t : RxTarget) (s : State) : RxTarget × State :=
  let k := d.tshelf
  let enterWin (w : Nat) (s : State) : State := s.onWin w (fun x => { x with inflight := x.inflight + 1 })
  match t with
  | .window w => (t, enterWin w s)
  | .ring r _ =>
    let seq := (s.shelf k).intake.nextSeq
    let s := logAlloc k r d.len s
    let s := ringFlow k r (onRing k r (fun x => x.alloc d.len seq) s)
    (.ring r seq, if d.op = 1 then enterWin (slotKey k d.index) s else s)
  | .bin i => (t, s.onBin i (fun b => { b with state := .bound }))
  | .group i a => (t, s.onBin i (fun b => { b with used := b.used ++ [(a - b.base, d.len)] }))
  | .unex id =>
    let r := (s.shelf k).remote
    let area := unexArea (s.shelf k)
    let u : Unex := { id := id, off := r.unexHead, len := d.len, snode := d.snode, sshelf := d.sshelf, tag := d.keyTag, msgSeq := d.seq }
    let head := toBe 2 d.flow ++ toBe 2 d.snode ++ toBe 4 d.seq ++ toBe 4 d.len ++ toBe 1 d.sshelf ++ toBe 1 d.tshelf ++ zeros 2 ++ toBe 8 d.keyTag ++ toLe 8 s.epoch
    let s := unexWrite k r.unexHead (head ++ zeros (64 - head.length)) s
    (t, s.onRemote k (fun r => { r with unexId := r.unexId + 1, unexHead := (r.unexHead + unexLen d.len) % max 1 area.2, unex := r.unex ++ [u] }))
  | .none => (t, s) | .read _ => (t, s)

/-- An admitted READ_REQ is delivered at once and answered by a read response (R382). [log 135 DEDUCED, 136 DEDUCED, 137 DESIGN CHOICE, 159 DESIGN CHOICE] -/
def answerRead (p : Packet) (d : Data) (w : Nat) (s : State) : State :=
  let x := s.win w
  let k := d.tshelf
  let m := { rxNew p d (.window w) false s.clk with state := .linger, endAt := s.clk, packets := [0] }
  let s := s.onTp (fun t => { t with rx := tput t.rx d.key m })
  let s := s.onWin w (fun x => { x with inflight := x.inflight + 1 })
  let a := x.base + d.roff
  let n := d.len - 16
  let fail (s : State) : State := leaveWindow w s
  let go (src : TxSource) (s : State) : State :=
    let t : TxMsg := { shelf := k, use := .response k w, op := 4, flow := d.flow, len := d.len, source := src, roff := d.roff, tshelf := d.sshelf
                       node := d.snode, addr := p.src, chan := p.chan, alt := p.chan, sealed := x.sealedOnly, order := s.tp.order + 1, timer := s.clk }
    s.onTp (fun tp => { tp with order := tp.order + 1, tx := tput tp.tx (respKey d.snode d.seq) t })
  if x.sealedOnly then
    if vstat s k a n ≠ .ok then fail (noteRead k a n s)
    else match bindCur s s.rackSlot (rackUse k) with
      | .error _ => fail s
      | .ok key =>
        let (c, tag) := gcmSeal key.key (tpNonce s.node s.session d.seq 4 d.snode) (tpAad 0 d.sshelf k d.len d.roff) (vread s k a n)
        go (.held (c ++ tag)) s
  else go (.blocks [(a, d.len)]) s

/-- The first packet of a message (R356, R357). [log 136 DEDUCED] -/
def firstPacket (p : Packet) (d : Data) (s : State) : State :=
  match admission s p.chan d with
  | .silent => silentFirst d s
  | .refuse st => refuseFirst p d st s
  | .take t sealed =>
    if d.op = 3 then (match t with
      | .window w => answerRead p d w s
      | .none => s | .ring _ _ => s | .bin _ => s | .group _ _ => s | .unex _ => s | .read _ => s)
    else
      let (t, s) := takeTarget d t s
      let m := rxNew p d t sealed s.clk
      let s := s.onTp (fun tp => { tp with rx := tput tp.rx d.key m })
      if 257 ≤ d.packet then s.onTp (fun t => { t with outOfWindow := sat 16 1 t.outOfWindow }) else takePacket d.key m d (onRx d.key (fun m => m.noteCe p.ce d.packet) s)

/-- A data packet is received. [log 138 DEDUCED] -/
def dataReceive (p : Packet) (s : State) : State :=
  if !dataOk p.bytes then badHdr s
  else
    let d := parseData p.bytes
    match s.rxMsg d.key with
    | some m =>
      let placing : Bool := match m.state with | .placing => true | .held => false | .linger => false | .refused => false
      if d.op == 4 && placing && (readOf s d).isNone then badHdr s else laterPacket d.key m p d s
    | none => if d.op = 4 ∧ (readOf s d).isNone then badHdr s else firstPacket p d s

/-- DATA_PACKET_RECEIVE (R357): the frame carries a packet that is no acknowledgement and no pace packet. [log 158 DESIGN CHOICE] -/
def execDataPacketReceive (chan : Nat) (fcs : Bool) (f : Bytes) (s : State) : Out :=
  .next (match basdoOf s chan fcs f with
    | none => s
    | some p => if field p.bytes 0 1 = 0x12 ∨ field p.bytes 0 1 = 0x13 then s else dataReceive p s)

/-! ### Timers at the receiver (R358, R366) -/

/-- ACK_DELAY_EXPIRY (R358). -/
def execAckDelayExpiry (snode seq : Nat) (s : State) : Out :=
  .next (match s.rxMsg (rxKey snode seq) with
    | none => s
    | some m =>
      match m.state with
      | .placing => if m.sinceAck = 0 then s else sendAck (rxKey snode seq) (advanceClk (m.firstAt + bits s.tpTimer 43 32) s)
      | .held => s | .linger => s | .refused => s)

/-- LINGER_EXPIRY (R366): LINGER_MS after delivery or refusal the entry is released. -/
def execLingerExpiry (snode seq : Nat) (s : State) : Out :=
  .next (match s.rxMsg (rxKey snode seq) with
    | none => s
    | some m =>
      if m.delivered || m.isRefused then
        let s := advanceClk (m.endAt + bits s.tpTimer 23 16 * 1_000_000) s
        s.onTp (fun t => { t with rx := tdel t.rx (rxKey snode seq) })
      else s)

/-- A receive entry ends before its message is complete: what it held at the target is given back (R93, R383). [log 152 DESIGN CHOICE] -/
def dropTarget (m : RxMsg) (s : State) : State :=
  match m.target with
  | .window w => leaveWindow w s
  | .ring r seq =>
    let s := crateAbandon m.tshelf r seq s
    if m.op = 1 then leaveWindow (slotKey m.tshelf m.index) s else s
  | .bin i => s.onBin i (fun b => match b.state with | .bound => { b with state := .posted } | .free => b | .posted => b)
  | .group i o => groupFree i o s
  | .unex id =>
    (match unexMsg s m.tshelf id with
      | none => s
      | some u =>
        let s := match u.bin with | none => s | some i => s.onBin i (fun b => if b.kind = 0 then { b with state := .posted } else b)
        unexGone m.tshelf id s)
  | .none => s | .read _ => s

/-- RECEIVE_ABANDON (R366). -/
def execReceiveAbandon (snode seq : Nat) (s : State) : Out :=
  .next (match s.rxMsg (rxKey snode seq) with
    | none => s
    | some m =>
      match m.state with
      | .placing =>
        let s := advanceClk (m.lastAt + bits s.tpTimer 31 24 * 1_000_000) s
        let s := s.onTp (fun t => { t with rx := tdel t.rx (rxKey snode seq), abandoned := sat 16 1 t.abandoned })
        dropTarget m s
      | .held => s | .linger => s | .refused => s)

end Sys2Proof.Machine
end

