-- ==== Sys2Proof/Machine/RemoteCmd.lean ====
section
/-!
DEFINITION. Remote access as commanded (14_remote_access.md): RMA.WR, RMA.RD, TSEND and POSTRECV (R376, R382,
R384, R386, R390, R392), the window and bin registers (R379, R383, R387, R398), ageing (R386), and the event
ring's TAIL (R389).
-/
namespace Sys2Proof.Machine

/-! ### Fabric commands (R336 block N) -/

def nDest (d : Bytes) : Nat := field d 8 2
def nFlow (d : Bytes) : Nat := field d 0xA 2
def nIndex (d : Bytes) : Nat := field d 0xC 2
def nFlags (d : Bytes) : Nat := field d 0xE 2
def nKey (d : Bytes) : Nat := field d 0x10 8
def nOff (d : Bytes) : Nat := field d 0x18 8

/-- V0 names bytes of the shelf's open memory, 8-byte aligned (R333, R334). -/
def fabricOk (s : State) (k : Nat) (d : Bytes) : Bool :=
  let v := v0 d
  imgClean (slice d 0x20 0x20) && !v.rsrc && v.off == 0 && v.ring == 0 && etypeKnown v.etype.toNat && v.etype.toNat != 0x0B &&
  v.blocks.all (fun b => operandOk s k b.1 b.2 8)

/-- The byte length of V0. -/
def fabricLen (d : Bytes) : Nat := blocksLen (v0 d).blocks

/-- SEAL of FFLAGS. -/
def nSeal (d : Bytes) : Bool := nbit (nFlags d) 0

/-- The rack-group key is available for a sealed message (R390). -/
def sealUsable (s : State) (k : Nat) : Bool :=
  s.rackEn && (match bindCur s s.rackSlot (rackUse k) with | .ok _ => true | .error _ => false)

/-- The checks at issue of RMA.WR, RMA.RD and TSEND (R352, R376, R382, R390, R392). [log 153 DEDUCED] -/
def sendCheck (op k : Nat) (d : Bytes) (s : State) : Option Status :=
  let h := s.shelf k
  let n := fabricLen d + (if nSeal d then 16 else 0)
  if !((s.dest (nDest d)).usable k) || !fabricOk s k d || !decide (n ≤ 2 ^ 30) || !decide (nFlags d < 2) || (op == 3 && fabricLen d == 0) ||
      (op != 3 && h.conf && unmasked h && !nSeal d) then some .paramUnsupported
  else if nSeal d && !sealUsable s k then some .deniedAttribute
  else none

/-- The message that a command makes: `use` names the command. -/
def sendMsg (op k : Nat) (use : TxUse) (d : Bytes) (s : State) : TxMsg :=
  let i := nDest d
  let n := fabricLen d + (if nSeal d then 16 else 0)
  let m : TxMsg :=
    { shelf := k, use := use, op := op, flow := nFlow d, len := n, source := .blocks (if op = 3 then [] else (v0 d).blocks)
      index := if op = 2 then 0 else nIndex d, keyTag := nKey d, roff := if op = 2 then 0 else nOff d, sealed := nSeal d
      place := if op = 3 then (v0 d).blocks else [] }
  m.toDest i (s.dest i)

/-- Seal a message for the MSG_SEQ that it is about to take: ciphertext and tag (R390). [log 149 DESIGN CHOICE] -/
def sealMsg (m : TxMsg) (plain : Bytes) (s : State) : TxMsg :=
  match bindCur s s.rackSlot (rackUse m.shelf) with
  | .error _ => m
  | .ok half =>
    let (c, t) := gcmSeal half.key (tpNonce s.node s.session (nextSeqNo s.tp.seq) m.op 0)
      (tpAad m.index m.tshelf m.shelf m.len (if m.op = 2 then m.keyTag else m.roff)) plain
    { m with source := .held (c ++ t) }

/-- An accepted RMA.WR, RMA.RD or TSEND becomes a message. A sealed source is read at once; one that cannot be read
completes the command (R361). [log 149 DESIGN CHOICE] -/
def sendRun (op q n : Nat) (k : Nat) (d : Bytes) (s : State) : Answer :=
  match sendCheck op k d s with
  | some st => (some st, 0, s)
  | none =>
    let u := s.queue q n
    let m := sendMsg op k (.command q n (u.counted + u.inflight.length - 1)) d s
    if op ≠ 3 ∧ m.sealed then
      let st := blocksStat s k (v0 d).blocks
      let s := noteBlocks k (v0 d).blocks s
      if st = .ok then (none, 0, enter (sealMsg m (blocksRead s k (v0 d).blocks).flatten s) s)
      else (some st, 0, s)
    else (none, 0, enter m s)

/-- A command waits for a flight entry at the stop of its destination's channel (R365). -/
def flightFull (s : State) (k : Nat) (d : Bytes) : Bool :=
  let x := s.dest (nDest d)
  x.usable k && decide (flightSlice (s.shelf k) (x.chan / 32) ≤ flightUsed s k (x.chan / 32))

/-- Acceptance of a sending command. -/
def sendAccept (kind op q n : Nat) (s : State) : State :=
  if flightFull s ((shelfOf s (q / 4)).getD 0) (headDesc s q n) then s else accept kind (sendRun op q n) q n s

/-- RMA_WR (R381). -/
def execRmaWr (q n : Nat) (s : State) : Out := .next (sendAccept 0x30 1 q n s)

/-- RMA_RD (R382). -/
def execRmaRd (q n : Nat) (s : State) : Out := .next (sendAccept 0x31 3 q n s)

/-- TSEND (R385). -/
def execTsend (q n : Nat) (s : State) : Out := .next (sendAccept 0x32 2 q n s)

/-- TP_STATUS.FLIGHT_FULL: a command at the head of a fabric queue waits for a flight entry. -/
def anyFlightFull (s : State) : Bool :=
  s.queues.any (fun e =>
    let q := e.1 / 16
    let n := e.1 % 16
    (presents s q n 0x30 || presents s q n 0x31 || presents s q n 0x32) && flightFull s ((shelfOf s (q / 4)).getD 0) (headDesc s q n))

/-! ### POSTRECV (R384, R386) -/

/-- The bin that POSTRECV posts. -/
def postedBin (d : Bytes) (order : Nat) : Bin :=
  let f := nFlags d
  let v := v0 d
  let kind := nbits f 1 0
  { state := .posted, kind := kind, tag := nKey d, mask := nOff d, seal_ := nbit f 3, notifyEn := nbit f 2, notify := nbits f 15 8, order := order
    ring := v.ring.toNat, blocks := if kind = 0 then v.blocks else [], base := v.base.toNat, size := if kind = 2 then fabricLen d else 0 }

/-- The checks of R384. -/
def postCheck (k : Nat) (d : Bytes) (s : State) : Bool :=
  let h := s.shelf k
  let f := nFlags d
  let v := v0 d
  let clean := imgClean (slice d 0x20 0x20)
  decide (nIndex d < binSlice h) && (match (s.bin (slotKey k (nIndex d))).state with | .free => true | .posted => false | .bound => false) &&
  nbits f 7 4 == 0 && (!nbit f 2 || bit (h.reg rNotifyCfg) 0) &&
  (match nbits f 1 0 with
    | 0 => fabricOk s k d && fabricLen d != 0
    | 1 => !nbit f 3 && clean && v.rsrc && v.rowsN == 1 && v.stride == 0 && v.etype.toNat != 0x0B && (ringOf s k v.ring.toNat).isSome && v.base == 0 && v.len == 0 && v.off == 0
    | 2 => !nbit f 3 && fabricOk s k d && v.rowsN == 1 && v.base.toNat % 0x10000 == 0 && inCellar h v.base.toNat (fabricLen d) && decide (0x10_0000 ≤ fabricLen d)
    | _ => false)

/-- The first unexpected message in admission order that a posted bin matches and that no bin has. [log 150 DEDUCED] -/
def unexFor (s : State) (k : Nat) (b : Bin) : Option Unex :=
  (s.shelf k).remote.unex.find? (fun u => !u.gone && u.bin.isNone && b.takes u.tag u.len)

/-- A posted buffer or group bin takes the first unexpected message that matches (R386). [log 150 DEDUCED] -/
def bindUnex (k i : Nat) (s : State) : State :=
  match unexFor s k (s.bin i) with
  | none => s
  | some u =>
    let s := s.onBin i (fun b => if b.kind = 0 then { b with state := .bound } else b)
    if u.delivered then copyUnex k u i s
    else s.onRemote k (fun r => { r with unex := mapIf (fun x => x.id == u.id) (fun x => { x with bin := some i }) r.unex })

/-- POSTRECV (R384). -/
def postRun (k : Nat) (d : Bytes) (s : State) : Answer :=
  if postCheck k d s then
    let i := slotKey k (nIndex d)
    let s := s.onRemote k (fun r => { r with postOrder := r.postOrder + 1 })
    let s := s.onBin i (fun _ => postedBin d (s.shelf k).remote.postOrder)
    done .ok (if nbits (nFlags d) 1 0 = 1 then s else bindUnex k i s)
  else refuse s

def execPostrecv (q n : Nat) (s : State) : Out := .next (accept 0x33 postRun q n s)

/-! ### Windows (R378, R379, R383, R398) -/

/-- RESULT of a window command. -/
def winDone (k : Nat) (st : Status) (s : State) : State := s.onRemote k (fun r => { r with winResult := st.code })

/-- STATE codes of a window. -/
def WinState.code : WinState → Nat | .free => 0 | .open_ => 1 | .draining => 2

/-- Copy a window's state, count and GEN into WIN_INFO, and complete OK. [log 154 DEDUCED] -/
def winInfo (k i : Nat) (s : State) : State :=
  let w := s.win (slotKey k i)
  winDone k .ok (s.onRemote k (fun r => { r with winState := w.state.code, winInflight := min w.inflight (2 ^ 14 - 1), winGen := s.gen (slotKey k i) }))

/-- The window that a descriptor describes. -/
def parseWin (b : Bytes) : Window :=
  { state := .open_, kind := field b 6 1, attr := field b 7 1, base := field b 8 8, len := field b 0x10 8, key32 := field b 0x18 4
    ring := field b 0x1C 1, notify := field b 0x1D 1, allow := field b 0x1E 2 }

/-- The event ring of a shelf. [log 154 DEDUCED] -/
def evtRange (h : Shelf) : Nat × Nat := if bit h.evtCfg 0 then (bits h.evtCfg 47 12 * 4096, evtSize h * 32) else (0, 0)

/-- The checks of R379 on a descriptor. [log 154 DEDUCED] -/
def winOk (s : State) (k : Nat) (b : Bytes) : Bool :=
  let h := s.shelf k
  let w := parseWin b
  field b 0 4 == 0x4E49574B && field b 4 2 == 1 && (w.kind == 1 || w.kind == 2) && (w.canWrite || w.canRead) && decide (w.attr < 32) && zeroAt b 0x20 32 &&
  (if w.kind = 1 then
    w.ring == 0 && w.base % 64 == 0 && w.len % 64 == 0 && decide (64 ≤ w.len) && decide (w.len ≤ 2 ^ 40) && openRange s k w.base w.len &&
    !overlap w.base w.len (evtRange h).1 (evtRange h).2
   else (ringOf s k w.ring).isSome && !w.canRead && !w.sealedOnly && w.base == 0 && w.len == 0) &&
  (!w.notifyEn || bit (h.reg rNotifyCfg) 0) && (!w.eventEn || bit h.evtCfg 0)

/-- The window is FREE. -/
def Window.isFree (w : Window) : Bool := match w.state with | .free => true | .open_ => false | .draining => false
def Window.isOpen (w : Window) : Bool := match w.state with | .open_ => true | .free => false | .draining => false

/-- WIN_CMD OP 0b01 (R379, R593). [log 155 DEDUCED] -/
def winRegister (k i addr : Nat) (s : State) : State :=
  let h := s.shelf k
  if !decide (i < winSlice h) || !(s.win (slotKey k i)).isFree || !inShelf h addr 64 then winDone k .paramUnsupported s
  else
    let st := vstat s k addr 64
    let s := noteRead k addr 64 s
    let b := vread s k addr 64
    if st ≠ .ok then winDone k st s
    else if winOk s k b then winInfo k i (s.onWin (slotKey k i) (fun _ => parseWin b))
    else winDone k .paramUnsupported s

/-- Revoke window i of shelf k (R383). -/
def winRevoke (k i : Nat) (s : State) : State :=
  let w := slotKey k i
  let s : State := { s with gens := tput s.gens w ((s.gen w + 1) % 2 ^ 32) }
  tryFree w (s.onWin w (fun x => { x with state := .draining }))

/-- WIN_CMD OP 0b10. -/
def winRevokeCmd (k i : Nat) (s : State) : State :=
  if decide (i < winSlice (s.shelf k)) && (s.win (slotKey k i)).isOpen then winInfo k i (winRevoke k i s) else winDone k .paramUnsupported s

/-- WIN_CMD OP 0b11. -/
def winQuery (k i : Nat) (s : State) : State := if i < winSlice (s.shelf k) then winInfo k i s else winDone k .paramUnsupported s

/-- A write of WIN_CMD. [log 30 DESIGN CHOICE, 154 DEDUCED] -/
def winCmdWrite (k : Nat) (v : Word) (s : State) : State :=
  let s := s.setReg k rWinCmd (v &&& 0xFFFF_FFFF_FFC0_0000)
  let i := bits ((s.shelf k).reg rWinInfo) 15 0
  match bits v 1 0 with
  | 1 => winRegister k i (bits v 63 22 * 64) s
  | 2 => winRevokeCmd k i s
  | 3 => winQuery k i s
  | _ => s

/-- WIN_REGISTER (R379): WIN_CMD is written with OP 0b01 and the descriptor's address. -/
def execWinRegister (k : Nat) (addr : BitVec 42) (s : State) : Out := .next (winCmdWrite k (addr ++ (1 : BitVec 22)) s)

/-- WIN_REVOKE (R383). -/
def execWinRevoke (k : Nat) (addr : BitVec 42) (s : State) : Out := .next (winCmdWrite k (addr ++ (2 : BitVec 22)) s)

/-- WIN_QUERY (R398). -/
def execWinQuery (k : Nat) (addr : BitVec 42) (s : State) : Out := .next (winCmdWrite k (addr ++ (3 : BitVec 22)) s)

/-! ### Bins (R387, R398) -/

/-- RESULT of a bin command. -/
def binDone (k : Nat) (st : Status) (s : State) : State := s.onRemote k (fun r => { r with binResult := st.code })

/-- STATE codes of a bin. -/
def BinState.code : BinState → Nat | .free => 0 | .posted => 1 | .bound => 2

/-- A POSTED bin becomes FREE with a CANCELLED event. An unexpected message that was to be copied into it waits for another posting. -/
def binFree (k i : Nat) (s : State) : State :=
  let s : State := { s with bins := tdel s.bins (slotKey k i) }
  let s := s.onRemote k (fun r => { r with unex := mapIf (fun u => u.bin == some (slotKey k i)) (fun u => { u with bin := none }) r.unex })
  writeEvent k (evtEntry 5 .ok 0 0 i 0 0 0 s.epoch) s

/-- BIN_CMD OP 0b01. [log 160 DEDUCED] -/
def binCancel (k i : Nat) (s : State) : State :=
  if decide (i < binSlice (s.shelf k)) && (s.bin (slotKey k i)).posted then binDone k .ok (binFree k i s) else binDone k .paramUnsupported s

/-- BIN_CMD OP 0b11. -/
def binQuery (k i : Nat) (s : State) : State :=
  if i < binSlice (s.shelf k) then binDone k .ok (s.onRemote k (fun r => { r with binState := (s.bin (slotKey k i)).state.code })) else binDone k .paramUnsupported s

/-- A write of BIN_CMD. [log 30 DESIGN CHOICE] -/
def binCmdWrite (k : Nat) (v : Word) (s : State) : State :=
  let s := s.setReg k rBinCmd (v &&& 0xFFFF_0000_0000)
  let i := bits v 47 32
  match bits v 1 0 with
  | 1 => binCancel k i s
  | 3 => binQuery k i s
  | _ => s

/-- BIN_CANCEL (R387): BIN_CMD is written with OP 0b01 and INDEX. -/
def execBinCancel (k : Nat) (i : BitVec 16) (s : State) : Out := .next (binCmdWrite k ((0 : BitVec 16) ++ i ++ (1 : BitVec 32)) s)

/-- BIN_QUERY (R398). -/
def execBinQuery (k : Nat) (i : BitVec 16) (s : State) : Out := .next (binCmdWrite k ((0 : BitVec 16) ++ i ++ (3 : BitVec 32)) s)

/-! ### Ageing (R386) -/

/-- AGE_MS of UNEX_STATUS. -/
def ageMs (h : Shelf) : Nat := bits (h.reg rUnexStatus) 63 52

/-- An unexpected message that has waited AGE_MS is discarded with its event, or waits for the event's space (R386, R389). -/
def ageUnex (k : Nat) (u : Unex) (s : State) : State :=
  if evtRoom s k then
    let s := writeEvent k (evtEntry 4 .ok u.sshelf u.snode 0 u.tag u.len 0 s.epoch) s
    (unexGone k u.id s).onRemote k (fun r => { r with unexAged := sat 16 1 r.unexAged })
  else s.onRemote k (fun r => { r with unex := mapIf (fun x => x.id == u.id) (fun x => { x with aged := true }) r.unex })

/-- UNEXPECTED_AGE_EXPIRY (R386): the unexpected message of shelf k with this id has waited AGE_MS. The discard waits
while its event has no space (R389). [log 153 DEDUCED] -/
def execUnexpectedAgeExpiry (k id : Nat) (s : State) : Out :=
  .next (match unexMsg s k id with
    | none => s
    | some u =>
      if u.delivered && u.bin.isNone && !u.gone && ageMs (s.shelf k) != 0 then
        ageUnex k u (advanceClk (u.at_ + ageMs (s.shelf k) * 1_000_000) s)
      else s)

/-! ### The event ring (R389) -/

/-- Deliveries of shelf k that wait for event space. -/
def waitingRx (s : State) (k : Nat) : List Nat := (s.tp.rx.filter (fun e => e.2.tshelf == k && e.2.waiting)).map (·.1)

/-- Windows of shelf k that are DRAINING. -/
def drainingWins (s : State) (k : Nat) : List Nat :=
  (s.windows.filter (fun e => e.1 / 65536 == k && (match e.2.state with | .draining => true | .free => false | .open_ => false))).map (·.1)

/-- Unexpected messages whose ageing waits for event space. -/
def waitingUnex (s : State) (k : Nat) : List Unex := (s.shelf k).remote.unex.filter (fun u => u.aged && !u.gone && u.bin.isNone)

/-- Something of shelf k waits for event space (EVT_PTR.FULL_WAIT, R389): an event, a delivery, a window that would be FREE, an ageing. -/
def evtWaits (s : State) (k : Nat) : Bool :=
  !(s.shelf k).remote.evtQueue.isEmpty || !(waitingRx s k).isEmpty || (drainingWins s k).any (fun w => (s.win w).inflight == 0) ||
  !(waitingUnex s k).isEmpty

/-- What waited for event space goes on. -/
def evtSpace (k : Nat) (s : State) : State :=
  let s := if bit (s.shelf k).evtCfg 0 then flushEvents (s.shelf k).remote.evtQueue.length k s else s
  let s := deliverAll (waitingRx s k) s
  let s := (drainingWins s k).foldl (fun s w => tryFree w s) s
  (waitingUnex s k).foldl (fun s u => ageUnex k u s) s

/-- A write of EVT_PTR: TAIL. -/
def evtTailWrite (k : Nat) (v : Word) (s : State) : State := evtSpace k (s.onRemote k (fun r => { r with evtTail := bits v 47 32 }))

/-- EVT_TAIL_WRITE (R389). -/
def execEvtTailWrite (k : Nat) (v : Word) (s : State) : Out := .next (evtTailWrite k v s)

/-- A write of EVT_CFG. [log 156 DESIGN CHOICE, 161 DEDUCED, 263 DEDUCED] -/
def evtCfgWrite (k : Nat) (v : Word) (s : State) : State :=
  if 6 ≤ bits v 5 2 ∧ bits v 5 2 ≤ 12 then evtSpace k (s.setReg k rEvtCfg (v &&& 0xFFFF_FFFF_F03F)) else s

/-! ### Transport configuration (R367, R374, R376) -/

/-- The fields of TP_TIMER lie in their ranges. -/
def timerOk (v : Word) : Bool :=
  let rtoB := bits v 7 0
  let lim := bits v 11 8
  decide (2 ≤ rtoB) && decide (rtoB ≤ 200) && decide (1 ≤ lim) && decide (lim ≤ 12) && decide (1 ≤ bits v 15 12) && decide (1 ≤ bits v 31 24) &&
  decide (100 ≤ bits v 43 32) && decide (8 ≤ bits v 51 44) && decide (rtoB * (2 ^ (lim + 1) - 1) + 1000 ≤ bits v 23 16 * 1000)

/-- The fields of TP_RATE lie in their ranges. -/
def rateOk (v : Word) : Bool :=
  decide (1 ≤ bits v 19 10) && decide (1 ≤ bits v 31 28) && decide (bits v 31 28 ≤ 10) && decide (1 ≤ bits v 39 32)

/-- TP_STATUS.CFG_ERR. -/
def tpCfgErr (s : State) : State := s.onTp (fun t => { t with cfgErr := true })

/-- A write of TP_TIMER. [log 155 DEDUCED] -/
def tpTimerWrite (v : Word) (s : State) : State := if timerOk v then s.setDreg (tpBase + 0x10) (v &&& 0xF_FFFF_FFFF_FFFF) else tpCfgErr s

/-- A write of TP_RATE. [log 155 DEDUCED] -/
def tpRateWrite (v : Word) (s : State) : State := if rateOk v then s.setDreg (tpBase + 0x18) (v &&& 0xFFF_FFFF_FFFF) else tpCfgErr s

/-- TP_TIMER_WRITE (R367). -/
def execTpTimerWrite (v : Word) (s : State) : Out := .next (tpTimerWrite v s)

/-- TP_RATE_WRITE (R367). -/
def execTpRateWrite (v : Word) (s : State) : Out := .next (tpRateWrite v s)

/-- A write of DEST_CFG(i): a VALID entry with a channel of a port in reset, or with CHAN and ALT at different stops, is
ignored and sets ERR. PATHS_M1 names at most 8 paths. -/
def destCfgWrite (i : Nat) (v : Word) (s : State) : State :=
  let a := destBase i + 0x10
  let old := s.dreg a
  let chan := bits v 13 8
  let alt := bits v 21 16
  let bad := bit v 0 && (chan / 32 != alt / 32 || (s.dev.card && (decide (32 ≤ chan) || decide (32 ≤ alt))))
  let err : Word := if bit v 7 then 0 else old &&& 0x80
  if bad then s.setDreg a (old ||| 0x80) else s.setDreg a ((v &&& 0xFFFF_FF3F_3F7F) ||| err)

/-- DEST_CFG_WRITE (R376). -/
def execDestCfgWrite (i : BitVec 12) (v : Word) (s : State) : Out := .next (destCfgWrite i.toNat v s)

end Sys2Proof.Machine
end

