-- ==== Sys2Proof/Machine/Image.lean ====
section
/-!
DEFINITION. Images of state in memory: sequencers (R319), Casks with their Kegs (R142-R144), and round programs (R320), as context
saves and waypoints write and read them.
-/
namespace Sys2Proof.Machine

/-! ### Sequencers (R319) -/

/-- The 896-byte state image of a sequencer. -/
def seqImage (x : Seq) : Bytes :=
  (List.range 32).flatMap (fun i => toLe 8 (x.gr (BitVec.ofNat 5 i)).toNat) ++
  (List.range 16).flatMap (fun i => imgBytes (x.dr (BitVec.ofNat 5 i))) ++
  toLe 8 x.pc ++ toLe 8 x.p.toNat ++ toLe 8 (b2n x.hmode) ++ toLe 8 x.epc.toNat ++ toLe 8 x.ecause.toNat ++ toLe 8 x.eaddr.toNat ++
  toLe 8 x.evec.toNat ++ (List.range 4).flatMap (fun i => toLe 8 (tget 0 x.scratch i).toNat) ++ zeros 40

/-- The word at an offset. -/
def wordAt (b : Bytes) (off : Nat) : Word := BitVec.ofNat 64 (field b off 8)

/-- The sequencer that an image holds, idle. -/
def seqOfImage (b : Bytes) : Seq :=
  { g := ((List.range 32).filter (fun i => i != 0 && field b (8 * i) 8 != 0)).map (fun i => (i, wordAt b (8 * i)))
    d := (List.range 16).map (fun i => (i, imgParse (slice b (0x100 + 32 * i) 32)))
    pc := field b 0x300 8, p := BitVec.ofNat 8 (field b 0x308 1), hmode := nbit (field b 0x310 8) 0
    epc := wordAt b 0x318, ecause := wordAt b 0x320, eaddr := wordAt b 0x328, evec := wordAt b 0x330
    scratch := (List.range 4).map (fun i => (i, wordAt b (0x338 + 8 * i))) }

/-! ### Casks (R143) -/

/-- Bytes of one Cask word. -/
def Cask.wordBytes (c : Cask) : Nat := c.width / 8

/-- Bytes of the row-state bitmap. -/
def Cask.stateLen (c : Cask) : Nat := (c.rows + 255) / 256 * 64

/-- Bytes of a Cask's image. -/
def Cask.imageLen (c : Cask) : Nat := 64 + c.stateLen + c.rows * 256 + c.kegAt.2

/-- A Cask of bay b with the stored words of every fresh row (R142). [log 42 DEDUCED] -/
def withOld (s : State) (b : Nat) (c : Cask) : Cask :=
  { c with old := (List.range (c.rows * rowElems c.op)).foldl (fun t e =>
      if c.live.contains (c.rowOf e) || tmem t e then t
      else tput t e (leNat (memRead s.mem (storeAddr b (c.areaAt.1 + e * c.wordBytes)) c.wordBytes))) c.old }

/-- The word that row storage holds for element e. [log 42 DEDUCED] -/
def Cask.stored (c : Cask) (e : Nat) : Nat := if c.live.contains (c.rowOf e) then c.word e else tget 0 c.old e

/-- A save reads every row of the enabled Casks of shelf k's bays and of their Kegs (R126, R138, R142). [log 42 DEDUCED] -/
def readCasks (k : Nat) (s : State) : State :=
  (s.shelf k).bays.foldl (fun s b => (s.bay b).casks.foldl (fun s e =>
    if e.2.en then readKeg b e.1 (List.range (e.2.kegAt.2 / 512)) (readCask b e.1 e.2.live s) else s) s) s

/-- A row's two state bits. -/
def Cask.rowState (c : Cask) (r : Nat) : Nat := if r < c.rows then b2n (!c.live.contains r) + 2 * b2n (c.bad.contains r) else 0

/-- The image of a Cask whose fresh rows' words are in place. -/
def Cask.image (c : Cask) : Bytes :=
  toLe 8 c.cfg.toNat ++ toLe 8 c.area.toNat ++ toLe 8 c.keg.toNat ++ toLe 8 c.folds ++ toLe 8 c.inexact ++ toLe 8 c.sat ++ toLe 8 c.nan ++
  toLe 4 c.spills ++ zeros 4 ++
  (List.range c.stateLen).map (fun i => BitVec.ofNat 8 (c.rowState (4 * i) + 4 * c.rowState (4 * i + 1) + 16 * c.rowState (4 * i + 2) + 64 * c.rowState (4 * i + 3))) ++
  (List.range (c.rows * rowElems c.op)).flatMap (fun e => toLe c.wordBytes (c.stored e)) ++
  ((List.range ((c.tilesM1 + 1) * c.len)).flatMap (fun i => toLe 16 (tget c.kegIdent c.kegs i)) ++ zeros 512).take c.kegAt.2

/-- Where the Keg rows that carry the poisoned marker lie in a Cask's image, as (offset, length). -/
def Cask.imageBad (c : Cask) : List (Nat × Nat) := c.kegBad.map (fun r => (64 + c.stateLen + c.rows * 256 + 512 * r, 512))

/-- The registers of a Cask as an image's state record gives them. -/
def caskHead (b : Bytes) : Cask :=
  { cfg := wordAt b 0, area := wordAt b 8, keg := wordAt b 0x10, folds := field b 0x18 8, inexact := field b 0x20 8, sat := field b 0x28 8
    nan := field b 0x30 8, spills := field b 0x38 4 }

/-- The Cask that an image holds; `lost` says which 512-byte Keg rows could not be read. -/
def caskOfImage (b : Bytes) (lost : Nat → Bool) : Cask :=
  let c := caskHead b
  let st (r : Nat) : Nat := field b (64 + r / 4) 1 / 4 ^ (r % 4) % 4
  let rows := 64 + c.stateLen
  let kegs := rows + c.rows * 256
  let live := (List.range c.rows).filter (fun r => !nbit (st r) 0)
  { c with
    live := live, bad := (List.range c.rows).filter (fun r => nbit (st r) 1)
    words := (List.range c.len).filterMap (fun e =>
      if nbit (st (c.rowOf e)) 0 then none else some (e, field b (rows + e * c.wordBytes) c.wordBytes))
    old := (List.range (c.rows * rowElems c.op)).filterMap (fun e =>
      if nbit (st (c.rowOf e)) 0 then some (e, field b (rows + e * c.wordBytes) c.wordBytes) else none)
    kegs := ((List.range ((c.tilesM1 + 1) * c.len)).map (fun i => (i, field b (kegs + 16 * i) 16))).filter (fun e => e.2 != c.kegIdent)
    kegBad := (List.range (c.kegAt.2 / 512)).filter lost }

/-- The enabled Casks of bay b, in Cask order. -/
def enabledCasks (s : State) (b : Nat) : List (Nat × Cask) := (s.bay b).casks.filter (fun e => e.2.en)

/-- The mask of enabled Casks of bay b. -/
def caskMask (s : State) (b : Nat) : Nat := ((enabledCasks s b).map (fun e => 2 ^ e.1)).sum

/-- The fold-unit part of a bay block: the header with the mask of enabled Casks, FOLD_MOD, a middle part, and the Cask images; and
the offsets of poisoned Keg rows in it. -/
def bayImage (s : State) (b : Nat) (mid : Bytes) : Bytes × List (Nat × Nat) :=
  let head := toLe 8 (caskMask s b) ++ zeros 56 ++ (List.range 64).flatMap (fun i => toLe 8 (tget 0 (s.bay b).mods i).toNat) ++ mid
  (enabledCasks s b).foldl (fun (a : Bytes × List (Nat × Nat)) e =>
    (a.1 ++ (withOld s b e.2).image, a.2 ++ e.2.imageBad.map (fun r => (a.1.length + r.1, r.2)))) (head, [])

/-- FOLD_MOD from 512 bytes. -/
def modsOf (b : Bytes) : Tab Word := (List.range 64).map (fun i => (i, wordAt b (8 * i)))

/-- Whether the 512 bytes from offset off of a stored image can be read. -/
def lostAt (s : State) (k a off : Nat) : Bool := vstat s k (a + off) 512 != .ok

/-- Restore one Cask of bay b from an image at shelf-relative address a (R144): refused, with nothing written, where the Cask is enabled
or R115 refuses its areas, or what stands before its Kegs cannot be read. [log 194 DEDUCED] -/
def caskRestore (k b ci a : Nat) (s : State) : Option State :=
  let c := caskHead (vread s k a 64)
  let kegs := 64 + c.stateLen + c.rows * 256
  if (s.cask b ci).en || vstat s k a 64 != .ok then none
  else
    let s1 := s.onCask b ci (fun x => { cfg := c.cfg &&& ~~~1, area := c.area, keg := c.keg, scrub := x.scrub })
    if caskEnableOk s1 b ci && bit c.cfg 0 && vstat s k a kegs == .ok then
      some (s.onCask b ci (fun _ => caskOfImage (vread s k a c.imageLen) (fun r => lostAt s k a (kegs + 512 * r))))
    else none

/-- The Cask numbers of a mask. -/
def maskCasks (m : Nat) : List Nat := (List.range 64).filter (nbit m)

/-- Restore the Casks of a mask whose images follow one another at address a: the state with those done, the address after them,
and whether all were done. -/
def casksRestore (k b : Nat) : List Nat → Nat → State → State × Nat × Bool
  | [], a, s => (s, a, true)
  | ci :: r, a, s =>
    match caskRestore k b ci a s with
    | none => (s, a, false)
    | some s' => casksRestore k b r (a + (caskHead (vread s k a 64)).imageLen) s'

/-! ### Programs (R320) -/

/-- The image of a loaded program. -/
def progImage (p : Prog) : Bytes :=
  toLe 4 0x4752504B ++ toLe 2 1 ++ toLe 1 p.bays ++ zeros 1 ++ toLe 4 (8 * p.text.length) ++ toLe 4 p.data.length ++ toLe 4 p.dataOff ++ zeros 12 ++
  p.entries.flatMap (fun e => toLe 4 e) ++ p.text.flatMap (fun w => toLe 8 w.toNat) ++ p.data

/-- Write a byte string at a shelf-relative address with the poisoned marker over ranges of it. -/
def putImage (k a : Nat) (b : Bytes) (bad : List (Nat × Nat)) (s : State) : State :=
  bad.foldl (fun s r => vpoison s k (a + r.1) r.2) (vwrite s k a b)

end Sys2Proof.Machine
end

