-- ==== Sys2Proof/Machine/Contexts.lean ====
section
/-!
DEFINITION. The contexts of a shelf (R447-R450): images, the switch and its conditions, and deletion.
-/
namespace Sys2Proof.Machine

/-- Change the context state of shelf k. -/
def State.onCtx (s : State) (k : Nat) (f : Ctx → Ctx) : State := s.onShelf k (fun h => { h with ctx := f h.ctx })

def rCtxCfg : Nat := 0x40

/-- Where slot i of the context area starts, and a slot's length (R448). -/
def ctxSlot (h : Shelf) (i : Nat) : Nat × Nat :=
  let v := h.reg rCtxCfg
  ((bits v 31 0 + i * bits v 63 32) * 0x10000, bits v 63 32 * 0x10000)

/-- CONTEXTS of the shelf. -/
def ctxCount (h : Shelf) : Nat := match h.desc with | none => 0 | some d => d.contexts

/-! ### Images (R448) -/

/-- The part of a bay block between FOLD_MOD and the Cask images: QREC and the sequencers. -/
def ctxMid (s : State) (b : Nat) : Bytes :=
  [0, 1, 2, 3].flatMap (fun i => toLe 8 (s.qerr (b * 4 + i)).qrec.toNat) ++ [0, 1, 2, 3].flatMap (fun i => seqImage (s.seq (b * 4 + i)))

/-- Bytes of a bay block before its Cask images. -/
def ctxHead : Nat := 64 + 512 + 32 + 4 * 896

/-- The image of the current context, and its poisoned ranges. [log 48 DEDUCED] -/
def ctxImage (s : State) (k : Nat) : Bytes × List (Nat × Nat) :=
  let h := s.shelf k
  let prog := if h.prog.loaded then progImage h.prog else []
  let blocks := h.bays.foldl (fun (a : Bytes × List (Nat × Nat)) b =>
    let i := bayImage s b (ctxMid s b)
    (a.1 ++ i.1, a.2 ++ i.2.map (fun r => (128 + prog.length + a.1.length + r.1, r.2)))) ([], [])
  let len := 128 + prog.length + blocks.1.length
  (toLe 4 0x5854434B ++ toLe 2 1 ++ toLe 1 h.ctx.current ++ toLe 1 h.bays.length ++ toLe 4 prog.length ++ toLe 4 len ++
    ((if h.prog.loaded then h.prog.digest else []) ++ zeros 32).take 32 ++ zeros 80 ++ prog ++ blocks.1, blocks.2)

/-! ### The switch (R449) -/

/-- No context: no program, no enabled Cask, and every area of one zeroised. [log 194 DEDUCED] -/
def ctxEmpty (k : Nat) (s : State) : State :=
  let h := s.shelf k
  let s := s.onProg k (fun _ => {})
  let s := h.bays.foldl (fun s b =>
    let s := (s.bay b).casks.foldl (fun s e => if e.2.held then zeroAreas b e.2.holds.1 e.2.holds.2 s else s) s
    s.onBay b (fun y => { y with casks := [], mods := [] })) s
  h.seqs.foldl (fun s q => (s.onSeq q (fun _ => {})).onQErr q (fun e => { e with qrec := 0 })) s

/-- Restore the bay blocks of an image from address a on. [log 194 DEDUCED] -/
def ctxBays (k : Nat) : List Nat → Nat → State → State × Bool
  | [], _, s => (s, true)
  | b :: r, a, s =>
    let hd := vread s k a ctxHead
    if vstat s k a ctxHead ≠ .ok then (s, false)
    else
    let s := s.onBay b (fun y => { y with mods := modsOf (slice hd 64 512) })
    let s := [0, 1, 2, 3].foldl (fun s i =>
      (s.onQErr (b * 4 + i) (fun e => { e with qrec := wordAt hd (576 + 8 * i) })).onSeq (b * 4 + i) (fun _ => seqOfImage (slice hd (608 + 896 * i) 896))) s
    match casksRestore k b (maskCasks (field hd 0 8)) (a + ctxHead) s with
    | (s, a, true) => ctxBays k r a s
    | (s, _, false) => (s, false)

/-- Restore the image at address a: the program, then the bay blocks. [log 194 DEDUCED] -/
def ctxRestore (k a : Nat) (s : State) : State × Bool :=
  let hd := vread s k a 128
  let n := field hd 8 4
  if vstat s k a (128 + n) ≠ .ok then (s, false)
  else
    let s := if n = 0 then s else s.onProg k (fun _ => imageProg (vread s k (a + 128) n))
    ctxBays k (s.shelf k).bays (a + 128 + n) s

/-- A switch completes with a status. -/
def ctxDone (k : Nat) (st : Status) (s : State) : State := s.onCtx k (fun c => { c with result := st.code, pending := false, waiting := false })

/-- The steps of R449. [log 48 DEDUCED, 192 DEDUCED, 193 DEDUCED, 194 DEDUCED] -/
def ctxSwitch (k : Nat) (s : State) : State :=
  let s := readCasks k s
  let h := s.shelf k
  let t := h.ctx.target
  let (img, bad) := ctxImage s k
  let save := decide (h.ctx.current < 16)
  let area := ctxSlot h 0
  if !decide (t < ctxCount h) || !inCellar h area.1 (ctxCount h * area.2) || (save && decide (area.2 < img.length)) then ctxDone k .paramUnsupported s
  else
    let s := if save then (putImage k (ctxSlot h h.ctx.current).1 img bad s).onCtx k (fun c => { c with held := insSet h.ctx.current c.held }) else s
    let s := ctxEmpty k s
    if (s.shelf k).ctx.held.contains t then
      match ctxRestore k (ctxSlot h t).1 s with
      | (s, true) => ctxDone k .ok (s.onCtx k (fun c => { c with current := t }))
      | (s, false) =>
        let s := h.bays.foldl (fun s b =>
          let s := (s.bay b).casks.foldl (fun s e => if e.2.held then zeroAreas b e.2.holds.1 e.2.holds.2 s else s) s
          s.onBay b (fun y => { y with casks := [] })) s
        ctxDone k .paramUnsupported (s.onCtx k (fun c => { c with current := 0x1F }))
    else ctxDone k .ok (s.onCtx k (fun c => { c with current := t }))

/-- Every queue of the shelf has counted what was accepted, and every enabled Cask is idle without provisional folds. -/
def ctxQuiet (s : State) (k : Nat) : Bool :=
  allCounted s k &&
  (s.shelf k).bays.all (fun b => (enabledCasks s b).all (fun e => caskIdle s b e.1 && caskProvisional s b e.1 == 0))

/-- A switch that waits is made once nothing holds it back. [log 22 DEDUCED, 189 DESIGN CHOICE] -/
def ctxSettle (k : Nat) (s : State) : State :=
  let c := (s.shelf k).ctx
  if (c.pending || c.waiting) && !(s.shelf k).round.active && !serviceActive s k then
    if ctxQuiet s k then ctxSwitch k s else s.onCtx k (fun c => { c with pending := false, waiting := true })
  else s

/-- A write of CTX_CMD (R449, R450, R462). [log 192 DEDUCED] -/
def ctxCmdWrite (k : Nat) (v : Word) (s : State) : State :=
  let h := s.shelf k
  if h.ctx.waiting then s
  else
    let pending := h.ctx.pending
    let s := s.onCtx k (fun c => { c with target := bits v 11 8 })
    match bits v 1 0 with
    | 1 =>
      if h.fenced then ctxDone k .shelfFenced s
      else ctxSettle k (s.onCtx k (fun c => if h.round.active then { c with pending := true } else { c with waiting := true }))
    | 2 =>
      if bits v 11 8 = h.ctx.current ∨ pending = true ∨ ctxCount h ≤ bits v 11 8 then s.onCtx k (fun c => { c with result := Status.paramUnsupported.code })
      else
        let a := ctxSlot h (bits v 11 8)
        let s := if inCellar h a.1 a.2 then vzero s k a.1 a.2 else s
        s.onCtx k (fun c => { c with result := Status.ok.code, held := c.held.filter (fun i => i != bits v 11 8) })
    | _ => s

/-- CONTEXT_SWITCH (R449): CTX_CMD is written with OP 0b01. -/
def execContextSwitch (k : Nat) (target : BitVec 4) (s : State) : Out := .next (ctxCmdWrite k (BitVec.ofNat 64 (target.toNat * 256 + 1)) s)

/-- CONTEXT_DELETE (R450): CTX_CMD is written with OP 0b10. -/
def execContextDelete (k : Nat) (target : BitVec 4) (s : State) : Out := .next (ctxCmdWrite k (BitVec.ofNat 64 (target.toNat * 256 + 2)) s)

/-- A write of CTX_CFG (R462). -/
def ctxCfgWrite (k : Nat) (v : Word) (s : State) : State :=
  let c := (s.shelf k).ctx
  if !c.held.isEmpty || c.waiting || c.pending then s else s.setReg k rCtxCfg v

/-- A write of PROG_CMD: a context switch that waited for the end of a round comes first (R46). [log 22 DEDUCED] -/
def progCmd (k : Nat) (v : Word) (s : State) : State := progCmdWrite k v (ctxSettle k s)

/-- PROG_LOAD (R321): PROG_CMD is written with OP 0b01 and the image's address. -/
def execProgLoad (k : Nat) (addr : BitVec 42) (s : State) : Out := .next (progCmd k (addr ++ (1 : BitVec 22)) s)

/-- SERVICE_RUN_START (R297). -/
def execServiceRunStart (k : Nat) (addr : BitVec 42) (s : State) : Out := .next (progCmd k (addr ++ (2 : BitVec 22)) s)

/-- SERVICE_RUN_STOP (R322). -/
def execServiceRunStop (k : Nat) (addr : BitVec 42) (s : State) : Out := .next (progCmd k (addr ++ (3 : BitVec 22)) s)

end Sys2Proof.Machine
end

