-- ==== Sys2Proof/Machine/Round.lean ====
section
/-!
DEFINITION. The round controller's phases (R52-R78): OPEN, the end of a phase and its checks, the cut-off,
the freeze, agreement of the cohort group, the deadlines, the flip and CANCEL.
-/
namespace Sys2Proof.Machine

/-! ### Phases (R52, R54, R295) -/

/-- The phase after a phase. -/
def Phase.next : Phase → Phase
  | .idle => .open_ | .open_ => .collect | .collect => .recover | .recover => .unmask | .unmask => .noise
  | .noise => .step | .step => .seal | .seal => .release | .release => .release

/-- The phase runs in the shelf's round (R52); a member that releases a witness record passes NOISE and STEP with no work (R275,
R276, R282). [log 102 DEDUCED] -/
def phaseRuns (h : Shelf) : Phase → Bool
  | .idle => false | .open_ => true | .collect => true | .recover => h.round.desc.mode == 1 | .unmask => true
  | .noise => h.round.desc.noiseEn && !h.rel.witness | .step => h.round.desc.stepEn && !h.rel.witness | .seal => true | .release => false

/-- The controller's work at the start of a phase. -/
def phaseEntry (k : Nat) (p : Phase) (s : State) : State :=
  match p with
  | .recover =>
    let h := s.shelf k
    if h.round.desc.mode == 1 && h.round.exchPassed && !h.recov.checked then recovExchange k s else s
  | .unmask => if (s.shelf k).sealedRound then reseedBays k s else s
  | .noise => enterNoise k s
  | .step => enterStep k s
  | .seal => enterSeal k s
  | .idle => s | .open_ => s | .collect => s | .release => s

/-- A phase begins (R54, R55, R76): PHASE, its interrupt, its entry checks, and the sequencers. [log 102 DEDUCED] -/
def enterPhase (k : Nat) (p : Phase) (s : State) : State :=
  let s := markHoldover k (s.onRound k (fun r => { r with phase := p, restart := false }))
  let s := phaseEntry k p (phaseIrq k p s)
  let h := s.shelf k
  let s := if h.round.active && phaseRuns h p then startPhase k (h.prog.entries.getD p.code noEntry) (p == .open_) s else s
  s.onShelf k (fun h => { h with wpt := { h.wpt with seqs := h.seqs.map (fun q => (q, s.seq q)) } })

/-! ### The schedule table (R525) -/

/-- Write a round entry with KIND 0x1, armed. -/
def setSched (k e t : Nat) (s : State) : State :=
  s.onShelf k (fun h => { h with sched := tput h.sched e { time := BitVec.ofNat 64 t, kind := 1, armed := true } })

/-- The times written when OPEN completes, at time t. -/
def writeSched (k t : Nat) (s : State) : State :=
  let d := (s.shelf k).round.desc
  let s := setSched k 5 d.tDeadline (setSched k 3 d.tExchange (setSched k 2 d.tCut (setSched k 1 t (setSched k 0 d.tOpen s))))
  if d.tRelease = 0 then s else setSched k 4 d.tRelease s

/-! ### OPEN (R54, R179, R321, R487) -/

/-- MASKKEY_DIGEST is formed; a table that cannot be read ends the round FAULTED (R78, R179). [log 15 DEDUCED] -/
def maskkeyDigest (k : Nat) (s : State) : State :=
  let h := s.shelf k
  if h.round.desc.mode = 1 then
    let t := maskkeyTable h h.round.desc
    let st := vstat s k t.1 t.2
    let s := noteRead k t.1 t.2 s
    if st = .ok then s.onRecov k (fun x => { x with digest := sha3 (vread s k t.1 t.2) }) else endRound k .faulted st s
  else s

/-- OPEN_BEGIN (R54): T_OPEN is reached. OPEN begins only once every command that a unit had accepted is counted (R341). [log 15 DEDUCED, 22 DEDUCED] -/
def execOpenBegin (k : Nat) (s : State) : Out :=
  .next (
    let r := (s.shelf k).round
    if r.active && !r.begun && allCounted s k then
      let s := (s.toEpoch r.desc.tOpen).onRound k (fun r => { r with begun := true })
      maskkeyDigest k (enterPhase k .open_ (attestRefresh k (copyData k s)))
    else s)

/-! ### The cohort digest (R66, R67) -/

/-- The client table reduced to one bit per client. -/
def bitTable (s : State) (k : Nat) : Bytes :=
  let n := (s.shelf k).round.desc.clientCount
  (List.range ((n + 7) / 8)).map (fun i => BitVec.ofNat 8 (((List.range 8).map (fun j =>
    if 8 * i + j < n ∧ (ctabGet s k (8 * i + j)).isCommitted then 2 ^ j else 0)).sum))

/-- Bits in which two tables differ. -/
def bitsDiffer (a b : Bytes) : Nat :=
  ((a.zip b).map (fun e => ((List.range 8).filter (fun i => e.1.getLsbD i != e.2.getLsbD i)).length)).sum

/-- Every peer's digest has come and matches. -/
def Round.agreed (r : Round) : Bool := r.peers.all (fun j => tmem r.peerDigests j && tget [] r.peerDigests j == r.ownDigest)

/-- Where digests differ the members exchange their one-bit tables; the table of a peer that differs ends the
round DIVERGED with the count (R67). [log 15 DEDUCED, 17 DEDUCED] -/
def settleDigests (k : Nat) (s : State) : State :=
  let r := (s.shelf k).round
  if r.active && r.frozen then
    match r.peers.filter r.differs with
    | [] => s
    | l =>
      let s :=
        if r.tableSent then s
        else withTable k (fun s => l.foldl (fun s j => sendGroup k j 1 0 (bitTable s k) s) (s.onRound k (fun r => { r with tableSent := true }))) s
      match l.find? (tmem r.peerTables) with
      | none => s
      | some j =>
        endRound k .diverged .verdictReject
          (s.onRound k (fun r => { r with divergent := sat 32 (bitsDiffer (bitTable s k) (tget [] r.peerTables j)) r.divergent }))
  else s

/-- A cohort message from peer j: its digest, and after it its one-bit table. [log 15 DEDUCED] -/
def takeCohort (k j : Nat) (body : Bytes) (s : State) : State :=
  let r := (s.shelf k).round
  if tmem r.peerDigests j then settleDigests k (s.onRound k (fun r => { r with peerTables := tput r.peerTables j body }))
  else settleDigests k (s.onRound k (fun r => { r with peerDigests := tput r.peerDigests j body }))

/-- The digests' deadline (R67): a missing digest, or one that differs from this member's own, ends the round DIVERGED. Where every peer's has
come and this member has still to freeze, the freeze compares them. [log 17 DEDUCED] -/
def digestDeadline (k : Nat) (s : State) : State :=
  let r := (s.shelf k).round
  if r.frozen && r.peers.any r.differs then endRound k .diverged .verdictReject s
  else if r.peers.all (tmem r.peerDigests) then s
  else endRound k .diverged .retryExhausted s

/-! ### The cut-off and the freeze (R61-R63) -/

/-- CUT_OFF (R61): T_CUT is reached. [log 20 DESIGN CHOICE] -/
def execCutOff (k : Nat) (s : State) : Out :=
  .next (
    let r := (s.shelf k).round
    if r.active && !r.cutPassed then
      markHoldover k ((s.toEpoch r.desc.tCut).onRound k (fun r => { r with cutPassed := true }))
    else s)

/-- The ledger holds no entry of the round, and no admitted update crate waits (R61, R99). -/
def freezeDue (s : State) (k : Nat) : Bool :=
  let h := s.shelf k
  let r := h.round
  r.active && r.begun && r.phase == .collect && r.cutPassed && !r.frozen && h.ledger.entries.isEmpty && (unsettled s k).isEmpty

/-- FREEZE (R61): the committed set is fixed. [log 16 DESIGN CHOICE] -/
def freeze (k : Nat) (s : State) : State := withTable k (fun s =>
  let s := dropRecords k (fun r => r.kind == 1) (discardQueues k (stopSeqs k (markHoldover k s)))
  let d := (s.shelf k).round.desc
  let digest := sha3 (bitTable s k)
  let s := s.onRound k (fun r => { r with
    frozen := true, ownDigest := digest, dropped := if d.mode = 1 then d.clientCount - r.committed else r.dropped })
  let s := writeSumHeaders k (setSched k 7 s.epoch s)
  let s := s.onShelf k (fun h => { h with wpt := { h.wpt with due := true } })
  let s := (s.shelf k).round.peers.foldl (fun s j => sendGroup k j 1 0 digest s) s
  if (s.shelf k).round.committed < d.minCohort then endRound k .refusedCohort .ok s else settleDigests k s) s

def execFreeze (k : Nat) (s : State) : Out := .next (if freezeDue s k then freeze k s else s)

/-! ### The end of a phase (R55, R56) -/

/-- The controller's checks at the end of a phase (R186, R275, R282, R284), with the zeroisation of the recovery
region at the end of UNMASK (R185). -/
def phaseExit (k : Nat) (s : State) : State :=
  let h := s.shelf k
  let masked := h.round.desc.mode == 1
  match h.round.phase with
  | .recover =>
    let s := dropRecords k (fun r => r.kind == 2) s
    if masked then
      withTable k (fun s => if recoverComplete s k then s.onRecov k (fun x => { x with complete := true }) else endRound k .faulted .paramUnsupported s) s
    else s
  | .unmask => if masked then (if unmaskComplete s k then zeroMode k s else endRound k .faulted .paramUnsupported s) else s
  | .noise => leaveNoise k s
  | .step => leaveStep k s
  | .idle => s | .open_ => writeSched k s.epoch s | .collect => s | .seal => s | .release => s

/-- A waypoint is taken at the end of RECOVER, UNMASK and STEP, beside that of the freeze (R56). -/
def endWaypoint (k : Nat) (p : Phase) (s : State) : State :=
  let due := match p with | .recover => true | .unmask => true | .step => true
                          | .idle => false | .open_ => false | .collect => false | .noise => false | .seal => false | .release => false
  if due then s.onShelf k (fun h => { h with wpt := { h.wpt with due := true } }) else s

/-- The work of the present phase is complete (R55, R67). [log 21 DEDUCED] -/
def phaseDone (s : State) (k : Nat) : Bool :=
  let h := s.shelf k
  let r := h.round
  r.active && r.begun && workDone s k &&
  (match r.phase with
    | .collect => r.frozen && r.agreed
    | .seal => !h.rel.gathered
    | .idle => false | .release => false
    | .recover => r.desc.mode != 1 || r.exchPassed
    | .open_ => true | .unmask => true | .noise => true | .step => true)

/-- PHASE_COMPLETE (R55): the phase's checks, then the next phase; the end of the program work of SEAL starts
the sealing pass. -/
def execPhaseComplete (k : Nat) (s : State) : Out :=
  .next (
    if phaseDone s k then
      let p := (s.shelf k).round.phase
      if p == .seal then sealWorkDone k s
      else
        let s := phaseExit k s
        if (s.shelf k).round.active then enterPhase k p.next (endWaypoint k p s) else s
    else s)

/-! ### Deadlines (R57, R67, R70, R73, R160) -/

/-- A pending record of a takeover whose crate has not come again (R547). -/
def orphanEntry (s : State) (k : Nat) : Bool :=
  (s.shelf k).ledger.entries.any (fun e => (logEntry s k e.logSeq).isNone)

/-- EXCHANGE_DEADLINE (R160): T_EXCHANGE is reached. [log 17 DEDUCED] -/
def exchangeDeadline (k : Nat) (s : State) : State :=
  let r := (s.shelf k).round
  let s := markHoldover k ((s.toEpoch r.desc.tExchange).onRound k (fun r => { r with exchPassed := true }))
  if !r.frozen && orphanEntry s k then endRound k .faulted .uncorrectable s
  else
    let s := verifExchange k (if r.frozen then s else forceRetract k s)
    let s := if r.desc.mode != 2 && !r.peers.isEmpty then digestDeadline k s else s
    let h := s.shelf k
    if !h.round.active then s
    else if h.round.desc.mode = 1 ∧ h.round.phase = .recover ∧ !h.recov.checked then recovExchange k s
    else if h.round.desc.mode = 3 ∧ h.sealSt.set_.isEmpty then
      endRound k .abandoned (if h.sealSt.keysetDiscard then .keysetMismatch else .ok) s
    else s

/-- EXCHANGE_DEADLINE: the exchange of the running round ends (R61, R199). [log 20 DESIGN CHOICE] -/
def execExchangeDeadline (k : Nat) (s : State) : Out :=
  .next (if (s.shelf k).round.active && !(s.shelf k).round.exchPassed then exchangeDeadline k s else s)

/-- ROUND_DEADLINE (R57): T_DEADLINE passes before SEAL completes. [log 18 DEDUCED] -/
def execRoundDeadline (k : Nat) (s : State) : Out :=
  .next (
    let h := s.shelf k
    if h.round.active && !h.round.sealDone then
      let s := s.toEpoch h.round.desc.tDeadline
      if h.fenced then endRound k .faulted .shelfFenced s
      else endRound k .expired .ok (if h.round.desc.mode = 2 then digestDeadline k s else s)
    else s)

/-- RELEASE_FLIP (R54, R290): the later of SEAL's completion and T_RELEASE. -/
def execReleaseFlip (k : Nat) (s : State) : Out :=
  .next (
    let r := (s.shelf k).round
    if r.active && r.sealDone then releaseFlip k (enterPhase k .release (s.toEpoch r.desc.tRelease)) else s)

/-! ### ROUND_CTL (R51, R77) -/

/-- CANCEL (R77). -/
def roundCancel (k : Nat) (s : State) : State :=
  if (s.shelf k).round.active then endRound k .cancelled .ok (cancelRefreshes k s) else s

/-- A write of ROUND_CTL: ACTIVE is as at the write. [log 12 DEDUCED, 14 DESIGN CHOICE, 22 DEDUCED] -/
def roundCtlWrite (k : Nat) (v : Word) (s : State) : State :=
  let s := s.setReg k rRoundCtl (v &&& 0x1_FF04)
  let act := (s.shelf k).round.active
  let s := if bit v 1 && act then roundCancel k s else s
  if bit v 0 then
    let s := if act then s else ctxSettle k s
    if act || startBusy s k then s.onRound k (fun r => { r with startRefused := true }) else roundStart k s
  else s

/-- ROUND_START (R49): ROUND_CTL is written with START. -/
def execRoundStart (k : Nat) (v : Word) (s : State) : Out := .next (roundCtlWrite k (v ||| 1) s)

/-- ROUND_CANCEL (R77): ROUND_CTL is written with CANCEL. -/
def execRoundCancel (k : Nat) (v : Word) (s : State) : Out := .next (roundCtlWrite k (v ||| 2) s)

/-! ### Group messages (R67, R209) -/

/-- What this member knows about the messages of the running round. -/
def roundCtx (h : Shelf) : PeerCtx :=
  let d := h.round.desc
  { base := d.peerSlot, me := d.groupIndex, size := d.groupSize, id := d.roundId }

/-- And of the refresh in progress. -/
def shrefCtx (s : State) (k : Nat) : PeerCtx :=
  let x := (s.shelf k).verif.shref
  let hb := shrefHead s k
  { base := x.slot, me := sobIndex hb, size := sobGroup hb, id := x.id }

/-- An envelope arrives with its tag (R209): it is opened, its SEQ noted, and its body handled by its kind. -/
def groupReceive (k tag : Nat) (env : Bytes) (s : State) : State :=
  let h := s.shelf k
  let kind := field env 5 1
  let refresh := kind == 0x80 || kind == 0x81
  if (if refresh then h.verif.shref.busy else h.round.active) then
    match openEnvelope s k (if refresh then shrefCtx s k else roundCtx h) tag env with
    | none => badEnvelope k s
    | some (kind, j, body) =>
      let s := noteEnvelope k env s
      match kind with
      | 1 => takeCohort k j body s
      | 3 => takeVerifier k j body s
      | 4 => takePartial k j body s
      | 0x80 => takeSeed k j body s
      | 0x81 => takeDigest k j body s
      | _ => s
  else badEnvelope k s

end Sys2Proof.Machine
end

