-- ==== Sys2Proof/Machine/GroupIn.lean ====
section
/-!
DEFINITION. Delivered group messages (R67, R209, R385): the round controller takes the envelopes of the shelf's group
bins in the order of their delivery.
-/
namespace Sys2Proof.Machine

/-- The envelope of a delivered group message. [log 160 DEDUCED] -/
def groupBytes (s : State) (k : Nat) (e : Nat × Nat × Nat × Nat) : Bytes := vread s k e.2.2.1 e.2.2.2

/-- The oldest delivered group message is handled and its space freed, if p holds of its envelope. One
that cannot be read is discarded and counted as one whose tag fails. [log 152 DESIGN CHOICE, 157 DEDUCED] -/
def groupTake (k : Nat) (p : Bytes → Bool) (s : State) : State :=
  match (s.shelf k).remote.group with
  | [] => s
  | e :: r =>
    let env := groupBytes s k e
    let a := e.2.2.1
    let freed (s : State) : State := groupFree e.2.1 e.2.2.1 (s.onRemote k (fun x => { x with group := r }))
    if vstat s k a e.2.2.2 ≠ .ok then badEnvelope k (freed (noteRead k a e.2.2.2 s))
    else if p env then groupReceive k e.1 env (freed (noteRead k a e.2.2.2 s))
    else s

/-- COHORT_DIGEST_RECEIVE (R67): the oldest delivered envelope of shelf k is of kind 0x01. [log 157 DEDUCED] -/
def execCohortDigestReceive (k : Nat) (s : State) : Out := .next (groupTake k (fun env => field env 5 1 == 1) s)

/-- GROUP_ENVELOPE_RECEIVE (R209): the oldest delivered envelope of shelf k, whatever its kind. [log 157 DEDUCED] -/
def execGroupEnvelopeReceive (k : Nat) (s : State) : Out := .next (groupTake k (fun _ => true) s)

end Sys2Proof.Machine
end

