-- ==== Sys2Proof/Machine/Ports.lean ====
section
/-!
DEFINITION. Fabric ports (R343-R345, R372, R373): modes, training, lane failures and the spare lanes of the
groups, and channels that go down.
-/
namespace Sys2Proof.Machine

/-- Port n. -/
def State.port (s : State) (n : Nat) : Port := tget {} s.ports n

/-- MODE of port n. -/
def State.portMode (s : State) (n : Nat) : Nat := bits (s.portCfg n) 1 0

/-- The channels of a mode, as a mask. -/
def modeChannels (m : Nat) : Nat := match m with | 0 => 0 | 1 => 1 | 2 => 3 | _ => 15

/-- The lanes of channel c in a mode (R344), as a mask. -/
def modeLanes (m c : Nat) : Nat := match m with | 0 => 0 | 1 => 15 | 2 => 3 * 4 ^ c | _ => 2 ^ c

/-- The port is held in reset (R4). [log 143 DESIGN CHOICE] -/
def portHeld (s : State) (n : Nat) : Bool := s.dev.card && decide (8 ≤ n)

/-- Channel c of port n has no lane that failed without a spare. -/
def lanesSound (s : State) (n c : Nat) : Bool := modeLanes (s.portMode n) c &&& (s.port n).failed == 0

/-- Take every up channel of a mask of port n down; what was sent on them goes out on their alternates (R372). -/
def channelsDown (n mask : Nat) (s : State) : State :=
  let gone := (List.range 4).filter (fun c => nbit mask c && nbit (s.port n).up c)
  if gone.isEmpty then s
  else
    let s := onPort n (fun p => { p with up := gone.foldl (fun u c => u - 2 ^ c) p.up }) s
    portEvent n (gone.foldl (fun s c => channelLost (4 * n + c) s) s)

/-- Train the channels of a mask of port n, where the mode has them and their lanes are sound. -/
def trainChannels (n mask : Nat) (s : State) : State :=
  let l := (List.range 4).filter (fun c => nbit mask c && nbit (modeChannels (s.portMode n)) c && lanesSound s n c)
  onPort n (fun p => { p with training := l.foldl (fun t c => t ||| 2 ^ c) p.training }) s

/-- A write of PORT_CFG (R344, R373). -/
def portCfgWrite (n : Nat) (v : Word) (s : State) : State :=
  if portHeld s n then s
  else
    let old := s.portMode n
    let s' := s.setDreg (portBase n) (v &&& 0xF_FF77)
    if bits v 1 0 = old then s'
    else
      let s := channelsDown n 15 s
      let s := onPort n (fun p => { p with training := 0 }) (s.setDreg (portBase n) (v &&& 0xF_FF77))
      trainChannels n 15 s

/-- PORT_MODE_WRITE (R344). -/
def execPortModeWrite (n : BitVec 4) (v : Word) (s : State) : Out := .next (portCfgWrite n.toNat v s)

/-- CHANNEL_TRAINED (R345): channel c, port × 4 + channel, completes training. -/
def execChannelTrained (c : BitVec 6) (s : State) : Out :=
  .next (
    let n := c.toNat / 4
    let i := c.toNat % 4
    if nbit (s.port n).training i then
      portEvent n (onPort n (fun p =>
        { p with training := p.training - 2 ^ i, up := p.up ||| 2 ^ i, laneOk := p.laneOk ||| modeLanes (s.portMode n) i }) s)
    else s)

/-- The spare lane of a group is in use. [log 142 DESIGN CHOICE] -/
def spareUsed (s : State) (g : Nat) : Bool := (List.range 4).any (fun i => (s.port (4 * g + i)).spareHere)

/-- The channels of port n that use a lane, as a mask. -/
def laneChannels (s : State) (n l : Nat) : Nat :=
  ((List.range 4).filter (fun c => nbit (modeChannels (s.portMode n)) c && nbit (modeLanes (s.portMode n) c) l)).foldl (fun m c => m + 2 ^ c) 0

/-- Lane l of port n fails at run time: the spare is mapped in and the channel retrained, or it stays down. [log 142 DESIGN CHOICE, 258 DEDUCED] -/
def laneFailed (n l : Nat) (s : State) : State :=
  let mask := laneChannels s n l
  let s := channelsDown n mask s
  let clear (p : Port) : Port := { p with training := p.training &&& (15 - mask), laneOk := p.laneOk &&& (15 - 2 ^ l) }
  if spareUsed s (n / 4) then portEvent n (onPort n (fun p => { clear p with degraded := true, failed := p.failed ||| 2 ^ l }) s)
  else
    let s := onPort n (fun p => { clear p with spareHere := true, spareLane := l, retrains := sat 16 1 p.retrains }) s
    alertEvent 7 (n * 4 + l) (addRepair (fun r => { r with lanes := addTo (n * 4 + l) r.lanes }) (trainChannels n mask s))

/-- LANE_FAILURE (R345): a trained lane, port × 4 + lane, reports for 1 ms whether it has lock and the codewords that it corrected and could
not correct, which PORT_FEC counts (R373); it fails when it has lost lock, or with more than 16 uncorrectable codewords. [log 132 DESIGN CHOICE] -/
def execLaneFailure (l : LaneReport) (s : State) : Out :=
  .next (
    let n := l.lane.toNat / 4
    let c := l.lane.toNat % 4
    if portHeld s n || laneChannels s n c == 0 then s
    else
      let s := onPort n (fun p => { p with fecCorr := sat 32 l.corrected.toNat p.fecCorr, fecUncorr := sat 16 l.uncorrected.toNat p.fecUncorr }) s
      if (!l.lock || decide (16 < l.uncorrected.toNat)) && !nbit (s.port n).failed c then laneFailed n c s else s)

/-- CHANNEL_DOWN (R372): channel c, port × 4 + channel, goes down, and trains again. [log 142 DESIGN CHOICE] -/
def execChannelDown (c : BitVec 6) (s : State) : Out :=
  .next (
    let n := c.toNat / 4
    let i := c.toNat % 4
    if nbit (s.port n).up i then
      trainChannels n (2 ^ i) (onPort n (fun p => { p with retrains := sat 16 1 p.retrains }) (channelsDown n (2 ^ i) s))
    else s)

/-- The reference clock of lane group g is lost (R574): its channels go down, and train again. -/
def groupDown (g : Nat) (s : State) : State :=
  (List.range 4).foldl (fun s i =>
    let n := 4 * g + i
    let mask := (s.port n).up
    trainChannels n mask (onPort n (fun p => { p with retrains := if mask = 0 then p.retrains else sat 16 1 p.retrains }) (channelsDown n mask s))) s

/-! ### Start (R529 S10) -/

/-- The lane that the spare of group g carries after S10: one on record, which is mapped before training, else the first that fails; none
where the spare itself does not train, as lane 64 + g of the findings. [log 145 DEDUCED] -/
def groupSpare (g : Nat) (fails recd : List Nat) (s : State) : Option Nat :=
  let lanes := (List.range 16).filter (fun i => !portHeld s (4 * g + i / 4))
  if fails.contains (64 + g) then none
  else ((lanes.filter (fun i => recd.contains (16 * g + i))) ++ (lanes.filter (fun i => fails.contains (16 * g + i)))).head?.map (fun i => 16 * g + i)

/-- S10: the lanes are trained; a failing lane, or one recorded, that the group's spare does not carry stays failed. `fails` are the
failing lanes, `recd` those on record, as port × 4 + lane. Channels of a preserved mode come up. [log 142 DESIGN CHOICE, 145 DEDUCED] -/
def trainPort (n : Nat) (fails recd : List Nat) (s : State) : State :=
  if portHeld s n then { s with ports := tdel s.ports n }
  else
    let sp := groupSpare (n / 4) fails recd s
    let bad := (List.range 4).filter (fun l => (fails.contains (4 * n + l) || recd.contains (4 * n + l)) && sp != some (4 * n + l))
    let failed := (bad.map (2 ^ ·)).sum
    let here := match sp with | none => false | some l => l / 4 == n
    let p : Port :=
      { laneOk := 15 - failed, failed := failed, degraded := failed != 0, spareHere := here, spareLane := if here then sp.getD 0 % 4 else 0 }
    let s : State := { s with ports := tput s.ports n p }
    let up := ((List.range 4).filter (fun c => nbit (modeChannels (s.portMode n)) c && lanesSound s n c)).foldl (fun m c => m + 2 ^ c) 0
    onPort n (fun p => { p with up := up }) s

end Sys2Proof.Machine
end

