-- ==== Sys2Proof/Machine/Fence.lean ====
section
/-!
DEFINITION. Fencing a shelf (R396, R435, R542), the TDI's ERROR state (R416), and the tenant switch (R451-R453).
-/
namespace Sys2Proof.Machine

/-- The TDI of shelf k. -/
def State.tdi (s : State) (k : Nat) : Tdi := tget {} s.host.tdis k

/-- Change it. -/
def State.onTdi (s : State) (k : Nat) (f : Tdi → Tdi) : State := { s with host := { s.host with tdis := tput s.host.tdis k (f (s.tdi k)) } }

/-- The TDI is CONFIG_LOCKED or RUN. -/
def Tdi.isLocked (t : Tdi) : Bool := match t.state with | .locked => true | .run => true | .unlocked => false | .error => false

/-- The TDI is in ERROR. -/
def Tdi.inError (t : Tdi) : Bool := match t.state with | .error => true | .locked => false | .run => false | .unlocked => false

/-- The TDI is in RUN. -/
def Tdi.inRun (t : Tdi) : Bool := match t.state with | .run => true | .locked => false | .error => false | .unlocked => false

/-! ### Stopping a shelf -/

/-- A running round ends FAULTED with a status after the steps of R77, or a service run stops; unaccepted commands are
discarded. -/
def stopShelf (k : Nat) (st : Status) (s : State) : State :=
  let s := if (s.shelf k).round.active then endRound k .faulted st (cancelRefreshes k s) else s
  (discardQueues k (stopSeqs k s)).onProg k (fun p => { p with service := false })

/-- The TDI of shelf k enters ERROR with a cause (R416). [log 165 DEDUCED] -/
def tdiError (k cause : Nat) (s : State) : State :=
  if (s.tdi k).isLocked then
    stopShelf k .shelfFenced (signalShelf k 4 (s.onTdi k (fun t => { t with state := .error, cause := cause })))
  else s

/-- Receive entries of shelf k in PLACING or HELD are refused (R396). -/
def refuseRx (k : Nat) (s : State) : State :=
  s.tp.rx.foldl (fun s e =>
    let open_ := match e.2.state with | .placing => true | .held => true | .linger => false | .refused => false
    if e.2.tshelf = k && open_ then
      dropTarget e.2 (onRx e.1 (fun m => { m with state := .refused, status := .remoteFault, endAt := s.clk, waiting := false, target := .none }) s)
    else s) s

/-- Shelf k is fenced for a fault (R435, R542): its sequencers stop, unaccepted commands are discarded, its receive entries
are refused, and its TDI enters ERROR. -/
def fenceShelf (k : Nat) (s : State) : State :=
  let s := s.onShelf k (fun h => { h with state := .fenced, rcv := { h.rcv with state := .fenced, fault := false } })
  let s := refuseRx k (discardQueues k (stopSeqs k s))
  tdiError k 4 (signalShelf k 4 s)

/-- Complete the fences that errors of Cellar reads have begun (R435). [log 181 DESIGN CHOICE] -/
def settleFences (s : State) : State :=
  (List.range 8).foldl (fun s k => if (s.shelf k).rcv.fault then fenceShelf k s else s) s

/-! ### The tenant switch (R451, R452) -/

/-- Step 2: windows become FREE with a new generation, bins are cancelled, receive entries are refused, and the shelf's own
messages end uncounted. [log 190 DEDUCED] -/
def dropRemote (k : Nat) (s : State) : State :=
  let s := refuseRx k s
  let s := s.windows.foldl (fun s e =>
    if e.1 / 65536 = k && e.2.isOpen then ({ s with gens := tput s.gens e.1 ((s.gen e.1 + 1) % 2 ^ 32) } : State) else s) s
  { s with
    windows := s.windows.filter (fun e => !(e.1 / 65536 == k))
    bins := s.bins.filter (fun e => !(e.1 / 65536 == k))
    tp := { s.tp with tx := s.tp.tx.filter (fun e => !(e.2.shelf == k)) } }

/-- Step 3: memory, bays, sequencers and queues of the shelf are zeroised. -/
def scrub (k : Nat) (s : State) : State :=
  let h := s.shelf k
  let own (d : Nat) : Bool := ownerAt s d == some k
  let s : State := { s with mem := s.mem.filter (fun c => !own c.1), marks := s.marks.filter (fun e => !own (e.1 * 64)) }
  let s := h.bays.foldl (fun (s : State) b => { s with bays := tput s.bays b { sampler := { inst := true } } }) s
  h.seqs.foldl (fun (s : State) q =>
    { s with seqs := tdel s.seqs q, qerrs := tdel s.qerrs q, queues := s.queues.filter (fun e => !(e.1 / 16 == q)) }) s

/-- Slots of shelf k become EMPTY with RETIRED_GEN 0, and the session slot of its VF is zeroised (R482). [log 207 DEDUCED] -/
def clearKeys (k : Nat) (s : State) : State :=
  let mine (x : Slot) : Bool := match x.cur with | none => false | some h => h.owner == k
  { s with
    chest := s.chest.filter (fun e => !(decide (16 ≤ e.1) && mine (s.slot e.1)) && !(e.1 == 5 + k))
    isl := { s.isl with sessions := tdel s.isl.sessions (k + 1) } }

/-- A fault of the shelf still stands: a bay without a physical bay, or a fenced pseudo-channel (R442, R453). [log 191 DEDUCED] -/
def faultStands (s : State) (d : ShelfDesc) : Bool :=
  (({ desc := some d } : Shelf).bays.any (fun b => decide (17 ≤ s.physOf b))) || d.pcs.any (fun p => nbit (s.stack (p / 64)).fenced (p % 64))

/-- A MODEL_LOAD in progress ends with a status: the response of its function, unless that has been reset. [log 191 DEDUCED] -/
def answerLoad (k : Nat) (reply : Nat → Nat → State → State) (s : State) : State :=
  match (s.shelf k).load with
  | none => s
  | some l => reply l.fn l.tag s

/-- The steps of R451 on shelf k; `reply` answers the function of a MODEL_LOAD in progress. [log 189 DESIGN CHOICE, 190 DEDUCED, 193 DEDUCED] -/
def tenantSwitch (k : Nat) (delete : Bool) (reply : Nat → Nat → State → State) (s : State) : State :=
  let s := if (s.shelf k).round.active then roundCancel k s else cancelRefreshes k s
  let s := answerLoad k reply (dropRemote k (discardQueues k (stopSeqs k s)))
  match (s.shelf k).desc with
  | none => s
  | some d =>
    let s := clearKeys k (scrub k s)
    let s := s.onShelf k (fun _ =>
      if delete then {}
      else { desc := some d, state := if faultStands s d then .fenced else .ready
             counts := { quietMhz := if nbit d.flags 1 then d.quietMhz else 0 } })
    signalShelf k 4 s

end Sys2Proof.Machine
end

