-- ==== Sys2Proof/Machine/Mailbox.lean ====
section
/-!
DEFINITION. The mailbox of each function (R409-R412, R461): GO, how the island serves a request, and how a response is
delivered or held back.
-/
namespace Sys2Proof.Machine

/-! ### Functions (R403) -/

/-- Function f exists: the PF, or a VF while VF Enable is set and NumVFs covers it. -/
def fnExists (s : State) (f : Nat) : Bool := f == 0 || (s.host.vfEnable && decide (f ≤ s.host.numVfs) && decide (f ≤ 8))

/-- The shelf that a function serves. -/
def fnShelf (f : Nat) : Option Nat := if f = 0 then none else some (f - 1)

/-- The function is the PF, or a VF whose shelf is defined. [log 175 DEDUCED] -/
def fnServed (s : State) (f : Nat) : Bool := f == 0 || (s.shelf (f - 1)).desc.isSome

/-- A VF's shelf has FIXED_MBX. -/
def fixedMbx (s : State) (f : Nat) : Bool :=
  f != 0 && (match (s.shelf (f - 1)).desc with | none => false | some d => nbit d.flags 3)

/-- Change the mailbox of function f. -/
def State.onMbx (s : State) (f : Nat) (g : Mbx → Mbx) : State := s.onFn f (fun x => { x with mbx := g x.mbx })

def mbxSize : Nat := 4096

/-- Overwrite bytes of a buffer of n bytes. [log 173 DEDUCED] -/
def bufPut (n : Nat) (b : Bytes) (off : Nat) (v : Bytes) : Bytes :=
  let b := (b ++ zeros n).take n
  (b.take off ++ v ++ b.drop (off + v.length)).take n

/-! ### Requests and responses (R410) -/

def reqOp (m : Mbx) : Nat := field m.req 0 2
def reqTag (m : Mbx) : Nat := field m.req 4 4
def reqLen (m : Mbx) : Nat := field m.req 8 4
/-- The payload: LEN bytes. [log 173 DEDUCED] -/
def reqPay (m : Mbx) : Bytes := (slice (m.req ++ zeros mbxSize) 16 (reqLen m))

/-- The header is as R410 says. -/
def reqOk (m : Mbx) : Bool := decide (reqLen m ≤ 4080) && zeroAt m.req 2 2 && zeroAt m.req 12 4

/-- A response. [log 173 DEDUCED] -/
def respBytes (op tag : Nat) (st : Status) (pay : Bytes) : Bytes :=
  toLe 2 op ++ toLe 1 st.code ++ zeros 1 ++ toLe 4 tag ++ toLe 4 pay.length ++ zeros 4 ++ pay

/-- The island sets DONE and clears BUSY. -/
def deliverMbx (f : Nat) (resp : Bytes) (s : State) : State :=
  let s := s.onMbx f (fun m => { m with resp := resp, busy := false, done := true, last := field resp 2 1, held := none })
  if (s.fn f).mbx.irqEn then signal f 0 s else s

/-- Answer function f's request; FIXED_MBX holds the response back. -/
def reply (f op tag : Nat) (st : Status) (pay : Bytes) (s : State) : State :=
  let r := respBytes op tag st pay
  if !(s.fn f).mbx.busy then s
  else if fixedMbx s f then s.onMbx f (fun m => { m with held := some r })
  else deliverMbx f r s

/-- A MODEL_LOAD of function f is in progress. -/
def loading (s : State) (f : Nat) : Bool :=
  (List.range 8).any (fun k => match (s.shelf k).load with | none => false | some l => l.fn == f)

/-- The island can take a request of function f with opcode op. [log 169 DEDUCED, 172 DESIGN CHOICE] -/
def mbxWaits (s : State) (f op : Nat) : Bool :=
  let m := (s.fn f).mbx
  fnExists s f && m.busy && m.held.isNone && !loading s f && reqOp m == op && (!(s.dev.halted || s.host.noflit) || op == 1)

/-- What the island does with a request: the status, the response's payload, and the state. -/
abbrev Served := Status × Bytes × State

/-- The island serves a request of function f with opcode op (R410-R412): LOCKDOWN, the header, PF-only opcodes and undefined
shelves come first. `act` acts on the payload. [log 171 DEDUCED] -/
def serve (f op : Nat) (pfOnly : Bool) (act : Bytes → State → Served) (s : State) : State :=
  if mbxWaits s f op then
    let m := (s.fn f).mbx
    let tag := reqTag m
    if s.isl.lockdown && op != 1 then reply f op tag .tamperAbort [] s
    else if !reqOk m then reply f op tag .paramUnsupported [] s
    else if pfOnly && f != 0 then reply f op tag .deniedAttribute [] s
    else if !fnServed s f && op != 1 then reply f op tag .paramUnsupported [] s
    else
      let (st, pay, s) := act (reqPay m) s
      reply f op tag st pay s
  else s

/-- The same for a request whose response comes later where `act` answers none. [log 171 DEDUCED] -/
def serveLater (f op : Nat) (act : Bytes → State → Option Served × State) (s : State) : State :=
  if mbxWaits s f op then
    let m := (s.fn f).mbx
    let tag := reqTag m
    if s.isl.lockdown then reply f op tag .tamperAbort [] s
    else if !reqOk m || !fnServed s f then reply f op tag .paramUnsupported [] s
    else match act (reqPay m) s with
      | (none, s) => s
      | (some (st, pay, s), _) => reply f op tag st pay s
  else s

/-- The opcodes of R411 and R493. [log 163 DESIGN CHOICE] -/
def opcodes : List Nat :=
  [0x0001, 0x0002, 0x0101, 0x0102, 0x0103, 0x0104, 0x0105, 0x0106, 0x0201, 0x0202, 0x0203, 0x0204, 0x0210, 0x0211,
   0x0301, 0x0302, 0x0303, 0x0304, 0x0305, 0x0306, 0x0307, 0x0401, 0x0402, 0x0403, 0x0404]

/-- A write of MBX_CTL (R409); a request with an undefined opcode is answered at once (R411). [log 163 DESIGN CHOICE, 169 DEDUCED] -/
def mbxCtlWrite (f : Nat) (v : Word) (s : State) : State :=
  let s := s.onMbx f (fun m => { m with irqEn := bit v 1 })
  if !bit v 0 then s
  else if (s.fn f).mbx.busy then s.onMbx f (fun m => { m with overrun := true })
  else
    let s := s.onMbx f (fun m => { m with busy := true, done := false, goAt := s.clk, held := none })
    let m := (s.fn f).mbx
    if opcodes.contains (reqOp m) || s.dev.halted || s.host.noflit then s
    else reply f (reqOp m) (reqTag m) (if s.isl.lockdown then .tamperAbort else .paramUnsupported) [] s

/-- A write into the request buffer. -/
def mbxReqWrite (f off : Nat) (v : Bytes) (s : State) : State :=
  s.onMbx f (fun m => if m.busy then { m with overrun := true } else { m with req := bufPut mbxSize m.req off v })

/-- MAILBOX_FIXED_RELEASE (R461): a response that FIXED_MBX holds back is released 20 ms after GO, or at the next multiple of
20 ms after GO. -/
def execMailboxFixedRelease (f : BitVec 4) (s : State) : Out :=
  .next (
    let m := (s.fn f.toNat).mbx
    match m.held with
    | none => s
    | some r =>
      let step := 20_000_000
      let n := max 1 ((s.clk - m.goAt + step - 1) / step)
      deliverMbx f.toNat r (advanceClk (m.goAt + n * step) s))

/-! ### INFO and ECHO (R411) -/

/-- STATE code of a TDI. -/
def TdiState.code : TdiState → Nat | .unlocked => 0 | .locked => 1 | .run => 2 | .error => 3

/-- INFO's payload. -/
def infoBytes (s : State) (f : Nat) : Bytes :=
  toLe 8 devId ++ toLe 1 f ++ toLe 1 (if f = 0 then 0xFF else f - 1) ++ toLe 1 s.profile ++ toLe 1 s.lcs ++
  toLe 1 (b2n (f != 0 && (s.shelf (f - 1)).conf)) ++ toLe 1 (if f = 0 then 0 else (s.tdi (f - 1)).state.code) ++ zeros 2

/-- INFO. -/
def execInfo (f : BitVec 4) (s : State) : Out := .next (serve f.toNat 1 false (fun _ s => (.ok, infoBytes s f.toNat, s)) s)

/-- ECHO. -/
def execEcho (f : BitVec 4) (s : State) : Out := .next (serve f.toNat 2 false (fun p s => (.ok, p, s)) s)

end Sys2Proof.Machine
end

