-- ==== Sys2Proof/Machine/Island.lean ====
section
/-!
DEFINITION. The chest's management (R474-R482, R493, R494): loads, replacement, retirement, queries and public keys;
attestation requests and session keys (R487, R489).
-/
namespace Sys2Proof.Machine

/-! ### Forms of keys (R476) -/

/-- Bytes of a key of a kind. -/
def kindBytes (k : Nat) : Nat := match k with | 6 => 48 | 8 => 97 | _ => 32

/-- The usages that a kind permits, as a mask. -/
def kindUsages (k : Nat) : Nat :=
  match k with
  | 1 => 0x1F | 2 => 0x90 | 3 => 0x10 | 4 => 0x20 | 5 => 0x20 | 6 => 0x20 | 7 => 0x20 | 8 => 0x40 | 9 => 0x40
  | _ => 0

/-- The public key of an asymmetric private kind. -/
def publicKey (kind : Nat) (key : Bytes) : Bytes :=
  match kind with
  | 3 => x25519 key basePoint
  | 4 => edPub key
  | 5 => p256.uncompressed (p256.pub (beNat key))
  | 6 => p384Pub key
  | 7 => mlDsa65.pub key
  | _ => []

/-- The block B of R479. -/
def katBlock (slot gen : Nat) : Bytes := toLe 4 slot ++ toLe 4 gen ++ List.replicate 8 0x5A

/-- The known-answer value of a key (R479). -/
def katOf (slot gen kind : Nat) (key : Bytes) : Bytes :=
  match kind with
  | 1 => aes256 key (katBlock slot gen)
  | 2 => (hmac256 key (katBlock slot gen)).take 16
  | 8 => (sha3 key).take 16
  | 9 => (sha3 key).take 16
  | _ => (sha3 (publicKey kind key)).take 16

/-! ### Rights (R480) -/

/-- Function f manages slots of an owner. -/
def canManage (s : State) (f owner : Nat) : Bool :=
  if f = 0 then owner == 15 || (decide (owner < 8) && !(s.shelf owner).conf) else owner + 1 == f

/-- The owner of a slot, if it holds a half. -/
def Slot.owner (x : Slot) : Option Nat := x.cur.map Half.owner

/-- Function f may manage slot n; a slot that is EMPTY belongs to the pool. [log 203 DEDUCED] -/
def mayManage (s : State) (f n : Nat) : Bool :=
  decide (16 ≤ n) && (match (s.slot n).owner with | none => true | some o => canManage s f o)

/-- Slots that shelf k holds. -/
def slotsHeld (s : State) (k : Nat) : Nat := (s.chest.filter (fun e => decide (16 ≤ e.1) && e.2.owner == some k)).length

/-- Both words agree but for GEN. -/
def sameAttr (a b : Word) : Bool := bits a 31 0 == bits b 31 0

/-! ### Loads (R479) -/

/-- The checks of a load before its known answer: the status that refuses it. [log 204 DEDUCED, 205 DEDUCED] -/
def loadRefused (s : State) (f n : Nat) (attr : Word) (len : Nat) : Option Status :=
  let h : Half := { key := [], attr := attr }
  let x := s.slot n
  if !decide (16 ≤ n) then some .deniedAttribute
  else if bits attr 31 30 != 0 || h.gen == 0 || !decide (1 ≤ h.kind) || !decide (h.kind ≤ 9) || len != kindBytes h.kind ||
      h.usage &&& kindUsages h.kind != h.usage || (decide (8 ≤ h.owner) && h.owner != 15) then some .paramUnsupported
  else if !canManage s f h.owner || !mayManage s f n then some .deniedAttribute
  else match x.cur, x.prev with
    | none, _ => if decide (h.owner < 8) && decide (64 ≤ slotsHeld s h.owner) then some .paramUnsupported else none
    | some _, some _ => some .paramUnsupported
    | some c, none => if sameAttr c.attr attr && decide (c.gen < h.gen) then none else some .paramUnsupported

/-- The shadow half becomes the current half. -/
def moveCurrent (n : Nat) (h : Half) (s : State) : State :=
  s.onSlot n (fun x => { x with cur := some h, prev := x.cur, prevPages := x.curPages, curPages := 0 })

/-- A load with a known-answer value. [log 204 DEDUCED] -/
def loadKey (f n : Nat) (attr : Word) (key kat : Bytes) (s : State) : Status × State :=
  match loadRefused s f n attr key.length with
  | some st => (st, s)
  | none =>
    let h : Half := { key := key, attr := attr }
    if katOf n h.gen h.kind key = kat then (.ok, moveCurrent n h s) else (.verdictReject, s)

/-- Mailbox requests of function f: the key use of its master, for its shelf. -/
def mbxUse (f : Nat) (usages kinds : List Nat) : KeyUse :=
  { usages := usages, kinds := kinds, master := if f = 0 then .pf else .vf, shelf := fnShelf f }

/-! ### KEY_GENERATE, KEY_LOAD (R479, R493, R494) -/

/-- A fresh key of a kind from the TRNG. [log 199 DESIGN CHOICE] -/
def freshKey (kind : Nat) (s : State) : Bytes × State :=
  let (b, s) := drawBytes 64 s
  (match kind with | 5 => p256Scalar b | 6 => p384Scalar b | _ => b.take 32, s)

/-- KEY_GENERATE: a key of a slot is drawn in the island (R479). [log 206 DEDUCED] -/
def keyGenerate (f : Nat) (p : Bytes) (s : State) : Served :=
  let n := field p 0 1
  let attr := BitVec.ofNat 64 (field p 8 8)
  let kind := bits attr 25 22
  if !zeroAt p 1 7 || kind == 8 || kind == 9 then (.paramUnsupported, [], s)
  else match loadRefused s f n attr (kindBytes kind) with
    | some st => (st, [], s)
    | none =>
      let (key, s) := freshKey kind s
      (.ok, publicKey kind key, moveCurrent n { key := key, attr := attr } s)

/-- KEY_GENERATE (R479). -/
def execKeyGenerate (f : BitVec 4) (s : State) : Out := .next (serve f.toNat 0x0101 false (keyGenerate f.toNat) s)

/-- KEY_LOAD: a wrapped key is opened into a slot (R479, R494). [log 204 DEDUCED] -/
def keyLoad (f : Nat) (p : Bytes) (s : State) : Served :=
  let n := field p 0 1
  let len := field p 3 1
  let attr := BitVec.ofNat 64 (field p 8 8)
  let kind := bits attr 25 22
  let data := slice p 0x40 len
  let finish (key : Bytes) (s : State) : Served :=
    let (st, s) := loadKey f n attr key (slice p 0x10 16) s
    (st, [], s)
  if !zeroAt p 4 4 || !zeroAt p 0x2C 4 || data.length != len then (.paramUnsupported, [], s)
  else match field p 1 1 with
    | 0 => if kind == 8 || kind == 9 then finish data s else (.paramUnsupported, [], s)
    | 1 =>
      match bindCur s (field p 2 1) (mbxUse f [uUnwrap] [1]) with
      | .error st => (st, [], s)
      | .ok w =>
        match gcmOpen w.key (slice p 0x20 12) (p.take 0x20) data (slice p 0x30 16) with
        | none => (.verdictReject, [], s)
        | some key => finish key s
    | _ => (.paramUnsupported, [], s)

/-- KEY_LOAD (R479, R494). -/
def execKeyLoad (f : BitVec 4) (s : State) : Out := .next (serve f.toNat 0x0102 false (keyLoad f.toNat) s)

/-! ### KEY_RETIRE, KEY_CLEAR (R481) -/

/-- RETIRE of slot n: the status, and the slot SINGLE with its previous half's generation retired. [log 207 DEDUCED] -/
def retireKey (n : Nat) (force : Bool) (s : State) : Status × State :=
  let x := s.slot n
  match x.cur, x.prev with
  | some _, some h =>
    if x.prevPages = 0 ∨ force then (.ok, s.onSlot n (fun x => { x with prev := none, prevPages := 0, retired := max x.retired h.gen }))
    else (.paramUnsupported, s)
  | _, _ => (.paramUnsupported, s)

/-- KEY_RETIRE: the previous half of a slot goes (R481). [log 203 DEDUCED] -/
def keyRetire (f : Nat) (p : Bytes) (s : State) : Served :=
  let n := field p 0 1
  if !mayManage s f n then (.deniedAttribute, [], s)
  else
    let (st, s) := retireKey n (nbit (field p 1 1) 0) s
    (st, [], s)

/-- KEY_RETIRE (R481). -/
def execKeyRetire (f : BitVec 4) (s : State) : Out := .next (serve f.toNat 0x0103 false (keyRetire f.toNat) s)

/-- CLEAR of slot n. [log 207 DEDUCED] -/
def clearKey (n : Nat) (force : Bool) (s : State) : Status × State :=
  let x := s.slot n
  if (x.curPages = 0 ∧ x.prevPages = 0) ∨ force then
    let top := ([x.cur, x.prev].filterMap id |>.map Half.gen).foldl max x.retired
    (.ok, s.onSlot n (fun _ => { retired := top }))
  else (.paramUnsupported, s)

/-- KEY_CLEAR: the slot is emptied, and its generations stay retired (R481). [log 203 DEDUCED] -/
def keyClear (f : Nat) (p : Bytes) (s : State) : Served :=
  let n := field p 0 1
  if !mayManage s f n then (.deniedAttribute, [], s)
  else
    let (st, s) := clearKey n (nbit (field p 1 1) 0) s
    (st, [], s)

/-- KEY_CLEAR (R481). -/
def execKeyClear (f : BitVec 4) (s : State) : Out := .next (serve f.toNat 0x0104 false (keyClear f.toNat) s)

/-! ### KEY_QUERY, PUBKEY_GET (R493) -/

/-- STATE, attribute word and counters of a slot. -/
def queryBytes (x : Slot) : Bytes :=
  toLe 1 (b2n x.cur.isSome + b2n x.prev.isSome) ++ zeros 7 ++ toLe 8 (match x.cur with | none => 0 | some h => h.attr.toNat) ++
  toLe 4 (match x.prev with | none => 0 | some h => h.gen) ++ toLe 4 x.retired ++ toLe 4 x.curPages ++ toLe 4 x.prevPages

/-- Device slots are of owner 0xF. [log 203 DEDUCED] -/
def mayQuery (s : State) (f n : Nat) : Bool := mayManage s f n || (decide (n < 16) && f == 0)

/-- KEY_QUERY: what a slot holds, without its key (R475, R493). [log 203 DEDUCED] -/
def keyQuery (f : Nat) (p : Bytes) (s : State) : Served :=
  let n := field p 0 1
  if mayQuery s f n then (.ok, queryBytes (s.slot n), s) else (.deniedAttribute, [], s)

/-- KEY_QUERY. -/
def execKeyQuery (f : BitVec 4) (s : State) : Out := .next (serve f.toNat 0x0105 false (keyQuery f.toNat) s)

/-- PUBKEY_GET: the public key of a slot (R493). [log 203 DEDUCED] -/
def pubkeyGet (f : Nat) (p : Bytes) (s : State) : Served :=
  let n := field p 0 1
  if !decide (n < 4) && !mayManage s f n then (.deniedAttribute, [], s)
  else match (s.slot n).cur with
    | none => (.paramUnsupported, [], s)
    | some h =>
      let kind := if n = 0 ∨ n = 3 then 7 else if n = 1 ∨ n = 2 then 6 else h.kind
      if kind == 8 || kind == 9 then (.ok, h.key, s)
      else if 3 ≤ kind ∧ kind ≤ 7 then (.ok, publicKey kind h.key, s)
      else (.paramUnsupported, [], s)

/-- PUBKEY_GET. -/
def execPubkeyGet (f : BitVec 4) (s : State) : Out := .next (serve f.toNat 0x0106 false (pubkeyGet f.toNat) s)

/-! ### Session keys and ATTEST (R487, R489) -/

/-- The session slot of function f. [log 202 DEDUCED] -/
def sessSlot (f : Nat) : Nat := 4 + f

/-- A session key is drawn for function f; its public key and expiry. [log 199 DESIGN CHOICE] -/
def newSession (f : Nat) (nonce : Bytes) (s : State) : Bytes × Nat × State :=
  let (key, s) := drawBytes 32 s
  let expiry := s.epoch + 300_000_000_000
  let s := fillSlot (sessSlot f) key s
  (x25519 key basePoint, expiry, s.onIsl (fun i => { i with sessions := tput i.sessions f { key := key, nonce := nonce, expiry := expiry } }))

/-- The session key of function f is zeroised. -/
def endSession (f : Nat) (s : State) : State :=
  (s.onIsl (fun i => { i with sessions := tdel i.sessions f })).onSlot (sessSlot f) (fun x => { x with cur := none })

/-- Function f may ask for a report of a scope. -/
def scopeOk (f scope : Nat) : Bool := f == 0 || scope + 1 == f

/-- ATTEST: a report of a scope over a nonce, signed (R487). [log 208 DEDUCED] -/
def attest (f : Nat) (p : Bytes) (s : State) : Served :=
  let nonce := slice (p ++ zeros 32) 0 32
  let scope := field p 32 1
  if !scopeOk f scope then (.deniedAttribute, [], s)
  else if scope != 0xFF && !decide (scope < 8) then (.paramUnsupported, [], s)
  else
    let (eph, expiry, s) := if nbit (field p 33 1) 0 then newSession f nonce s else (zeros 32, 0, s)
    match report scope nonce eph expiry s with
    | (none, s) => (.deniedAttribute, [], s)
    | (some r, s) => (.ok, r, s)

/-- ATTEST (R487). -/
def execAttest (f : BitVec 4) (s : State) : Out := .next (serve f.toNat 0x0201 false (attest f.toNat) s)

/-- ATTEST_LAST: the last report of a scope (R487). [log 206 DEDUCED] -/
def attestLast (f : Nat) (p : Bytes) (s : State) : Served :=
  let scope := field p 0 1
  if !scopeOk f scope then (.deniedAttribute, [], s)
  else if decide (8 ≤ scope) || (s.shelf scope).attest.isEmpty then (.paramUnsupported, [], s)
  else (.ok, (s.shelf scope).attest, s)

/-- ATTEST_LAST (R487). -/
def execAttestLast (f : BitVec 4) (s : State) : Out := .next (serve f.toNat 0x0203 false (attestLast f.toNat) s)

/-! ### HPKE (RFC 9180, base mode, DHKEM(X25519, HKDF-SHA256), HKDF-SHA256, AES-256-GCM) -/

def hpkeKem : Bytes := ascii "KEM" ++ toBe 2 0x20
def hpkeSuite : Bytes := ascii "HPKE" ++ toBe 2 0x20 ++ toBe 2 1 ++ toBe 2 2

/-- LabeledExtract. -/
def hpkeExtract (suite salt label ikm : Bytes) : Bytes := hmac256 salt (ascii "HPKE-v1" ++ suite ++ label ++ ikm)

/-- LabeledExpand. -/
def hpkeExpand (suite prk label info : Bytes) (n : Nat) : Bytes :=
  (hkdfExpand hmac256 prk (toBe 2 n ++ ascii "HPKE-v1" ++ suite ++ label ++ info) ((n + 31) / 32) [] 1).take n

/-- Open a single message with an empty AAD; an all-zero Diffie-Hellman output opens nothing (RFC 9180, 7.1.4). [log 209 DEDUCED] -/
def hpkeOpen (sk enc info ct : Bytes) : Option Bytes :=
  if (x25519 sk enc).all (· == 0) then none
  else
    let eae := hpkeExtract hpkeKem [] (ascii "eae_prk") (x25519 sk enc)
    let shared := hpkeExpand hpkeKem eae (ascii "shared_secret") (enc ++ x25519 sk basePoint) 32
    let ctx := [0] ++ hpkeExtract hpkeSuite [] (ascii "psk_id_hash") [] ++ hpkeExtract hpkeSuite [] (ascii "info_hash") info
    let secret := hpkeExtract hpkeSuite shared (ascii "secret") []
    let key := hpkeExpand hpkeSuite secret (ascii "key") ctx 32
    let nonce := hpkeExpand hpkeSuite secret (ascii "base_nonce") ctx 12
    gcmOpen key nonce [] (ct.take (ct.length - 16)) (ct.drop (ct.length - 16))

/-- KEY_RELEASE (R489): the session key opens the message, and the key in it is loaded. -/
def keyRelease (f : Nat) (p : Bytes) (s : State) : Served :=
  match tget none (s.isl.sessions.map (fun e => (e.1, some e.2))) f with
  | none => (.deniedAttribute, [], s)
  | some x =>
    let s' := endSession f s
    if x.expiry < s.epoch then (.deniedAttribute, [], s')
    else match hpkeOpen x.key (slice p 0 32) (ascii "KA2 key release" ++ toLe 8 devId ++ x.nonce) (slice p 32 80) with
      | none => (.verdictReject, [], s')
      | some m =>
        let attr := BitVec.ofNat 64 (field m 0x30 8)
        let n := kindBytes (bits attr 25 22)
        if !zeroAt m 0x39 7 || !zeroAt m n (48 - n) then (.paramUnsupported, [], s')
        else
          let (st, s') := loadKey f (field m 0x38 1) attr (m.take n) (slice p 112 16) s'
          (st, [], s')

/-- KEY_RELEASE (R489). -/
def execKeyRelease (f : BitVec 4) (s : State) : Out := .next (serve f.toNat 0x0202 false (keyRelease f.toNat) s)

/-! ### Certificates (R470, R493) -/

/-- The chain in board flash. -/
def State.certChain (s : State) : Option Bytes := s.isl.cert.or Config.bootCert

def certGet (p : Bytes) (s : State) : Served :=
  let off := field p 4 4
  match s.certChain with
  | none => (.paramUnsupported, [], s)
  | some c =>
    match field p 0 1 with
    | 0 => (.ok, (c.drop off).take 4080, s)
    | 1 => (.ok, ((c ++ s.isl.alias_).drop off).take 4080, s)
    | _ => (.paramUnsupported, [], s)

/-- CERT_GET. -/
def execCertGet (f : BitVec 4) (s : State) : Out := .next (serve f.toNat 0x0204 false certGet s)

end Sys2Proof.Machine
end

