-- ==== Sys2Proof/Machine/Firmware.lean ====
section
/-!
DEFINITION. Firmware images (R471-R473), tokens and the life cycle (R463-R466), and the certificate chain (R493).
-/
namespace Sys2Proof.Machine

/-! ### The PF's Cellar -/

/-- One past the last Cellar address. -/
def cellarEnd : Nat := 8 * stackSize

/-- Read n bytes at a device Cellar address: none outside the Cellar. [log 210 DESIGN CHOICE] -/
def pfRead (d n : Nat) (s : State) : Option (Status × Bytes) × State :=
  if cellarEnd < d + n then (none, s)
  else
    let ls := linesOf d n
    let stop (x : Nat) : Bool := match lineMark s x with | none => false | some m => m.stops
    let bad := ls.find? stop
    let b := memRead s.mem d n
    let s' := (match bad with | none => ls | some x => ls.takeWhile (fun y => y != x) ++ [x]).foldl (fun s x => noteLine x s) s
    match bad.bind (lineMark s) with
    | some .poisoned => (some (.poisoned, b), s')
    | some .uncorrectable => (some (.uncorrectable, b), s')
    | some .corrected => (some (.ok, b), s')
    | none => (some (.ok, b), s')

/-! ### Images (R471, R472) -/

/-- The first check of R472 that an image fails, as S4's CAUSE; 0 where it passes. -/
def fwCause (s : State) (b : Bytes) : Nat :=
  let i := fwKeyIndex b
  let msg := b.take 0xC00
  let body := (b.drop 0x2000).take (fwLen b)
  if field b 0 4 ≠ 0x4957464B ∨ field b 4 2 ≠ 1 ∨ !zeroAt b 6 2 ∨ !zeroAt b 0x19 7 ∨ !zeroAt b 0x50 176 ∨ !zeroAt b 0xB81 127 ∨
      !zeroAt b 0x1E73 397 ∨ 64 < fwSvn b ∨ 2 ^ 24 < fwLen b ∨ 3 < i ∨ body.length ≠ fwLen b then 1
  else if sha3Wide (slice b 0x100 2592 ++ slice b 0xB20 97) ≠ Config.romKeyDigest i then 2
  else if s.keyRevoked i then 3
  else if !p384.verify (some (beNat (slice b 0xB21 48), beNat (slice b 0xB51 48))) (sha384 msg) (slice b 0xC00 96) ||
      !mlDsa87.verify (slice b 0x100 2592) msg (slice b 0xC60 4627) then 4
  else if sha3Wide body ≠ slice b 0x20 48 then 5
  else if fwSvn b < s.fuseSvn then 6
  else 0

/-- What board flash holds in image slot n (R582). [log 275 DESIGN CHOICE] -/
def State.flashImage (s : State) (n : Nat) : Bytes := tget (Config.bootFlash n) s.isl.flash n

/-- The flash slot marked primary. -/
def State.primary (s : State) : Nat := s.isl.primary.getD (Config.bootPrimary % 2)

/-- FW_UPDATE: an image in platform memory is checked and written to the other flash slot (R473). [log 210 DESIGN CHOICE] -/
def fwUpdate (p : Bytes) (s : State) : Served :=
  match pfRead (field p 0 8) (field p 8 8) s with
  | (none, s) => (.paramUnsupported, [], s)
  | (some (st, b), s) =>
    if st ≠ .ok then (st, [], s)
    else if fwCause s b ≠ 0 then (.verdictReject, [], s)
    else
      let n := 1 - s.isl.fwFlash
      (.ok, [], s.onIsl (fun i => { i with flash := tput i.flash n b, primary := some n, lastPass := none }))

/-- FW_UPDATE (R473, R583). -/
def execFwUpdate (f : BitVec 4) (s : State) : Out := .next (serve f.toNat 0x0301 true fwUpdate s)

/-- FW_COMMIT_SVN: fuses are blown up to the SVN of the running image (R473). [log 212 DEDUCED] -/
def fwCommitSvn (s : State) : Served :=
  let v := fwSvn s.isl.fwImage
  if s.isl.debug || !decide (s.fuseSvn < v) || s.isl.fellBack then (.paramUnsupported, [], s)
  else (.ok, toLe 1 v, s.onIsl (fun i => { i with svnFuse := some v }))

/-- FW_COMMIT_SVN (R473). -/
def execFwCommitSvn (f : BitVec 4) (s : State) : Out := .next (serve f.toNat 0x0302 true (fun _ s => fwCommitSvn s) s)

/-! ### Tokens (R465) -/

/-- LCS_NONCE (R465). -/
def execLcsNonce (f : BitVec 4) (s : State) : Out :=
  .next (serve f.toNat 0x0303 true (fun _ s =>
    let (b, s) := drawBytes 32 s
    (.ok, b, s.onIsl (fun i => { i with nonce := some (b, s.epoch) }))) s)

/-- A token is signed, for this device and nonce, and of a kind. [log 201 DESIGN CHOICE, 213 DEDUCED] -/
def tokenOk (s : State) (b : Bytes) (kind : Nat) : Bool :=
  let body := b.take 64
  let i := field b 0x30 1
  let ec := Config.fwEcPub i
  field b 0 4 == 0x4E4B544B && field b 4 2 == 1 && field b 6 1 == kind && zeroAt b 0x31 15 && decide (i < 4) && !s.keyRevoked i &&
  field b 8 8 == devId &&
  (match s.isl.nonce with
    | none => false
    | some n => slice b 0x10 32 == n.1 && decide (s.epoch ≤ n.2 + 600_000_000_000)) &&
  p384.verify (some (beNat (slice ec 1 48), beNat (slice ec 49 48))) (sha384 body) (slice b 64 96) &&
  mlDsa87.verify (Config.fwMlPub i) body (slice b 160 4627)

/-- Act on the token at a PF Cellar address: its ARG where it is good. The nonce serves one token. [log 210 DESIGN CHOICE, 213 DEDUCED] -/
def withToken (kind addr : Nat) (act : Nat → State → Status × State) (s : State) : Served :=
  match pfRead addr 4787 s with
  | (none, s) => (.paramUnsupported, [], s)
  | (some (st, b), s) =>
    if st ≠ .ok then (st, [], s)
    else
      let ok := tokenOk s b kind
      let s := s.onIsl (fun i => { i with nonce := none })
      if ok then
        let (st, s) := act (field b 7 1) s
        (st, [], s)
      else (.deniedAttribute, [], s)

/-- The transitions of R464 that LCS_ADVANCE makes. -/
def lcsAllowed (s : State) (dst : Nat) : Bool :=
  let from_ := s.lcsFuse
  match dst with
  | 2 => from_ == 1
  | 3 => from_ == 2 && s.certChain.isSome
  | 4 => from_ == 3
  | 5 => from_ != 5
  | _ => false

/-- The life-cycle state advances to dst where the table of R463 allows it. [log 213 DEDUCED] -/
def lcsAdvance (dst : Nat) (s : State) : Status × State :=
  if lcsAllowed s dst then (.ok, s.onIsl (fun i => { i with lcsFuse := some dst, rootGone := i.rootGone || dst == 5 }))
  else (.paramUnsupported, s)

/-- LCS_ADVANCE (R464, R465). -/
def execLcsAdvance (f : BitVec 4) (s : State) : Out :=
  .next (serve f.toNat 0x0304 true (fun p s => withToken 1 (field p 0 8) lcsAdvance s) s)

/-- DEBUG_SET (R466): with no token, an ordinary start is requested. [log 213 DEDUCED] -/
def debugSet (p : Bytes) (s : State) : Served :=
  if field p 0 8 = 0 then (.ok, [], s.onIsl (fun i => { i with debugReq := false }))
  else withToken 2 (field p 0 8) (fun _ s =>
    if s.lcs = 1 ∨ s.lcs = 4 then (.ok, s.onIsl (fun i => { i with debugReq := true })) else (.paramUnsupported, s)) s

def execDebugSet (f : BitVec 4) (s : State) : Out := .next (serve f.toNat 0x0305 true debugSet s)

/-- FW_KEY_REVOKE (R473): refused for the last index left. [log 213 DEDUCED] -/
def fwKeyRevoke (i : Nat) (s : State) : Status × State :=
  let left := (List.range 4).filter (fun j => !s.keyRevoked j)
  if i < 4 ∧ left ≠ [i] then (.ok, s.onIsl (fun x => { x with revoked := insSet i x.revoked })) else (.paramUnsupported, s)

def execFwKeyRevoke (f : BitVec 4) (s : State) : Out :=
  .next (serve f.toNat 0x0307 true (fun p s => withToken 3 (field p 0 8) fwKeyRevoke s) s)

/-! ### CERT_INSTALL (R493) -/

/-- CERT_INSTALL: the chain in platform memory is checked and stored (R493). [log 210 DESIGN CHOICE] -/
def certInstall (p : Bytes) (s : State) : Served :=
  if 0x10000 < field p 8 8 then (.paramUnsupported, [], s)
  else match pfRead (field p 0 8) (field p 8 8) s with
    | (none, s) => (.paramUnsupported, [], s)
    | (some (st, b), s) =>
      if st ≠ .ok then (st, [], s)
      else match (s.slot 2).cur with
        | none => (.verdictReject, [], s)
        | some h =>
          if Config.certKey b = some (p384Pub h.key) then (.ok, [], s.onIsl (fun i => { i with cert := some b }))
          else (.verdictReject, [], s)

/-- CERT_INSTALL. -/
def execCertInstall (f : BitVec 4) (s : State) : Out := .next (serve f.toNat 0x0306 true certInstall s)

end Sys2Proof.Machine
end

