-- ==== Sys2Proof/Machine/Aperture.lean ====
section
/-!
DEFINITION. Accesses of host software: which reach the device at all (R400, R403, R414, R530), and the Cellar aperture BAR2 (R406, R423,
R430, R436, R437).
-/
namespace Sys2Proof.Machine

/-! ### Which accesses reach the device -/

/-- The device takes accesses of the host: it is powered, no start is held, and the link is up. [log 175 DEDUCED] -/
def linked (s : State) : Bool := s.dev.pwrgd && s.dev.perst && s.dev.held.isNone && decide (0 < s.host.rate)

/-- A function takes accesses of the host to its BARs: the link is up, the function exists, and it is not in D3hot (R402). [log 168 PRESUMED] -/
def responds (s : State) (f : Nat) : Bool := linked s && fnExists s f && !(s.fn f).d3hot

/-- Only configuration space, the Global block and INFO respond (R400, R530). [log 169 DEDUCED, 175 DEDUCED] -/
def globalOnly (s : State) : Bool := s.dev.halted || s.host.noflit

/-- What TDISP says of an access of function f with the T bit on a stream, or without it (R414). -/
inductive Tee where
  | pass | drop | nonTee
  deriving DecidableEq, Repr

/-- R414. [log 171 DEDUCED] -/
def teeCheck (s : State) (f : Nat) (t : Option (BitVec 3)) : Tee :=
  if f = 0 then .pass
  else
    let x := s.tdi (f - 1)
    match x.state with
    | .unlocked => .pass | .locked => .pass
    | .run => match t with | some n => if n.toNat = x.stream then .pass else .nonTee | none => .nonTee
    | .error => .drop

/-- Count a request refused under R414. -/
def countNonTee (f : Nat) (s : State) : State := s.onCounts (f - 1) (fun c => { c with nonTee := sat 16 1 c.nonTee })

/-- What a read returns to function f, with the EP bit. -/
def hostReturn (b : Bytes) (ep : Bool) (s : State) : State := { s with host := { s.host with reads := (b, ep) :: s.host.reads } }

/-! ### BAR2 -/

/-- CEL_APER and HOSTS_APER. -/
def rCelAper : Nat := 0x88_0000
def rHostsAper : Nat := 0x1A48

/-- The offset in a region list of position pos of pseudo-channel p: the inverse of R427. -/
def cellarInv : List (List Nat) → Nat → Nat → Nat → Option Nat
  | [], _, _, _ => none
  | r :: rs, base, p, pos =>
    if r.contains p then some (base + (pos / 256 * r.length + r.findIdx (· == p)) * 256 + pos % 256)
    else cellarInv rs (base + r.length * pcSize) p pos

/-- The shelf and shelf-relative address of a device Cellar address. -/
def shelfAddr (s : State) (d : Nat) : Option (Nat × Nat) :=
  match pcOwner s (pcOf d) with
  | none => none
  | some k => match (s.shelf k).desc with
    | none => none
    | some x => (cellarInv (cellarRegions x) 0 (pcOf d) (d % stackSize / 0x4000 * 256 + d % 256)).map (fun a => (k, a))

/-- The pieces of an access of function f to aperture offset x, line by line: device address, length, and the shelf with the
shelf-relative address. None for an access that completes without effect (R437). [log 174 DEDUCED] -/
def apertureOf (s : State) (f x n : Nat) : Option (List (Nat × Nat × Option (Nat × Nat))) :=
  let cut (a : Nat) : List (Nat × Nat) := (linesOf a n).map (fun l => (max a l, min (a + n) (l + 64) - max a l))
  if (s.fn f).bar2Size < x + n then none
  else if f = 0 then
    let a := bits (s.dreg rCelAper) 9 0 * 2 ^ 30 + x
    if cellarEnd < a + n then none else some ((cut a).map (fun e => (e.1, e.2, shelfAddr s e.1)))
  else
    let h := s.shelf (f - 1)
    let a := bits (h.reg rHostsAper) 9 0 * 2 ^ 30 + x
    if h.cellarSize < a + n then none
    else some ((cut a).filterMap (fun e => (dev? s (f - 1) e.1).map (fun d => (d, e.2, some (f - 1, e.1)))))

/-- A piece lies in a line of a retired pseudo-channel (R436). -/
def retiredAt (s : State) (d : Nat) : Bool := nbit (s.stack (pcOf d / 64)).retired (pcOf d % 64)

/-- A piece meets a range of shelf k that is closed to host software (R406); for the release descriptor and its buffers, R288. [log 183 DEDUCED] -/
def closedToHost (s : State) (write : Bool) (k a n : Nat) : Bool :=
  let h := s.shelf k
  let hits (r : Nat × Nat) : Bool := overlap a n r.1 r.2
  (hostClosed s k).any hits ||
    (h.round.active && !h.rel.relDesc.isEmpty &&
      (if write then hits (h.round.desc.releaseAddr, 64) || (bufClosed h).any hits
       else h.rel.writing && hits (relBuf h.rel.relDesc (inactiveBuf h.rel.relDesc))))

/-- What stands in the way of an access: a retired line, or a closed range of a shelf. [log 173 DEDUCED] -/
def apertureBlock (s : State) (write : Bool) (l : List (Nat × Nat × Option (Nat × Nat))) : Option (State → State) :=
  match l.find? (fun e => retiredAt s e.1) with
  | some e => some (fun s => s.onStack (pcOf e.1 / 64) (fun y => { y with retiredAcc := sat 16 1 y.retiredAcc }))
  | none =>
    match l.filterMap (fun e => e.2.2.bind (fun p => if closedToHost s write p.1 p.2 e.2.1 then some p.1 else none)) with
    | [] => none
    | k :: _ => some (fun s => s.onCounts k (fun c =>
        if write then { c with bar2Disc := sat 16 1 c.bar2Disc } else { c with bar2Zero := sat 16 1 c.bar2Zero }))

/-- Read the pieces, up to the first line that cannot be read. [log 179 DEDUCED] -/
def aperturePieces : List (Nat × Nat × Option (Nat × Nat)) → State → Option Bytes × State
  | [], s => (some [], s)
  | e :: l, s =>
    let line := e.1 / 64 * 64
    let bad := match lineMark s line with | none => false | some m => m.stops
    let s' := noteLine line s
    if bad then (none, s')
    else
      let (r, s') := aperturePieces l s'
      (r.map (fun b => memRead s.mem e.1 e.2.1 ++ b), s')

/-- BAR2_READ (R437): n bytes from aperture offset x by function f, with the T bit on a stream or without. [log 168 PRESUMED, 172 DESIGN CHOICE] -/
def bar2Read (f x n : Nat) (t : Option (BitVec 3)) (s : State) : State :=
  if !responds s f || globalOnly s then s
  else if !fnServed s f then hostReturn (zeros n) false s
  else match teeCheck s f t with
    | .drop => hostReturn (zeros n) false s
    | .nonTee => hostReturn (zeros n) false (countNonTee f s)
    | .pass =>
      match apertureOf s f x n with
      | none => hostReturn (zeros n) false s
      | some l =>
        match apertureBlock s false l with
        | some count => hostReturn (zeros n) false (count s)
        | none =>
          match aperturePieces l s with
          | (some b, s) => hostReturn b false s
          | (none, s) =>
            let (b, s) := drawBytes n s
            hostReturn b true { s with host := { s.host with uncor := sat 16 1 s.host.uncor } }

def execBar2Read (f : BitVec 4) (x : Nat) (n : BitVec 13) (t : Option (BitVec 3)) (s : State) : Out :=
  .next (bar2Read f.toNat x n.toNat t s)

/-- BAR2_WRITE (R437): bytes to aperture offset x by function f. [log 168 PRESUMED, 174 DEDUCED] -/
def bar2Write (f x : Nat) (b : Bytes) (t : Option (BitVec 3)) (s : State) : State :=
  if !responds s f || globalOnly s || !fnServed s f then s
  else match teeCheck s f t with
    | .drop => s
    | .nonTee => countNonTee f s
    | .pass =>
      match apertureOf s f x b.length with
      | none => s
      | some l =>
        match apertureBlock s true l with
        | some count => count s
        | none => (l.foldl (fun e p => (putLine p.1 (e.2.take p.2.1) e.1, e.2.drop p.2.1)) (s, b)).1

def execBar2Write (f : BitVec 4) (x : Nat) (b : Bytes) (t : Option (BitVec 3)) (s : State) : Out := .next (bar2Write f.toNat x b t s)

end Sys2Proof.Machine
end

