-- ==== Sys2Proof/Machine/Power.lean ====
section
/-!
DEFINITION. Power and pace groups (R496-R516): operating points, droop and slope, the limits, and the pace packets;
the quiet clock (R458, R459).
-/
namespace Sys2Proof.Machine

def powBase : Nat := 0xC0_0000

/-- Change the power state. -/
def State.onPow (s : State) (f : Pow → Pow) : State := { s with pow := f s.pow }

/-- The clock of physical bay n. -/
def State.clkOf (s : State) (n : Nat) : BayClk := tget {} s.pow.bays n

/-- Change it. -/
def State.onClk (s : State) (n : Nat) (f : BayClk → BayClk) : State := s.onPow (fun p => { p with bays := tput p.bays n (f (s.clkOf n)) })

/-! ### Operating points (R498) -/

/-- The highest operating point. -/
def State.oppTop (s : State) : Nat := if s.dev.card then 5 else 12

def oppMhz (i : Nat) : Nat := 600 + 100 * i

/-- FMAX_MHZ and CAP_W of the profile (R5). -/
def State.fmax (s : State) : Nat := oppMhz s.oppTop
/-- CAP_W of the profile (R5). [log 188 DEDUCED] -/
def State.capTop (s : State) : Nat := if s.dev.card then 600 else 1050

/-- The voltage of a frequency, interpolated between operating points; a quiet clock has the guard band of R458. [log 215 DESIGN CHOICE] -/
def mvAt (f : Nat) (quiet : Bool) : Nat :=
  let i := (f - 600) / 100
  let v := Config.oppMv i + (Config.oppMv (i + 1) - Config.oppMv i) * ((f - 600) % 100) / 100
  if quiet then v + 40 else v

/-- The logical bay that a physical bay serves. [log 266 DEDUCED] -/
def logicalOf (s : State) (n : Nat) : Option Nat := (List.range 16).find? (fun b => s.physOf b == n)

/-- The quiet shelf that a physical bay serves. -/
def quietShelf (s : State) (n : Nat) : Option Nat :=
  ((logicalOf s n).bind (shelfOf s)).bind (fun k => match (s.shelf k).desc with | none => none | some d => if nbit d.flags 1 then some k else none)

/-- The quiet shelves. -/
def quietShelves (s : State) : List Nat :=
  (List.range 8).filter (fun k => match (s.shelf k).desc with | none => false | some d => nbit d.flags 1)

/-- The active physical bays. -/
def activeBays (s : State) : List Nat := (List.range 17).filter (fun n => (logicalOf s n).isSome)

/-! ### The group (R509, R512-R515) -/

def State.paceCfg (s : State) : Word := s.dreg (powBase + 0x400) 0x00C8_0000_0014_0520
def paceEn (s : State) : Bool := bit s.paceCfg 0
def paceFav (s : State) : Bool := bit s.paceCfg 1
def State.guardW (s : State) : Nat := bits s.paceCfg 31 16

/-- PACE_MEMBER(m). -/
def memberReg (s : State) (m : Nat) : Word := s.dreg (powBase + 0x500 + 8 * m)
/-- The valid members. -/
def memberList (s : State) : List Nat := (List.range 64).filter (fun m => bit (memberReg s m) 16)
def memberDest (s : State) (m : Nat) : Dest := s.dest (bits (memberReg s m) 15 0)
def State.member (s : State) (m : Nat) : Member := tget {} s.pow.members m
def State.onMember (s : State) (m : Nat) (f : Member → Member) : State := s.onPow (fun p => { p with members := tput p.members m (f (s.member m)) })

/-- The live members. -/
def liveMembers (s : State) : List Nat := (memberList s).filter (fun m => (s.member m).live)

/-- Live favoured members, itself included. -/
def favHeard (s : State) : Nat := ((liveMembers s).filter (fun m => (s.member m).favoured)).length + b2n (paceFav s)

/-- FAV_EXCESS (R515). -/
def favExcess (s : State) : Bool := decide (((memberList s).length + 1) / 8 < favHeard s)

/-- CAP_W. -/
def State.capW (s : State) : Nat := bits (s.dreg powBase (if s.dev.card then 600 else 950)) 15 0

/-- The effective cap (R512, R515). -/
def effCap (s : State) : Nat :=
  if paceEn s && paceFav s then
    let c := if favExcess s then 0 else (((liveMembers s).filter (fun m => !(s.member m).favoured)).map (fun m => (s.member m).ceded)).sum
    min s.capTop (s.capW + c / favHeard s)
  else s.capW

/-- G (R514). [log 219 DEDUCED] -/
def groupPoint (s : State) : Nat :=
  if paceEn s then ((liveMembers s).filterMap (fun m => (s.member m).ceiling)).foldl min s.pow.ceiling else s.pow.ceiling

/-- The operating point that the non-quiet bays run at when G is g. [log 219 DEDUCED] -/
def runPoint (s : State) (g : Nat) : Nat := if paceEn s && paceFav s then min s.pow.ceiling (g + bits s.paceCfg 6 4) else g

/-- The present operating point of the non-quiet bays: that of the fastest of them. -/
def oppNow (s : State) : Nat :=
  let l := (activeBays s).filter (fun n => (quietShelf s n).isNone)
  if l.isEmpty then runPoint s s.pow.group else ((l.map (fun n => (s.clkOf n).mhz)).foldl max 600 - 600) / 100

/-- G is computed again; a change of the operating point is counted. [log 219 DEDUCED] -/
def settleGroup (s : State) : State :=
  let g := groupPoint s
  s.onPow (fun p => { p with group := g, steps := if runPoint s g = runPoint s s.pow.group then p.steps else sat 16 1 p.steps })

/-! ### Pace packets (R510, R511) -/

/-- CEDED_W (R513). -/
def cededW (s : State) : Nat := if paceFav s then 0 else s.capW - s.guardW - s.pow.draw_

/-- A pace packet. -/
def paceBytes (s : State) (kind seq sent eff : Nat) : Bytes :=
  toBe 1 0x13 ++ toBe 1 kind ++ toBe 2 s.node ++ toBe 2 (bits s.paceCfg 47 32) ++ zeros 2 ++ toBe 4 seq ++ toBe 1 s.pow.ceiling ++
  toBe 1 (oppNow s) ++ toBe 1 (b2n (paceFav s) + 2 * b2n (match s.tim.state with | .holdover => true | .free => false | .acquiring => false | .locked => false)) ++
  zeros 1 ++ toBe 2 s.capW ++ toBe 2 s.pow.draw_ ++ toBe 2 (cededW s) ++ zeros 2 ++ toBe 8 sent ++ toBe 8 eff

/-- Send one pace packet to every member; its flow and path are open. [log 217 DEDUCED, 218 DESIGN CHOICE] -/
def sendPace (kind sent eff : Nat) (s : State) : State :=
  if paceEn s && s.tpEn then
    let seq := (s.pow.seqNo + 1) % 2 ^ 32
    let s := s.onPow (fun p => { p with seqNo := seq })
    (memberList s).foldl (fun s m =>
      let d := memberDest s m
      let c := if chanUp s d.chan then d.chan else d.alt
      if d.valid && chanUp s c then
        let (l, s) := draw 19 s
        emit c (frameOf s c d.addr (bits s.tpCfg 13 8) 0 l (bits s.tpCfg 47 32 + l % 8192) (bits s.tpCfg 31 16) (paceBytes s kind seq sent eff)) s
      else s) s
  else s

/-- The ceiling has changed: LOWER (2) or RAISE (3) goes out three times, 20 µs apart. [log 217 DEDUCED] -/
def announce (kind : Nat) (s : State) : State :=
  let now := s.epoch
  let eff := (now + bits s.paceCfg 57 48 * 1000) % 2 ^ 64
  let s := s.onPow (fun p => { p with effAt := eff })
  [0, 20_000, 40_000].foldl (fun s d => sendPace kind ((now + d) % 2 ^ 64) eff s) s

/-- The own ceiling becomes c. [log 216 DEDUCED] -/
def setCeiling (c : Nat) (s : State) : State :=
  let old := s.pow.ceiling
  let s := s.onPow (fun p => { p with ceiling := c, raise := none })
  settleGroup (if c < old then announce 2 s else if old < c then announce 3 s else s)

/-- PACE_HEARTBEAT_SEND (R511). -/
def execPaceHeartbeatSend (s : State) : Out :=
  .next (if paceEn s then
    let s := s.onPow (fun p => { p with ceded := cededW s })
    sendPace 1 s.epoch s.pow.effAt s
  else s)

/-- CEILING_RAISE_HOLD (R512): a higher ceiling has held for 10 ms. [log 216 DEDUCED] -/
def execCeilingRaiseHold (s : State) : Out :=
  .next (match s.pow.raise with
    | none => s
    | some (c, t) => setCeiling c (advanceClk (t + 10_000_000) s))

/-- Count a pace packet discarded. [log 216 DEDUCED] -/
def paceBad (s : State) : State := s.onPow (fun p => { p with bad := sat 16 1 p.bad })

/-- The member that a pace packet comes from, if the packet is accepted (R511). [log 216 DEDUCED] -/
def paceFrom (s : State) (b : Bytes) : Option Nat :=
  let kind := field b 1 1
  let seq := beNat (slice b 8 4)
  if b.length == 40 && decide (1 ≤ kind) && decide (kind ≤ 3) && beNat (slice b 4 2) == bits s.paceCfg 47 32 && zeroAt b 6 2 &&
      decide (field b 0xE 1 < 4) && zeroAt b 0xF 1 && zeroAt b 0x16 2 then
    ((memberList s).find? (fun m => (memberDest s m).valid && (memberDest s m).node == beNat (slice b 2 2))).bind (fun m =>
      match (s.member m).seq with
      | none => some m
      | some q => let d := (seq + 2 ^ 32 - q) % 2 ^ 32; if 0 < d ∧ d < 2 ^ 31 then some m else none)
  else none

/-- Take an accepted packet of member m. -/
def paceTake (m : Nat) (b : Bytes) (s : State) : State :=
  let c := field b 0xC 1
  let eff := beNat (slice b 0x20 8)
  let now := decide (eff ≤ s.epoch)
  settleGroup (s.onMember m (fun x =>
    { x with
      seq := some (beNat (slice b 8 4)), heardAt := s.clk, live := true, favoured := nbit (field b 0xE 1) 0
      ceded := if field b 1 1 = 1 then beNat (slice b 0x14 2) else x.ceded
      ceiling := if now then some c else x.ceiling
      next := if now || x.next.contains (c, eff) then x.next else x.next ++ [(c, eff)] }))

/-- PACE_PACKET_RECEIVE (R511): the frame carries a pace packet. -/
def execPacePacketReceive (chan : Nat) (fcs : Bool) (f : Bytes) (s : State) : Out :=
  .next (match basdoOf s chan fcs f with
    | none => s
    | some p =>
      if field p.bytes 0 1 = 0x13 then
        if paceEn s then (match paceFrom s p.bytes with | none => paceBad s | some m => paceTake m p.bytes s) else paceBad s
      else s)

/-- PACE_CEILING_EFFECTIVE (R514): the first ceiling that member m's entry waits for applies. -/
def execPaceCeilingEffective (m : BitVec 6) (s : State) : Out :=
  .next (match (s.member m.toNat).next with
    | [] => s
    | (c, t) :: r => settleGroup ((s.toEpoch t).onMember m.toNat (fun x => { x with ceiling := some c, next := r })))

/-- PACE_MEMBER_STALE (R511). -/
def execPaceMemberStale (m : BitVec 6) (s : State) : Out :=
  .next (
    let x := s.member m.toNat
    if x.live && bit (memberReg s m.toNat) 16 then
      let s := advanceClk (x.heardAt + bits s.paceCfg 15 8 * 1_000_000) s
      settleGroup ((s.onMember m.toNat (fun x => { x with live := false })).onPow (fun p => { p with lost := sat 16 1 p.lost }))
    else s)

/-! ### Prediction and limits (R505-R507, R512) -/

/-- PWR_CAP_WRITE (R505). [log 226 DEDUCED] -/
def pwrCapWrite (v : Word) (s : State) : State :=
  let c := bits v 15 0
  if 300 ≤ c ∧ c ≤ s.capTop then s.setDreg powBase (BitVec.ofNat 64 c) else s.onPow (fun p => { p with cfgErr := true })

def execPwrCapWrite (v : Word) (s : State) : Out := .next (pwrCapWrite v s)

/-- Q: the watts reserved for quiet shelves. -/
def quietWatts (s : State) : Nat := ((quietShelves s).map (fun k => match (s.shelf k).desc with | none => 0 | some d => d.quietW)).sum

/-- P(i) is at most w (R506), with draw l that does not scale and d that does at the present point. -/
def meets (s : State) (l d w i : Nat) : Bool :=
  let c := oppNow s
  let base := oppMhz c * Config.oppMv c ^ 2
  decide ((l + quietWatts s) * base + d * (oppMhz i * Config.oppMv i ^ 2) ≤ w * base)

/-- The limit of R507 on the ceiling. -/
def thermalTop (s : State) : Nat := match s.pow.thermalCap with | none => s.oppTop | some c => min c s.oppTop

/-- The ceiling that draws l and d allow, and whether some point meets the cap. -/
def ceilingFor (s : State) (l d : Nat) : Nat × Bool :=
  match (List.range (thermalTop s + 1)).reverse.find? (meets s l d (effCap s - s.guardW)) with
  | none => (0, false)
  | some i => (i, true)

/-- Quiet shelf k's clock goes down by 100 MHz, and no lower than 600 MHz; the step is counted (R459). [log 220 DEDUCED] -/
def quietDown (k : Nat) (s : State) : State :=
  s.onCounts k (fun c => if c.quietMhz ≤ 600 then c else
    { c with quietMhz := max 600 (c.quietMhz - 100), quietDrops := sat 8 1 c.quietDrops, quietAt := s.clk })

/-- The cap is not met with every non-quiet bay at 600 MHz: every quiet shelf goes down that has held its clock for
100 ms, and none may rise yet. [log 220 DEDUCED] -/
def quietPress (s : State) : State :=
  (quietShelves s).foldl (fun s k =>
    let c := (s.shelf k).counts
    let full := match (s.shelf k).desc with | none => 0 | some d => d.quietMhz
    if c.quietMhz = full ∨ c.quietAt + 100_000_000 ≤ s.clk then quietDown k s else s) s

/-- THROTTLE_C. -/
def State.throttle (s : State) : Int := (bits (s.dreg (powBase + 0x20) 0x6400) 15 8 : Nat)

/-- PACE_PREDICT_TICK (R505-R507, R512): the pace controller has measured draws l, that does not scale with the clock,
and d, the 1 ms average, the energy since the last tick in µJ, the hottest junction with its sensor, and each physical bay's hottest
junction. [log 186 DEDUCED, 215 DESIGN CHOICE, 216 DEDUCED] -/
def execPacePredictTick (l d avg uj : Nat) (tj : Int) (sensor : Nat) (temps : List Int) (s : State) : Out :=
  .next (
    let s := s.onPow (fun p => { p with
      draw_ := avg, energy := (p.energy + uj) % 2 ^ 64, tj := tj, sensor := sensor, temps := temps
      thermalCap := if tj ≤ s.throttle - 3 then none else p.thermalCap
      thermal := p.thermal && !decide (tj ≤ s.throttle - 3) })
    let (c, ok) := ceilingFor s l d
    let s := s.onPow (fun p => { p with effCap := effCap s, capped := decide (c < thermalTop s) })
    let s := if ok then s else quietPress s
    if c < s.pow.ceiling then setCeiling c s
    else if s.pow.ceiling < c then
      s.onPow (fun p => { p with raise := some (match p.raise with | none => (c, s.clk) | some (r, t) => (min r c, t)) })
    else s.onPow (fun p => { p with raise := none }))

/-- THERMAL_THROTTLE_STEP (R507): every bay goes down by one step. [log 222 DEDUCED] -/
def execThermalThrottleStep (s : State) : Out :=
  .next (
    if s.throttle < s.pow.tj ∨ (s.pow.thermal = true ∧ s.throttle - 3 < s.pow.tj) then
      let s := if s.pow.thermal then advanceClk (s.pow.throttleAt + 100_000) s else i3cEvent 1 s
      let c := min s.pow.ceiling (thermalTop s) - 1
      let s := s.onPow (fun p => { p with thermal := true, throttleAt := s.clk, thermalCap := some c })
      let s := (quietShelves s).foldl (fun s k => quietDown k s) s
      if c < s.pow.ceiling then setCeiling c s else s
    else s)

/-- QUIET_DWELL_EXPIRY (R459): 100 ms have passed since quiet shelf k's clock went down, in which the higher one would have met
the cap. [log 220 DEDUCED] -/
def execQuietDwellExpiry (k : Nat) (s : State) : Out :=
  .next (match (s.shelf k).desc with
    | none => s
    | some d =>
      let c := (s.shelf k).counts
      if nbit d.flags 1 && decide (c.quietMhz < d.quietMhz) && !s.pow.thermal then
        let s := advanceClk (c.quietAt + 100_000_000) s
        s.onCounts k (fun c => { c with quietMhz := min d.quietMhz (c.quietMhz + 100), quietAt := s.clk })
      else s)

/-! ### Steps and droops (R499-R501) -/

/-- The frequency that physical bay n moves to, and whether its clock is quiet. -/
def targetOf (s : State) (n : Nat) : Nat × Bool :=
  match quietShelf s n with
  | some k => ((s.shelf k).counts.quietMhz, true)
  | none => (oppMhz (runPoint s s.pow.group), false)

/-- The next step of a bay: its frequency and voltage. -/
def nextStep (s : State) (n : Nat) : Option (Nat × Nat) :=
  let (t, q) := targetOf s n
  let f := (s.clkOf n).mhz
  if f < t then some (min t (f + 100), mvAt (min t (f + 100)) q)
  else if t < f then some (max t (f - 100), mvAt (max t (f - 100)) q)
  else if (s.clkOf n).mv = mvAt t q then none
  else some (t, mvAt t q)

/-- Nanoseconds of a voltage ramp at 20 mV/µs. -/
def rampTime (a b : Nat) : Nat := (max a b - min a b) * 50

/-- A step ends at frequency f and voltage v. -/
def endStep (n f v : Nat) (s : State) : State :=
  let x := s.clkOf n
  let settle := if x.mv < v then 500 else 0
  let s := advanceClk (s.clk + rampTime x.mv v + settle) s
  s.onClk n (fun x => { x with mhz := f, mv := v, stepping := false })

/-- OPP_STEP (R499): physical bay n moves by one index; a bay in a droop has its step held. [log 218 DESIGN CHOICE] -/
def execOppStep (n : BitVec 5) (s : State) : Out :=
  .next (
    let n := n.toNat
    if (activeBays s).contains n && !(s.clkOf n).stepping then
      match nextStep s n with
      | none => s
      | some (f, v) =>
        if (s.clkOf n).stretched || decide (s.clk < ((s.clkOf n).droopAt.map (· + 1000)).getD 0) then
          s.onClk n (fun x => { x with toMhz := f, toMv := v, stepping := true })
        else endStep n f v s
    else s)

/-- A bay's clock stretches. -/
def stretch (n : Nat) (s : State) : State :=
  s.onClk n (fun x => { x with stretched := true, stretches := sat 32 1 x.stretches, droopAt := some s.clk })

/-- DROOP_DETECT (R500, R501): a detector of physical bay n fires; `ramp` is the voltage that a step under way has reached.
The step holds: a raising step has not moved the clock yet, a lowering step has. [log 218 DESIGN CHOICE] -/
def execDroopDetect (n : BitVec 5) (ramp : Option (BitVec 10)) (s : State) : Out :=
  .next (
    let n := n.toNat
    if (activeBays s).contains n then
      let s := match ramp, nextStep s n with
        | some v, some (f, t) =>
          let x := s.clkOf n
          if !x.stepping && decide (min x.mv t ≤ v.toNat) && decide (v.toNat ≤ max x.mv t) then
            let s := advanceClk (s.clk + rampTime x.mv v.toNat) s
            s.onClk n (fun x => { x with toMhz := f, toMv := t, stepping := true, mv := v.toNat, mhz := if t < x.mv then f else x.mhz })
          else s
        | some _, none => s
        | none, _ => s
      stretch n s
    else s)

/-- STRETCH_END (R501): 32 cycles have passed with every detector of bay n clear; the peak
limit may still stretch the clock (R505). [log 222 DEDUCED] -/
def execStretchEnd (n : BitVec 5) (s : State) : Out :=
  .next (if (s.clkOf n.toNat).stretched && !s.pow.edpOn then s.onClk n.toNat (fun x => { x with stretched := false }) else s)

/-- OPP_STEP_RESUME (R500): every detector has read clear for 1 µs, and a held step goes on. [log 218 DESIGN CHOICE] -/
def execOppStepResume (n : BitVec 5) (s : State) : Out :=
  .next (
    let n := n.toNat
    let x := s.clkOf n
    if x.stepping then
      let s := advanceClk (x.droopAt.getD 0 + 1000) s
      endStep n x.toMhz x.toMv s
    else s)

/-- The electrical design peak. -/
def State.peakW (s : State) : Nat := if s.dev.card then 800 else 1400

/-- EDP_LIMIT (R505): the current estimate is w watts. Above the peak every active bay is stretched until it falls below
95 %. [log 215 DESIGN CHOICE, 222 DEDUCED] -/
def execEdpLimit (w : Nat) (s : State) : Out :=
  .next (
    if s.peakW < w then
      let s := s.onPow (fun p => { p with edpOn := true, edpAt := some s.clk })
      (activeBays s).foldl (fun s n => if (s.clkOf n).stretched then s else s.onClk n (fun x => { x with stretched := true, stretches := sat 32 1 x.stretches })) s
    else if s.pow.edpOn && decide (100 * w < 95 * s.peakW) then
      (activeBays s).foldl (fun s n => s.onClk n (fun x => { x with stretched := false })) (s.onPow (fun p => { p with edpOn := false, edpAt := some s.clk }))
    else s)

/-- CURRENT_SLOPE_TICK (R503): the governors would bring the chip's current to a amperes in the next 100 ns; the change is
limited to 15 A, later steps wait and ballast holds. [log 215 DESIGN CHOICE, 221 DESIGN CHOICE] -/
def execCurrentSlopeTick (a : Nat) (s : State) : Out :=
  .next (
    let c := s.pow.current
    let goal := max (c - 15) (min (c + 15) a)
    (advanceClk (s.clk + 100) s).onPow (fun p => { p with current := goal, slopeHold := goal != a }))

/-! ### Lattice domains (R497) -/

/-- The lattice cluster of a logical bay holds a command, or one waits for it. -/
def latticeBusy (s : State) (b : Nat) : Bool :=
  [0, 1, 2, 3].any (fun i => (List.range 12).any (fun n =>
    (s.queue (b * 4 + i) n).inflight.any (fun c => latticeKind c.kind && c.result.isNone) ||
    (s.queue (b * 4 + i) n).entries.any (fun e => latticeKind (dKind e.desc))))

/-- LATTICE_GATE (R497): the cluster of physical bay n has held no command for PWR_GATE.IDLE_US. [log 223 DEDUCED] -/
def execLatticeGate (n : BitVec 5) (s : State) : Out :=
  .next (match logicalOf s n.toNat with
    | none => s
    | some b => if bit (s.dreg (powBase + 0x18) 0x3201) 0 && !latticeBusy s b then s.onClk n.toNat (fun x => { x with latGated := true }) else s)

/-- LATTICE_WAKE (R497): a command reaches a gated cluster; the domain wakes at the slope of R504. [log 223 DEDUCED] -/
def execLatticeWake (n : BitVec 5) (s : State) : Out :=
  .next (
    if (s.clkOf n.toNat).latGated then
      let s := advanceClk (s.clk + 2000) s
      (s.onClk n.toNat (fun x => { x with latGated := false })).onPow (fun p => { p with wakes := sat 32 1 p.wakes })
    else s)

end Sys2Proof.Machine
end

