-- ==== Sys2Proof/Machine/RegView.lean ====
section
/-!
DEFINITION. A register as an access sees it (R12-R14, R562, R563): its value, the fields that a read clears, the bits that a write sets,
and what a write does.
-/
namespace Sys2Proof.Machine

/-- An RC field: lowest bit and width, its exact value, whether a confidential shelf sees it latched (R460), and how an amount that has
been returned is taken off it. -/
structure RcField where
  lo      : Nat
  w       : Nat
  val     : Nat
  latched : Bool := false
  sub     : Nat → State → State

/-- A register: `base` is its value without its RC fields, `rw` the mask of its RW bits, `wide` says that a WO field fills all 64 bits. -/
structure RegView where
  base  : Word
  rc    : List RcField := []
  rw    : Word := 0
  wide  : Bool := false
  write : Word → State → State := fun _ s => s

/-- The part of a register that an access reaches (R12). -/
inductive Lanes where
  | all | low | high
  deriving DecidableEq, Repr

/-- The part that n bytes at an offset reach; none for any other size or alignment. [log 265 DEDUCED] -/
def lanesOf (off n : Nat) : Option Lanes :=
  if n = 8 ∧ off % 8 = 0 then some .all
  else if n = 4 ∧ off % 8 = 0 then some .low
  else if n = 4 ∧ off % 8 = 4 then some .high
  else none

/-- The whole value. -/
def RegView.value (r : RegView) : Word := r.rc.foldl (fun v f => v ||| BitVec.ofNat 64 (f.val % 2 ^ f.w * 2 ^ f.lo)) r.base

/-- The part of a value that an access returns, in its low bits. -/
def Lanes.part (l : Lanes) (v : Word) : Word :=
  match l with | .all => v | .low => v &&& 0xFFFF_FFFF | .high => v >>> 32

/-- Whether a field lies wholly within the part (R563). -/
def Lanes.covers (l : Lanes) (f : RcField) : Bool :=
  match l with | .all => true | .low => decide (f.lo + f.w ≤ 32) | .high => decide (32 ≤ f.lo)

/-- A read: the part of the value, and the fields wholly within it cleared (R13, R563). -/
def RegView.read (r : RegView) (l : Lanes) (s : State) : Word × State :=
  (l.part r.value, (r.rc.filter (fun f => l.covers f)).foldl (fun s f => f.sub f.val s) s)

/-- A write: the RW bits of the other half stay, and WO and W1C bits there are 0 (R563). -/
def RegView.put (r : RegView) (l : Lanes) (v : Word) (s : State) : State :=
  match l with
  | .all => r.write v s
  | .low => if r.wide then s else r.write ((r.base &&& r.rw &&& 0xFFFF_FFFF_0000_0000) ||| (v &&& 0xFFFF_FFFF)) s
  | .high => if r.wide then s else r.write ((r.base &&& r.rw &&& 0xFFFF_FFFF) ||| (v <<< 32)) s

/-- A read-only register. -/
def roReg (v : Word) : RegView := { base := v }

/-- A read-only register of packed fields. -/
def roFields (l : List (Nat × Nat)) : RegView := { base := packW l }

/-- A register of RW fields alone, with what a write does. -/
def rwReg (v mask : Word) (f : Word → State → State) : RegView := { base := v &&& mask, rw := mask, write := f }

/-- An RW register of shelf k's block that stores what is written, while `ok`. [log 263 DEDUCED] -/
def shelfRw (s : State) (k off : Nat) (mask : Word) (ok : Bool := true) (reset : Word := 0) : RegView :=
  rwReg ((s.shelf k).reg off reset) mask (fun v s => if ok then s.setReg k off (v &&& mask) else s)

/-- An RW register outside the shelf blocks that stores what is written, while the value written is `ok`. [log 263 DEDUCED] -/
def devRw (s : State) (off : Nat) (mask : Word) (reset : Word := 0) (ok : Word → Bool := fun _ => true) : RegView :=
  rwReg (s.dreg off reset) mask (fun v s => if ok v then s.setDreg off (v &&& mask) else s)

/-- Four 16-bit fields. -/
def quad (a b c d : Nat) : List (Nat × Nat) := [(16, a), (16, b), (16, c), (16, d)]

/-- How shelf k sees a register at an offset of its view: a latched field of a confidential shelf as it was latched, of which a read
clears what it returns (R460). [log 196 DEDUCED] -/
def latchView (s : State) (k off : Nat) (r : RegView) : RegView :=
  if (s.shelf k).conf then
    { r with rc := r.rc.map (fun f =>
        if f.latched then
          { f with
            val := tget 0 (tget [] s.latch.counts k) (latchKey off f.lo)
            sub := fun n s => f.sub n { s with latch := { s.latch with counts := tupd [] s.latch.counts k (fun t => tdel t (latchKey off f.lo)) } } }
        else f) }
  else r

end Sys2Proof.Machine
end

