-- ==== Sys2Proof/Machine/RegsBay.lean ====
section
/-!
DEFINITION. The registers of a bay block (R140, R141, R188, R252, R292, R342, R567), by offset in the block.
-/
namespace Sys2Proof.Machine

/-- The fold unit's own registers (R140). -/
def foldRegs (s : State) (b off : Nat) : Option RegView :=
  let y := s.bay b
  match off with
  | 0x0000 => some (roFields [(1, b2n (!y.hold.isEmpty || y.casks.any (fun e => e.2.kegInit))), (15, 0),
      (16, y.hold.length), (16, (y.casks.map (fun e => e.2.bad.length)).sum)])
  | 0x0008 => some { base := 0, rc := [
      { lo := 0, w := 32, val := y.eccCorr, latched := true, sub := fun n s => s.onBay b (fun y => { y with eccCorr := y.eccCorr - n }) },
      { lo := 32, w := 16, val := y.eccUncorr, latched := true, sub := fun n s => s.onBay b (fun y => { y with eccUncorr := y.eccUncorr - n }) }] }
  | _ =>
    if 0x0100 ≤ off ∧ off < 0x0300 then
      some (rwReg (tget 0 y.mods ((off - 0x0100) / 8)) 0x3FFF_FFFF_FFFF_FFFF (foldModWrite b ((off - 0x0100) / 8)))
    else none

/-- CASK_STATE (R141). -/
def caskState (s : State) (b c : Nat) : RegView :=
  let x := s.cask b c
  { base := packW [(1, b2n (caskIdle s b c)), (1, b2n x.kegInit), (1, b2n x.wrIgnored), (1, b2n x.cfgErr), (1, b2n (!x.bad.isEmpty || !x.kegBad.isEmpty)),
      (1, b2n x.scrub), (2, 0), (6, x.log2Interval), (2, 0), (16, caskProvisional s b c), (32, x.spills)]
    write := fun v s => s.onCask b c (fun x => { x with wrIgnored := x.wrIgnored && !bit v 2, cfgErr := x.cfgErr && !bit v 3 }) }

/-- The registers of Cask c (R141). -/
def caskRegs (s : State) (b c off : Nat) : Option RegView :=
  let x := s.cask b c
  match off with
  | 0x00 => some (rwReg x.cfg 0xFFF_FF3F_FF03 (caskCfgWrite b c))
  | 0x08 => some (rwReg x.area 0x1F_FFFF_FFFF (caskAreaWrite b c))
  | 0x10 => some (rwReg x.keg 0xFF_FF01_FFFF (caskKegWrite b c))
  | 0x18 => some (caskState s b c)
  | 0x20 => some (roFields [(62, x.folds)])
  | 0x28 => some (roFields [(48, x.inexact)])
  | 0x30 => some (roFields [(48, x.sat)])
  | 0x38 => some (roFields [(48, x.nan)])
  | _ => none

/-- Commands of bay b that its lattice cluster has accepted and not completed. -/
def latticeQueued (s : State) (b : Nat) : Nat :=
  ((List.range 4).map (fun i => ((List.range 12).map (fun n =>
    ((s.queue (b * 4 + i) n).inflight.filter (fun c => latticeKind c.kind && c.result.isNone)).length)).sum)).sum

/-- The AES pipelines of physical bay n in use, one bit each (R188): the lowest 16 sound ones of its 17. -/
def pipeMap (s : State) (n : Nat) : Nat :=
  (((List.range 17).filter (fun p => !s.dev.repairs.pipes.contains (n, p))).take 16 |>.map (fun p => 2 ^ p)).sum

/-- KS_STATUS of physical bay n (R188). -/
def ksStatus (s : State) (n : Nat) : RegView := roFields [(17, pipeMap s n), (1, pipeMap s n / 2 ^ 16)]

/-- NOISE_STATUS (R292). -/
def noiseStatus (x : Sampler) : RegView :=
  roFields [(1, b2n x.inst), (1, b2n x.reseeding), (1, b2n x.fail), (13, 0), (13, x.fill), (3, 0), (32, x.requests)]

/-- The queue registers of sequencer q, by offset from its QREC (R342). -/
def queueRegs (s : State) (q off : Nat) : Option RegView :=
  let e := s.qerr q
  match off with
  | 0x000 => some (rwReg e.qrec 0xFF_F001 (qrecWrite q))
  | 0x008 => some { base := packW [(8, e.first), (1, b2n e.cfgErr), (7, 0), (16, e.nonok), (16, e.recLost)]
                    rc := [{ lo := 48, w := 16, val := e.uncorr, latched := true, sub := fun n s => s.onQErr q (fun e => { e with uncorr := e.uncorr - n }) }]
                    write := fun v s => if bit v 8 then s.onQErr q (fun e => { e with cfgErr := false }) else s }
  | _ =>
    if 0x100 ≤ off ∧ off < 0x1C0 then
      let n := (off - 0x100) / 0x10
      let u := s.queue q n
      if off % 0x10 = 0 then
        some { base := packW [(9, u.wp), (7, 0), (9, u.rp), (7, 0), (1, b2n u.halted), (1, b2n u.held), (6, u.inflight.length), (8, u.haltStatus.code)]
               rc := [{ lo := 48, w := 16, val := u.corr, latched := true, sub := fun v s => s.onQueue q n (fun u => { u with corr := u.corr - v }) }] }
      else some (roFields [(32, u.count.toNat)])
    else none

/-- The register at an aligned offset of the block of a bay: its logical number b, its physical number n, and the logical sequencer of
each index. A bay or sequencer that has no logical number is gated: it reads its Reset values and takes no write. [log 268 DEDUCED] -/
def bayReg (s : State) (b : Option Nat) (n : Nat) (seqs : Nat) (seqOf : Nat → Option Nat) (off : Nat) : Option RegView :=
  let idle : State := {}
  let still (r : Option RegView) : Option RegView := r.map (fun r => roReg r.value)
  if off = 0x2000 then some (ksStatus s n)
  else if off = 0x2100 then some (match b with | none => roReg 0 | some b => roFields [(1, b2n (decide (0 < latticeQueued s b))), (7, 0), (8, latticeQueued s b)])
  else if off = 0x2200 then some (match b with | none => roReg 0 | some b => noiseStatus (s.bay b).sampler)
  else if 0x4000 ≤ off ∧ off < 0x4000 + seqs * 0x200 then
    match b, seqOf ((off - 0x4000) / 0x200) with
    | some b, some q => queueRegs s (b * 4 + q) ((off - 0x4000) % 0x200)
    | none, _ => still (queueRegs idle 0 ((off - 0x4000) % 0x200))
    | _, none => still (queueRegs idle 0 ((off - 0x4000) % 0x200))
  else if 0x1000 ≤ off ∧ off < 0x2000 then
    match b with
    | some b => caskRegs s b ((off - 0x1000) / 0x40) (off % 0x40)
    | none => still (caskRegs idle 0 ((off - 0x1000) / 0x40) (off % 0x40))
  else
    match b with
    | some b => foldRegs s b off
    | none => still (foldRegs idle 0 off)

end Sys2Proof.Machine
end

