-- ==== Sys2Proof/Machine/Waypoint.lean ====
section
/-!
DEFINITION. Waypoints (R161, R162, R524, R538-R541): the cut, the image and its sections, completion, the transfer to the buddy (R395),
and the acknowledgements to front-end hosts.
-/
namespace Sys2Proof.Machine

/-- Change the waypoint state of shelf k. -/
def State.onWpt (s : State) (k : Nat) (f : Wpt → Wpt) : State := s.onShelf k (fun h => { h with wpt := f h.wpt })

def rWptAck : Nat := 0x1B18

/-- Where slot i of the waypoint area starts, and a slot's length (R538, R551). -/
def wptSlot (h : Shelf) (i : Nat) : Nat × Nat :=
  let a := region64k (h.reg rWptCfg)
  (a.1 + i * (a.2 / 2), a.2 / 2)

/-- The slot of the next waypoint: the one that does not hold the last complete waypoint, slot 0 where there has been none (R538). [log 242 DEDUCED] -/
def Wpt.nextSlot (w : Wpt) : Nat := if w.doneTime = 0 then 0 else 1 - w.slot

/-! ### Sections (R540) -/

/-- A section as it is written: its kind, whether it is sealed, its bytes, and the ranges with the poisoned marker. -/
structure Section where
  kind   : Nat
  sealed : Bool
  data   : Bytes
  bad    : List (Nat × Nat) := []

/-- The mask of a list of numbers. -/
def maskOf (l : List Nat) : Nat := ((List.range 64).map (fun i => if l.contains i then 2 ^ i else 0)).sum

/-- The round's counts and flags and the status of its mode, as words of the ROUND section. [log 243 DESIGN CHOICE] -/
def statusWords (h : Shelf) : List Nat :=
  let r := h.round
  let x := h.recov
  let v := h.verif
  let z := h.sealSt
  [r.committed, r.rejected, r.late, r.duplicate, r.dropped, r.divergent,
   pack [(1, b2n r.begun), (1, b2n r.cutPassed), (1, b2n r.exchPassed), (1, b2n r.frozen), (1, b2n r.holdover), (1, b2n r.tableSent)],
   maskOf (r.peerDigests.map (·.1)),
   pack [(1, b2n x.checked), (1, b2n x.short), (1, b2n x.checkFail), (1, b2n x.complete)],
   x.firstBad, x.accepted, x.wrongKind, x.invalid, x.unused, x.secretsN, x.pairsN,
   v.accepted, v.rejectJoint, v.rejectLocal, v.rejectPeer, v.bad, v.lost, v.orphans, v.lateReject, v.sent, v.peerBad,
   pack [(1, b2n z.sumHdr), (1, b2n z.sumReady), (1, b2n z.pdecDone), (1, b2n z.combined), (1, b2n z.keysetDiscard), (1, b2n z.unreliable)],
   z.sumBudget, maskOf z.stored, maskOf z.waiting, maskOf z.passed, maskOf z.set_, z.surplus, z.badPartial, z.resent,
   h.ledger.retractSegs, h.ledger.noopSegs, h.ledger.forced,
   pack (z.passed.map (fun j => (4, j))), z.passed.length, h.rel.nonfinite]

/-- Add a range to the last of a list of ranges where it follows it. -/
def joinRange (l : List (Nat × Nat)) (r : Nat × Nat) : List (Nat × Nat) :=
  match l with
  | [] => [r]
  | (a, n) :: t => if a + n = r.1 then (a, n + r.2) :: t else r :: (a, n) :: t

/-- The status of the round's mode at 0x100 of the ROUND section: the mask elements folded into each Cask (R186), as 8-byte entries of 16 and
48 bits, or the ranges of the sum area drained (R243) and, from 0x280 on, the objects that PDEC and PCOMB have done (R244, R249). [log 243 DESIGN CHOICE] -/
def modeStatus (h : Shelf) : Bytes :=
  let z := h.sealSt
  if h.round.desc.mode = 3 then
    (((z.drained.foldl joinRange []).flatMap (fun r => toLe 8 r.1 ++ toLe 8 r.2)) ++ zeros 0x280).take 0x280 ++
    toLe 32 ((z.pdecObjs.map (2 ^ ·)).sum) ++ toLe 32 ((z.combObjs.map (2 ^ ·)).sum)
  else h.recov.folded.flatMap (fun e => toLe 2 e.1 ++ toLe 6 e.2)

/-- Casks of a bay that hold sealed-mode plaintext (R249). -/
def plainMask (y : Bay) : Nat := ((y.casks.filter (fun e => e.2.plain)).map (fun e => 2 ^ e.1)).sum

/-- The ROUND section: the descriptor at 0, the mode's status at 0x100, the words at 0x400, the digests of the cohort, the mask-key table and
the sum at 0x600, schedule entries 0-7 at 0x680, the peers' digests at 0x700, the Casks with plaintext at 0xF00 and the digest of the shard at
0xF80; 4 KiB. [log 243 DESIGN CHOICE] -/
def roundSection (s : State) (k : Nat) : Bytes :=
  let h := s.shelf k
  let r := h.round
  let at_ (n : Nat) (b : Bytes) : Bytes := (b ++ zeros n).take n
  at_ 0x100 r.desc.raw ++ at_ 0x300 (modeStatus h) ++ at_ 0x200 ((statusWords h).flatMap (toLe 8)) ++ at_ 0x20 r.ownDigest ++ at_ 0x20 h.recov.digest ++ at_ 0x40 h.sealSt.sumDigest ++
  at_ 0x80 ((List.range 8).flatMap (fun e => let x := tget ({} : SchedEntry) h.sched e; toLe 8 x.time.toNat ++ toLe 4 x.kind ++ toLe 4 (b2n x.armed))) ++
  at_ 0x800 ((List.range 64).flatMap (fun j => at_ 0x20 (tget [] r.peerDigests j))) ++
  at_ 0x80 (h.bays.flatMap (fun b => toLe 8 (plainMask (s.bay b)))) ++ at_ 0x80 h.rel.modelDigest

/-- VERDICT of an entry record (R162). -/
def Verdict.code : Verdict → Nat | .pending => 0 | .commit => 1 | .retract => 2

/-- The segment record of R162. -/
def segBytes (g : Segment) : Bytes :=
  toLe 16 (pack [(4, g.bay), (6, g.cask), (6, g.seg), (1, b2n g.neg), (1, b2n g.retractAcc), (6, 0), (8, g.etype), (8, g.scaleE), (21, g.coff),
    (21, g.count), (30, g.srcOff), (8, g.tile), (8, 0)])

/-- The entry record of R162, with the index of its first segment record. -/
def entryBytes (e : LedgerEntry) (first : Nat) : Bytes :=
  toLe 8 e.logSeq ++ toLe 4 e.client ++ toLe 1 e.plan ++ toLe 1 e.verdict.code ++ toLe 1 e.reason ++ toLe 1 (b2n e.forced + 2 * b2n e.unreadable) ++
  toLe 8 ((e.segs.map (fun g => 2 ^ g.seg)).sum) ++ toLe 4 first ++ zeros 4

/-- Entry records in order, from a first segment index on. -/
def entriesBytes : List LedgerEntry → Nat → Bytes
  | [], _ => []
  | e :: r, i => entryBytes e i ++ entriesBytes r (i + e.segs.length)

/-- The ledger image (R162). -/
def ledgerImage (h : Shelf) (cut : Nat) : Bytes :=
  let l := h.ledger.entries
  toLe 8 cut ++ toLe 8 h.intake.nextSeq ++ toLe 4 l.length ++ toLe 4 ((l.map (fun e => e.segs.length)).sum) ++ toLe 8 h.intake.coveredSeq.toNat ++ zeros 32 ++
  entriesBytes l 0 ++ l.flatMap (fun e => e.segs.flatMap segBytes)

/-- The log entry of a provisional client's crate. -/
def pendingCrate (s : State) (k client : Nat) : Option LogEntry :=
  (s.shelf k).intake.log.find? (fun e => e.client == client && isAdmitted e.state && e.kind == 1)

/-- The PENDING section: CLIENT_INDEX, LOG_SEQ and ROOT of each provisional client. -/
def pendingSection (s : State) (k : Nat) : Bytes :=
  ((clientsWhere s k (fun c => c.code == 1)).map (· + (s.shelf k).round.desc.clientBase)).flatMap (fun c =>
    match pendingCrate s k c with
    | none => []
    | some e => toLe 4 c ++ zeros 4 ++ toLe 8 e.logSeq ++ (clogRead s k (e.offset + 64 + 0x40) 32).2)

/-- The CASKS section. -/
def casksSection (s : State) (k : Nat) : Bytes × List (Nat × Nat) :=
  (s.shelf k).bays.foldl (fun (a : Bytes × List (Nat × Nat)) b =>
    let i := bayImage s b []
    (a.1 ++ i.1, a.2 ++ i.2.map (fun r => (a.1.length + r.1, r.2)))) ([], [])

/-- A part of the recovery region, rounded up to 64 KiB (R185). -/
def recovPart (n size : Nat) (f : Nat → Bytes) : Bytes :=
  let b := (List.range n).flatMap (fun i => (f i ++ zeros size).take size)
  b ++ zeros (roundUp (n * size) 0x10000 - n * size)

/-- The RECOVERY section: share, secret and pair tables. The counts of R186 that the ROUND section has no room for stand beside the shares. -/
def recovSection (h : Shelf) : Bytes :=
  let d := h.round.desc
  let r := h.recov
  recovPart (d.clientCount * (d.k + 1)) 64 (fun i =>
    let x := tget (⟨0, 0, 0⟩ : Share) r.shares i
    toLe 16 x.l0 ++ toLe 16 x.l1 ++ toLe 16 x.l2 ++ ((r.folded.drop (96 + 2 * i)).take 2).flatMap (fun e => toLe 2 e.1 ++ toLe 6 e.2)) ++
  recovPart d.clientCount 128 (fun i => (tget [] r.secrets i ++ zeros 64).take 64 ++ tget [] r.selfKeys i) ++
  recovPart ((d.clientCount - d.minCohort) * d.k) 64 (fun i => tget [] r.pairs i)

/-- The regions that a section copies from the Cellar, whole. -/
def copySection (s : State) (k : Nat) (l : List (Nat × Nat)) : Bytes := l.flatMap (fun r => vread s k r.1 r.2)

/-- The regions of the client table, verifier table, sum area and partial region, and shard copy and release scratch. -/
def clientRegion (h : Shelf) : List (Nat × Nat) := [(h.ctab.1, ctabLen h.round.desc.clientCount)]
def verifRegion (h : Shelf) : List (Nat × Nat) :=
  [((region64k (h.reg rVerifTable)).1, verifTableLen h.round.desc.clientCount h.round.desc.groupSize h.roundInst)]
def sealRegions (h : Shelf) : List (Nat × Nat) :=
  [h.round.sum, region64k (h.reg rSealPart)]
def shardRegion (h : Shelf) : List (Nat × Nat) :=
  if h.rel.copy then [(field h.rel.opt 0x20 8, shardLen (field h.rel.opt 6 1) h.round.desc.elemCount)] else []
def relRegions (h : Shelf) : List (Nat × Nat) := shardRegion h ++ [region64k (h.reg rRelScr)]

/-- The bytes of the release scratch in a waypoint: in NOISE the groups that are NOISED (R274), as 8-byte entries of bay × 64 + Cask and tile ×
65536 + group, in STEP a bit for each shard element stepped (R282), else the payload. [log 243 DESIGN CHOICE] -/
def scratchImage (s : State) (k : Nat) : Bytes :=
  let h := s.shelf k
  let r := region64k (h.reg rRelScr)
  if h.round.phase.code = 5 then ((h.rel.groups.flatMap (fun e => e.2.flatMap (fun g => toLe 4 e.1 ++ toLe 4 g))) ++ zeros r.2).take r.2
  else if h.round.phase.code = 6 then ((List.range (r.2)).map (fun i => BitVec.ofNat 8 (((List.range 8).map (fun j => if h.rel.steps.contains (8 * i + j) then 2 ^ j else 0)).sum)))
  else vread s k r.1 r.2

/-- The sections of a waypoint of shelf k cut at an epoch time. -/
def wptSections (s : State) (k cut : Nat) : List Section :=
  let h := s.shelf k
  let p := h.round.phase.code
  let late := decide (5 ≤ p)
  let casks := casksSection s k
  [{ kind := 1, sealed := false, data := roundSection s k }, { kind := 2, sealed := false, data := copySection s k (clientRegion h) },
   { kind := 3, sealed := false, data := ledgerImage h cut }, { kind := 4, sealed := false, data := pendingSection s k },
   { kind := 5, sealed := false, data := h.seqs.flatMap (fun q => seqImage (tget {} h.wpt.seqs q)) },
   { kind := 6, sealed := late, data := casks.1, bad := if late then [] else casks.2 }] ++
  (if h.round.desc.mode == 1 && decide (3 ≤ p) && decide (p ≤ 4) then [{ kind := 7, sealed := true, data := recovSection h }] else []) ++
  (if h.round.desc.mode == 2 then [{ kind := 8, sealed := false, data := copySection s k (verifRegion h) }] else []) ++
  (if h.sealedRound then [{ kind := 9, sealed := true, data := copySection s k (sealRegions h) }] else []) ++
  (if late then [{ kind := 10, sealed := true, data := copySection s k (shardRegion h) ++ scratchImage s k }] else [])

/-- A region that the sections copy cannot be read. [log 245 DEDUCED] -/
def wptUnreadable (s : State) (k : Nat) : Bool :=
  let h := s.shelf k
  (clientRegion h ++ (if h.round.desc.mode == 2 then verifRegion h else []) ++ (if h.sealedRound then sealRegions h else []) ++
    (if 5 ≤ h.round.phase.code then relRegions h else [])).any (fun r => vstat s k r.1 r.2 != .ok)

/-! ### The image -/

/-- Header bytes 0x000-0x0FF without the directory's length. -/
def wptHead (s : State) (k cut num sections : Nat) : Bytes :=
  let h := s.shelf k
  toLe 4 0x5450574B ++ toLe 2 1 ++ toLe 1 k ++ toLe 1 h.round.phase.code ++ toLe 8 h.round.desc.roundId ++ toLe 8 cut ++ toLe 4 num ++ toLe 2 s.node ++
  toLe 2 s.session ++ (h.prog.digest ++ zeros 32).take 32 ++ toLe 1 h.bays.length ++ toLe 1 sections ++ zeros 190

/-- The nonce of a sealed section. -/
def wptNonce (node session num kind k : Nat) : Bytes := toBe 2 node ++ toBe 2 session ++ toBe 4 num ++ toLe 1 kind ++ zeros 1 ++ toBe 2 k

/-- The stored bytes of a section: sealed under the rack-group key, or as they are. -/
def storeSection (s : State) (k : Nat) (head : Bytes) (x : Section) : Option Bytes :=
  if x.sealed then
    if s.rackEn then
      match bindCur s s.rackSlot (rackUse k) with
      | .error _ => none
      | .ok half =>
        let (c, t) := gcmSeal half.key (wptNonce (field head 0x1C 2) (field head 0x1E 2) (field head 0x18 4) x.kind k) (head.take 64) x.data
        some (c ++ t)
    else none
  else some x.data

/-- A directory entry. -/
def dirEntry (x : Section) (off : Nat) (b : Bytes) : Bytes :=
  toLe 1 x.kind ++ toLe 1 (b2n x.sealed) ++ zeros 6 ++ toLe 8 off ++ toLe 8 b.length ++ sha3 b ++ zeros 8

/-- Lay sections out from an offset: the directory, the (offset, bytes, poisoned ranges), and the end. -/
def layWpt : List (Section × Bytes) → Nat → Bytes × List (Nat × Bytes × List (Nat × Nat)) × Nat
  | [], off => ([], [], off)
  | (x, b) :: r, off =>
    let t := layWpt r (off + roundUp b.length 0x10000)
    (dirEntry x off b ++ t.1, (off, b, x.bad) :: t.2.1, t.2.2)

/-- Every section stored, or none. -/
def storeAll (s : State) (k : Nat) (head : Bytes) : List Section → Option (List (Section × Bytes))
  | [] => some []
  | x :: r => match storeSection s k head x, storeAll s k head r with | some b, some l => some ((x, b) :: l) | _, _ => none

/-! ### The cut (R161, R524, R539) -/

/-- COVER_TIME at a cut (R541). -/
def coverTime (h : Shelf) (cut : Nat) : Nat :=
  ((h.intake.log.filter (fun e => isAdmitted e.state)).map (fun e => e.time)).foldl min cut

/-- How many LOG_SEQs, from 0 on, belong to crates that have settled (R108). [log 31 DEDUCED] -/
def settledBelow (h : Shelf) : Nat :=
  match h.intake.log.find? (fun e => isAdmitted e.state || e.state.code == 0) with | none => h.intake.nextSeq | some e => e.logSeq

/-- Clients whose share crates have been admitted, without those that still wait. -/
def settledSenders (h : Shelf) : List Nat :=
  h.intake.shareSenders.filter (fun c => !h.intake.log.any (fun e => e.kind == 2 && isAdmitted e.state && e.client == c))

/-- What the waypoint saves beside memory. -/
def wptSave (s : State) (k cut : Nat) : WptSave :=
  let h := s.shelf k
  { round := h.round, sched := h.sched.filter (fun e => decide (e.1 < 8)), ledger := h.ledger, recov := h.recov, verif := h.verif, sealSt := h.sealSt
    rel := h.rel, seqs := h.wpt.seqs, bays := h.bays.map (fun b => ((s.bay b).mods, (s.bay b).casks.map (fun e => (e.1, if e.2.en then withOld s b e.2 else e.2))))
    senders := settledSenders h, cover := (h.intake.coveredSeq.toNat, coverTime h cut) }

/-- The waypoint is abandoned: it does not fit, or may not be sealed. -/
def wptAbandon (k : Nat) (s : State) : State := s.onWpt k (fun w => { w with overflow := sat 8 1 w.overflow })

/-- A fold that a bay of shelf k has accepted sits in its hold station: the save of R142 would miss it. [log 41 DESIGN CHOICE] -/
def heldFolds (s : State) (k : Nat) : Bool :=
  (s.shelf k).bays.any (fun b => (s.bay b).hold.any (fun h =>
    let n := dKind (heldDesc s h)
    decide (n ≤ 3) || n == 0x07 || n == 0x08 || n == 0x0B))

/-- The cut is taken now: the sections are written, and the header waits. [log 243 DESIGN CHOICE, 245 DEDUCED] -/
def wptCut (k : Nat) (s : State) : State :=
  let s := readCasks k s
  let cut := s.epoch
  let num := (s.dev.wptNum + 1) % 2 ^ 32
  let s : State := { s with dev := { s.dev with wptNum := num } }
  let s := s.onWpt k (fun w => { w with cuts := w.cuts + 1, due := false })
  if wptUnreadable s k then s
  else
    let h := s.shelf k
    let secs := wptSections s k cut
    let head := wptHead s k cut num secs.length
    let slot := wptSlot h h.wpt.nextSlot
    match storeAll s k head secs with
    | none => wptAbandon k s
    | some l =>
      let t := layWpt l 0x10000
      if slot.2 < t.2.2 then wptAbandon k s
      else
        let save := wptSave s k cut
        let s := t.2.1.foldl (fun s e => putImage k (slot.1 + e.1) e.2.1 e.2.2 s) s
        s.onWpt k (fun w => { w with
          header := some ((head ++ t.1 ++ zeros 768).take 1024), length := t.2.2, cutTime := cut, save := some save
          covered := save.cover, below := settledBelow h })

/-- The boundary of shelf k that is reached next, with the epoch time t: one not after t that has not been reached yet falls now, else the
first after t (R56, R524). [log 242 DEDUCED] -/
def nextBoundary (h : Shelf) (t : Nat) : Nat :=
  let i := h.round.desc.interval * 1_000_000
  let last := t / i * i
  if h.wpt.bound < last then last else last + i

/-- The next waypoint boundary of shelf k is reached (R524). [log 242 DEDUCED] -/
def reachBoundary (k : Nat) (s : State) : State :=
  let b := nextBoundary (s.shelf k) s.epoch
  (s.toEpoch b).onWpt k (fun w => { w with bound := b })

/-- The next waypoint boundary of shelf k is reached and passed over, and WPT_STATUS.PASSED counts it (R524, R591). [log 248 DEDUCED] -/
def passBoundary (k : Nat) (s : State) : State :=
  (reachBoundary k s).onWpt k (fun w => { w with passed := sat 16 1 w.passed })

/-- WAYPOINT_CUT (R56, R524, R591): a phase's end asks for a waypoint, or the next boundary is reached. A boundary reached while a waypoint is
being written, or while the shelf is fenced, is passed over. While a fold sits in a hold station the cut waits for it, to take every fold
accepted before it (R142, R161). [log 41 DESIGN CHOICE, 236 DESIGN CHOICE, 248 DEDUCED] -/
def execWaypointCut (k : Nat) (s : State) : Out :=
  .next (
    let h := s.shelf k
    if h.round.active then
      match h.rcv.state with
      | .none =>
        if h.wpt.due then (if h.wpt.header.isSome || heldFolds s k then s else wptCut k s)
        else if h.wpt.header.isSome then passBoundary k s
        else if heldFolds s k then (reachBoundary k s).onWpt k (fun w => { w with due := true })
        else wptCut k (reachBoundary k s)
      | .fenced => passBoundary k s
      | .wait => passBoundary k s
      | .restoring => passBoundary k s
      | .replaying => passBoundary k s
    else s)

/-! ### Acknowledgements to front-end hosts (R541) -/

/-- The 64-byte body. -/
def ackBody (round cut cover covered typ resend : Nat) : Bytes :=
  toLe 8 round ++ toLe 8 cut ++ toLe 8 cover ++ toLe 8 covered ++ toLe 1 typ ++ toLe 1 resend ++ zeros 30

/-- Send a body to every destination of WPT_ACK; its flow is open. [log 244 DESIGN CHOICE] -/
def wptAcks (k : Nat) (body : Bytes) (s : State) : State :=
  let h := s.shelf k
  let v := h.reg rWptAck
  let r := h.round.desc
  (List.range 3).foldl (fun s j =>
    let d := s.dest (bits v (12 * j + 11) (12 * j))
    if bit v (36 + j) && d.usable k then
      let (flow, s) := draw 16 s
      let m : TxMsg :=
        { shelf := k, use := .wptAck k (if r.mode = 1 then r.tExchange else r.tCut), op := 2, flow := flow, len := 64, source := .held body
          keyTag := groupTag r.roundId 5 r.groupIndex }
      enter (m.toDest (bits v (12 * j + 11) (12 * j)) d) s
    else s) s

/-- A waypoint's cover counts, by its cut, CUT_TIME, COVERED, COVER_TIME and the number of crates that had settled from the oldest on at the
cut: its log entries, CLOG_COVERED and the acknowledgements (R107, R108, R541), and a WAYPOINT that waits for it (R315). [log 31 DEDUCED, 246 DEDUCED] -/
def wptCovers (k cut time covered cover below : Nat) (s : State) : State :=
  let s := s.onIntake k (fun n =>
    { n with
      log := n.log.map (fun e => if !isAdmitted e.state && e.state.code != 0 && decide (e.settledAt < cut) then { e with covered := e.covered + 1 } else e)
      coveredSeq := if below = 0 ∨ (n.coveredSeq.toNat + 1) % 2 ^ 64 ≥ below then n.coveredSeq else BitVec.ofNat 64 (below - 1) })
  let s := reclaimLog k (s.onWpt k (fun w => { w with ends := w.ends ++ [(cut, time)] }))
  wptAcks k (ackBody (s.shelf k).round.desc.roundId time cover covered 1 0) s

/-! ### Completion and the buddy (R395, R538) -/

/-- Send a waypoint to the buddy, 64 MiB a message; a message whose source cannot be read, or whose destination the shelf may not use,
ends so at once (R361, R376, R395). [log 161 DEDUCED, 245 DEDUCED] -/
def buddySend (k a n : Nat) (s : State) : State :=
  let h := s.shelf k
  let c := h.reg 0x1948
  let d := s.dest (bits c 15 0)
  let part := 0x400_0000
  let parts := (n + part - 1) / part
  let w := h.wpt
  let s := s.onWpt k (fun w => { w with buddy := tput w.buddy w.doneCut (parts, w.doneTime, w.covered.1, w.covered.2, w.below) })
  (List.range parts).foldl (fun s i =>
    let len := min part (n - i * part)
    let st := if d.usable k then vstat s k (a + i * part) len else .paramUnsupported
    let m : TxMsg :=
      { shelf := k, use := .buddy k w.doneCut, op := 1, flow := bits c 47 32, len := len + 16, source := .blocks [], index := bits c 31 16
        keyTag := (h.reg rBuddyKey).toNat, roff := w.slot * (wptSlot h 0).2 + i * part, sealed := true }
    if st = .ok then enter (sealMsg (m.toDest (bits c 15 0) d) (vread s k (a + i * part) len) s) s
    else useEnded m st (noteRead k (a + i * part) len s)) s

/-- WAYPOINT_COMPLETE (R538): the header is written into the slot, which becomes that of the last complete waypoint. [log 243 DESIGN CHOICE] -/
def execWaypointComplete (k : Nat) (s : State) : Out :=
  .next (
    let h := s.shelf k
    match h.wpt.header with
    | none => s
    | some b =>
      let slot := h.wpt.nextSlot
      let s := vwrite s k (wptSlot h slot).1 b
      let s := s.onWpt k (fun w => { w with
        header := none, slot := slot, doneCut := w.cuts, doneTime := w.cutTime, count := w.count + 1, done := w.save, save := none })
      let s := setSched k 6 (nextBoundary h s.epoch) s
      if nbit h.round.desc.flags 3 then
        buddySend k (wptSlot h slot).1 h.wpt.length s
      else wptCovers k h.wpt.cuts h.wpt.cutTime h.wpt.covered.1 h.wpt.covered.2 h.wpt.below s)

/-- BUDDY_ACK (R395): every message of a waypoint sent to the buddy has ended OK. [log 245 DEDUCED] -/
def execBuddyAck (k : Nat) (s : State) : Out :=
  .next (match (s.shelf k).wpt.buddy.find? (fun e => e.2.1 == 0) with
    | none => s
    | some (cut, _, time, covered, cover, below) =>
      wptCovers k cut time covered cover below (s.onWpt k (fun w => { w with buddy := tdel w.buddy cut, ackTime := time })))

end Sys2Proof.Machine
end

