-- ==== Sys2Proof/WellFormed.lean ====
section
/-!
DEFINITION. Which commands are well formed: operands within the ranges that the manual gives them, each check under its own name.
-/
namespace Sys2Proof

/-- What can be wrong with a command. -/
inductive Ill where
  /-- Start finds outside the parts of the device (R529). -/
  | finds
  /-- A sensor that R490 does not list. -/
  | sensor
  /-- A physical bay above 16 (R17). -/
  | physicalBay
  /-- A fabric channel above 63 (R343). -/
  | channel
  /-- A shelf number above 7 (R443). -/
  | shelf
  /-- A ring above 63 (R89). -/
  | ring
  /-- A logical bay above 15 (R17). -/
  | bay
  /-- A Cask number above 63 (R140). -/
  | cask
  /-- A sequencer number of 64 or more (R16). -/
  | sequencer
  /-- A QSEL above 11 (R323). -/
  | queue
  /-- A refresh slot above 7 (R257). -/
  | slot
  /-- A peer above 15 (R48). -/
  | peer
  /-- An operand field whose value the encoding leaves undefined (R303). -/
  | field
  /-- A predicate register above p7 (R301). -/
  | predicate
  /-- A descriptor register above d15 (R301). -/
  | descriptor
  /-- A status that R21 does not list (R22). -/
  | status
  /-- A NODE or path outside its width (R354). -/
  | path
  /-- A function above VF 8 (R403). -/
  | function
  /-- An aperture offset beyond the largest BAR2 (R404). -/
  | aperture
  /-- A register write that has a command of its own with further operands (R536, R546). -/
  | ownCommand
  /-- A stream that is neither Selective stream 0-7 nor the Link stream, or a sub-stream above 2 (R413). -/
  | ideStream
  /-- A line beyond the Cellar (R426). -/
  | line
  /-- A wear mechanism that is not 1 to 6 (R552). -/
  | mechanism
  /-- A link rate or width that R419 does not list. -/
  | link
  deriving DecidableEq, Repr

/-- The parts that a start's finds name exist: slices, bays and their parts, stacks, channels and lanes. -/
def Finds.wf (x : Finds) : Bool :=
  x.bonds.all (fun e => decide (e.1 < 17)) && x.rows.all (fun e => decide (e.1 < 17)) && x.cols.all (fun e => decide (e.1 < 17)) &&
  x.slices.all (fun e => decide (e.1 < 17)) && x.seqs.all (fun e => decide (e.1 < 17) && decide (e.2 < 5)) &&
  x.pipes.all (fun e => decide (e.1 < 17) && decide (e.2 < 17)) && x.bays.all (fun n => decide (n < 17)) && x.rates.all (fun r => decide (r < 4)) &&
  x.channels.all (fun c => decide (c < 256)) && x.lanes.all (fun l => decide (l < 68))

/-- The codes of R21: the device produces no other (R22). [log 255 DEDUCED] -/
def statusCodes : List Nat :=
  [0x00, 0x01, 0x10, 0x11, 0x12, 0x13, 0x20, 0x21, 0x22, 0x30, 0x31, 0x32, 0x40, 0x41, 0x50, 0x51, 0x52, 0x60]

/-- A register write that is a command of its own: GLOBAL_RESET, whose start needs its finds, and a takeover by RCV_CMD, which needs the
buddy's image. [log 249 DESIGN CHOICE, 270 DEDUCED] -/
def registerCommand (off : Nat) (v : Word) : Bool :=
  decide (off / 8 = 0x20) ||
  (decide (0x10_0000 ≤ off) && decide (off < 0x18_0000) && decide (off % 0x1_0000 = 0x1B20) && decide (v.toNat % 4 = 2))

/-- One check: the name where it fails. -/
def need (p : Prop) [Decidable p] (e : Ill) : List Ill := if p then [] else [e]

/-- What is wrong with a command. [log 9 DEDUCED] -/
def illOf (i : Instr) : List Ill :=
  match i with
  | .powerOn x => need (x.wf = true) .finds
  | .perstLAssert => []
  | .globalResetCold x => need (x.wf = true) .finds
  | .globalResetWarm x => need (x.wf = true) .finds
  | .islandWatchdogReset x => need (x.wf = true) .finds
  | .refclkLoss _ x => need (x.wf = true) .finds
  | .pwrgdInFall _ => []
  | .lockWaitTimeout => []
  | .journalMirror _ => []
  | .tamperAlarm n _ => need (n.toNat < 5) .sensor
  | .rootRemask => []
  | .thermalThrottleStep => []
  | .thermalTrip => []
  | .pacePredictTick _ _ _ _ _ _ _ => []
  | .oppStep n => need (n.toNat < 17) .physicalBay
  | .droopDetect n _ => need (n.toNat < 17) .physicalBay
  | .stretchEnd n => need (n.toNat < 17) .physicalBay
  | .oppStepResume n => need (n.toNat < 17) .physicalBay
  | .edpLimit _ => []
  | .currentSlopeTick _ => []
  | .latticeGate n => need (n.toNat < 17) .physicalBay
  | .latticeWake n => need (n.toNat < 17) .physicalBay
  | .pwrCapWrite _ => []
  | .paceHeartbeatSend => []
  | .ceilingRaiseHold => []
  | .pacePacketReceive chan _ _ => need (chan < 64) .channel
  | .paceCeilingEffective _ => []
  | .paceMemberStale _ => []
  | .quietDwellExpiry k => need (k < 8) .shelf
  | .ppsEdge _ => []
  | .ptpMessage chan _ _ => need (chan < 64) .channel
  | .timeSourceLoss => []
  | .holdoverStep => []
  | .epochSetWrite _ => []
  | .coarseCountReload => []
  | .schedMarkFire k _ => need (k < 8) .shelf
  | .refreshWindowOpen k _ => need (k < 8) .shelf
  | .refreshWindowClose k _ => need (k < 8) .shelf
  | .schedKeyRetire k _ => need (k < 8) .shelf
  | .schedKeyRetireRetry k _ => need (k < 8) .shelf
  | .schedDoorbell k _ => need (k < 8) .shelf
  | .waypointCut k => need (k < 8) .shelf
  | .waypointComplete k => need (k < 8) .shelf
  | .buddyAck k => need (k < 8) .shelf
  | .roundStart k _ => need (k < 8) .shelf
  | .roundCancel k _ => need (k < 8) .shelf
  | .openBegin k => need (k < 8) .shelf
  | .phaseComplete k => need (k < 8) .shelf
  | .releaseSignaturesDone k => need (k < 8) .shelf
  | .drbgReseed _ _ _ => []
  | .cutOff k => need (k < 8) .shelf
  | .freeze k => need (k < 8) .shelf
  | .cohortDigestReceive k => need (k < 8) .shelf
  | .exchangeDeadline k => need (k < 8) .shelf
  | .roundDeadline k => need (k < 8) .shelf
  | .releaseFlip k => need (k < 8) .shelf
  | .relAckWrite k _ => need (k < 8) .shelf
  | .ringCreate k _ _ => need (k < 8) .shelf
  | .ringDestroy k _ => need (k < 8) .shelf
  | .rejlogCfgWrite k _ => need (k < 8) .shelf
  | .clogCfgWrite k _ => need (k < 8) .shelf
  | .recordDeliver k r => need (k < 8) .shelf ++ need (r < 64) .ring
  | .crateSettle k _ => need (k < 8) .shelf
  | .caskEnable b ci _ => need (b < 16) .bay ++ need (ci < 64) .cask
  | .caskDisable b ci => need (b < 16) .bay ++ need (ci < 64) .cask
  | .kegInitDone b ci => need (b < 16) .bay ++ need (ci < 64) .cask
  | .caskScrubDone b ci => need (b < 16) .bay ++ need (ci < 64) .cask
  | .kegSelWrite b ci _ => need (b < 16) .bay ++ need (ci < 64) .cask
  | .heldCommandRelease _ _ => []
  | .segmentRetraction b => need (b < 16) .bay
  | .commandComplete q n => need (q < 64) .sequencer ++ need (n < 12) .queue
  | .foldA q n => need (q < 64) .sequencer ++ need (n < 12) .queue
  | .foldO q n => need (q < 64) .sequencer ++ need (n < 12) .queue
  | .foldP q n => need (q < 64) .sequencer ++ need (n < 12) .queue
  | .spill q n => need (q < 64) .sequencer ++ need (n < 12) .queue
  | .drainW q n => need (q < 64) .sequencer ++ need (n < 12) .queue
  | .drainK q n => need (q < 64) .sequencer ++ need (n < 12) .queue
  | .xstreamM q n => need (q < 64) .sequencer ++ need (n < 12) .queue
  | .shakeM q n => need (q < 64) .sequencer ++ need (n < 12) .queue
  | .noise q n => need (q < 64) .sequencer ++ need (n < 12) .queue
  | .seal q n => need (q < 64) .sequencer ++ need (n < 12) .queue
  | .pcomb q n => need (q < 64) .sequencer ++ need (n < 12) .queue
  | .commit q n => need (q < 64) .sequencer ++ need (n < 12) .queue
  | .retract q n => need (q < 64) .sequencer ++ need (n < 12) .queue
  | .sigv q n => need (q < 64) .sequencer ++ need (n < 12) .queue
  | .flpv q n => need (q < 64) .sequencer ++ need (n < 12) .queue
  | .lagrIn q n => need (q < 64) .sequencer ++ need (n < 12) .queue
  | .lagr q n => need (q < 64) .sequencer ++ need (n < 12) .queue
  | .ecdh q n => need (q < 64) .sequencer ++ need (n < 12) .queue
  | .xstream q n => need (q < 64) .sequencer ++ need (n < 12) .queue
  | .shake q n => need (q < 64) .sequencer ++ need (n < 12) .queue
  | .digest q n => need (q < 64) .sequencer ++ need (n < 12) .queue
  | .ntt q n => need (q < 64) .sequencer ++ need (n < 12) .queue
  | .intt q n => need (q < 64) .sequencer ++ need (n < 12) .queue
  | .modmul q n => need (q < 64) .sequencer ++ need (n < 12) .queue
  | .keysw q n => need (q < 64) .sequencer ++ need (n < 12) .queue
  | .pdec q n => need (q < 64) .sequencer ++ need (n < 12) .queue
  | .refresh q n => need (q < 64) .sequencer ++ need (n < 12) .queue
  | .refreshResume q n => need (q < 64) .sequencer ++ need (n < 12) .queue
  | .refreshStageDone k j => need (k < 8) .shelf ++ need (j < 8) .slot
  | .refreshSlotFree k _ => need (k < 8) .shelf
  | .optstep q n => need (q < 64) .sequencer ++ need (n < 12) .queue
  | .rmaWr q n => need (q < 64) .sequencer ++ need (n < 12) .queue
  | .rmaRd q n => need (q < 64) .sequencer ++ need (n < 12) .queue
  | .tsend q n => need (q < 64) .sequencer ++ need (n < 12) .queue
  | .postrecv q n => need (q < 64) .sequencer ++ need (n < 12) .queue
  | .waitq q n => need (q < 64) .sequencer ++ need (n < 12) .queue
  | .fence q n => need (q < 64) .sequencer ++ need (n < 12) .queue
  | .queueNop q n => need (q < 64) .sequencer ++ need (n < 12) .queue
  | .qrecWrite q _ => need (q < 64) .sequencer
  | .verifierBatchSend k j => need (k < 8) .shelf ++ need (j < 16) .peer
  | .verifierFlush k j => need (k < 8) .shelf ++ need (j < 16) .peer
  | .groupEnvelopeReceive k => need (k < 8) .shelf
  | .relayTailWrite k _ => need (k < 8) .shelf
  | .shareRefreshStart k _ => need (k < 8) .shelf
  | .shareRefreshRevert k _ => need (k < 8) .shelf
  | .shareRefreshAbort k _ => need (k < 8) .shelf
  | .shareRefreshDeadline k => need (k < 8) .shelf
  | .psetLoad k _ _ => need (k < 8) .shelf
  | .psetUnload k _ => need (k < 8) .shelf
  | .ksetLoad k _ _ => need (k < 8) .shelf
  | .ksetUnload k _ => need (k < 8) .shelf
  | .progLoad k _ => need (k < 8) .shelf
  | .serviceRunStart k _ => need (k < 8) .shelf
  | .serviceRunStop k _ => need (k < 8) .shelf
  | .add q _ _ _ _ => need (q < 64) .sequencer
  | .sub q _ _ _ _ => need (q < 64) .sequencer
  | .and q _ _ _ _ => need (q < 64) .sequencer
  | .or q _ _ _ _ => need (q < 64) .sequencer
  | .xor q _ _ _ _ => need (q < 64) .sequencer
  | .sll q _ _ _ _ => need (q < 64) .sequencer
  | .srl q _ _ _ _ => need (q < 64) .sequencer
  | .sra q _ _ _ _ => need (q < 64) .sequencer
  | .mul q _ _ _ _ => need (q < 64) .sequencer
  | .mulhu q _ _ _ _ => need (q < 64) .sequencer
  | .divu q _ _ _ _ => need (q < 64) .sequencer
  | .remu q _ _ _ _ => need (q < 64) .sequencer
  | .min q _ _ _ _ => need (q < 64) .sequencer
  | .max q _ _ _ _ => need (q < 64) .sequencer
  | .minu q _ _ _ _ => need (q < 64) .sequencer
  | .maxu q _ _ _ _ => need (q < 64) .sequencer
  | .clz q _ _ _ => need (q < 64) .sequencer
  | .popc q _ _ _ => need (q < 64) .sequencer
  | .addi q _ _ _ _ => need (q < 64) .sequencer
  | .andi q _ _ _ _ => need (q < 64) .sequencer
  | .ori q _ _ _ _ => need (q < 64) .sequencer
  | .xori q _ _ _ _ => need (q < 64) .sequencer
  | .slli q _ _ _ imm => need (q < 64) .sequencer ++ need (imm.toNat < 64) .field
  | .srli q _ _ _ imm => need (q < 64) .sequencer ++ need (imm.toNat < 64) .field
  | .srai q _ _ _ imm => need (q < 64) .sequencer ++ need (imm.toNat < 64) .field
  | .muli q _ _ _ _ => need (q < 64) .sequencer
  | .movi q _ _ _ => need (q < 64) .sequencer
  | .movk q _ _ _ _ => need (q < 64) .sequencer
  | .cmp q _ _ d _ _ => need (q < 64) .sequencer ++ need (d.toNat < 8) .predicate
  | .cmpi q _ _ d _ _ => need (q < 64) .sequencer ++ need (d.toNat < 8) .predicate
  | .pand q _ d a b => need (q < 64) .sequencer ++ need (d.toNat < 8 ∧ a.toNat < 8 ∧ b.toNat < 8) .predicate
  | .por q _ d a b => need (q < 64) .sequencer ++ need (d.toNat < 8 ∧ a.toNat < 8 ∧ b.toNat < 8) .predicate
  | .pxor q _ d a b => need (q < 64) .sequencer ++ need (d.toNat < 8 ∧ a.toNat < 8 ∧ b.toNat < 8) .predicate
  | .pnot q _ d a => need (q < 64) .sequencer ++ need (d.toNat < 8 ∧ a.toNat < 8) .predicate
  | .pset q _ d _ => need (q < 64) .sequencer ++ need (d.toNat < 8) .predicate
  | .pmov q _ _ => need (q < 64) .sequencer
  | .pld q _ _ => need (q < 64) .sequencer
  | .ld q _ size sx _ _ _ => need (q < 64) .sequencer ++ need (¬(size = 3 ∧ sx = true)) .field
  | .loadReturn q => need (q < 64) .sequencer
  | .st q _ _ _ _ _ => need (q < 64) .sequencer
  | .amoAdd q _ _ _ _ => need (q < 64) .sequencer
  | .amoCas q _ _ _ _ => need (q < 64) .sequencer
  | .sync q _ => need (q < 64) .sequencer
  | .syncRetire q => need (q < 64) .sequencer
  | .b q _ _ => need (q < 64) .sequencer
  | .call q _ _ => need (q < 64) .sequencer
  | .brr q _ _ => need (q < 64) .sequencer
  | .callr q _ _ => need (q < 64) .sequencer
  | .dld q _ d _ _ => need (q < 64) .sequencer ++ need (d.toNat < 16) .descriptor
  | .dsv q _ d _ _ => need (q < 64) .sequencer ++ need (d.toNat < 16) .descriptor
  | .dget q _ _ a f => need (q < 64) .sequencer ++ need (a.toNat < 16) .descriptor ++ need (f.toNat ≤ 8) .field
  | .dset q _ d _ f => need (q < 64) .sequencer ++ need (d.toNat < 16) .descriptor ++ need (f.toNat ≤ 8) .field
  | .dadv q _ d _ => need (q < 64) .sequencer ++ need (d.toNat < 16) .descriptor
  | .dcpy q _ d a => need (q < 64) .sequencer ++ need (d.toNat < 16 ∧ a.toNat < 16) .descriptor
  | .crd q _ _ _ => need (q < 64) .sequencer
  | .cwr q _ _ _ => need (q < 64) .sequencer
  | .take q _ d _ => need (q < 64) .sequencer ++ need (d.toNat < 8) .predicate
  | .takeW q _ d _ _ => need (q < 64) .sequencer ++ need (d.toNat < 8) .predicate
  | .takeWWake q => need (q < 64) .sequencer
  | .issue q _ n _ _ => need (q < 64) .sequencer ++ need (n.toNat < 12) .queue
  | .issueQueueRoom q => need (q < 64) .sequencer
  | .cread q _ _ n => need (q < 64) .sequencer ++ need (n.toNat < 12) .queue
  | .cwait q _ n d _ _ => need (q < 64) .sequencer ++ need (n.toNat < 12) .queue ++ need (d.toNat < 8) .predicate
  | .cwaitWake q => need (q < 64) .sequencer
  | .epoch q _ _ => need (q < 64) .sequencer
  | .epochwait q _ _ => need (q < 64) .sequencer
  | .epochwaitS q _ _ => need (q < 64) .sequencer
  | .epochwaitWake q => need (q < 64) .sequencer
  | .sched q _ _ _ => need (q < 64) .sequencer
  | .waypoint q _ _ => need (q < 64) .sequencer
  | .waypointWake q => need (q < 64) .sequencer
  | .waypointC q _ _ => need (q < 64) .sequencer
  | .nop q _ => need (q < 64) .sequencer
  | .pend q _ => need (q < 64) .sequencer
  | .trap q _ _ => need (q < 64) .sequencer
  | .eret q _ => need (q < 64) .sequencer
  | .note q _ _ => need (q < 64) .sequencer
  | .portModeWrite _ _ => []
  | .channelTrained _ => []
  | .laneFailure _ => []
  | .channelDown _ => []
  | .frameDiscard chan _ _ => need (chan < 64) .channel
  | .neighborSolicitation chan _ _ => need (chan < 64) .channel
  | .dataPacketReceive chan _ _ => need (chan < 64) .channel
  | .dataPacketSend _ => []
  | .ackReceive chan _ _ => need (chan < 64) .channel
  | .ackDelayExpiry _ _ => []
  | .retransmitTimeout _ => []
  | .pathSuspectEnd node path => need (node < 65536 ∧ path < 8) .path
  | .ratePeriod => []
  | .lingerExpiry _ _ => []
  | .receiveAbandon _ _ => []
  | .tpTimerWrite _ => []
  | .tpRateWrite _ => []
  | .destCfgWrite _ _ => []
  | .winRegister k _ => need (k < 8) .shelf
  | .winRevoke k _ => need (k < 8) .shelf
  | .winQuery k _ => need (k < 8) .shelf
  | .binCancel k _ => need (k < 8) .shelf
  | .binQuery k _ => need (k < 8) .shelf
  | .unexpectedAgeExpiry k _ => need (k < 8) .shelf
  | .evtTailWrite k _ => need (k < 8) .shelf
  | .doorbellWrite f _ _ _ _ => need (f.toNat ≤ 8) .function
  | .bar2Read f x _ _ => need (f.toNat ≤ 8) .function ++ need (x < 2 ^ 39) .aperture
  | .bar2Write f x _ _ => need (f.toNat ≤ 8) .function ++ need (x < 2 ^ 39) .aperture
  | .registerWrite f off _ v _ => need (f.toNat ≤ 8) .function ++ need (registerCommand off.toNat v = false) .ownCommand
  | .info f => need (f.toNat ≤ 8) .function
  | .echo f => need (f.toNat ≤ 8) .function
  | .keyGenerate f => need (f.toNat ≤ 8) .function
  | .keyLoad f => need (f.toNat ≤ 8) .function
  | .keyRetire f => need (f.toNat ≤ 8) .function
  | .keyClear f => need (f.toNat ≤ 8) .function
  | .keyQuery f => need (f.toNat ≤ 8) .function
  | .pubkeyGet f => need (f.toNat ≤ 8) .function
  | .attest f => need (f.toNat ≤ 8) .function
  | .attestLast f => need (f.toNat ≤ 8) .function
  | .keyRelease f => need (f.toNat ≤ 8) .function
  | .certGet f => need (f.toNat ≤ 8) .function
  | .modelLoad f => need (f.toNat ≤ 8) .function
  | .modelPageArrive k _ _ _ => need (k < 8) .shelf
  | .modelFree f => need (f.toNat ≤ 8) .function
  | .fwUpdate f => need (f.toNat ≤ 8) .function
  | .fwCommitSvn f => need (f.toNat ≤ 8) .function
  | .lcsNonce f => need (f.toNat ≤ 8) .function
  | .lcsAdvance f => need (f.toNat ≤ 8) .function
  | .debugSet f => need (f.toNat ≤ 8) .function
  | .certInstall f => need (f.toNat ≤ 8) .function
  | .fwKeyRevoke f => need (f.toNat ≤ 8) .function
  | .shelfDefine f => need (f.toNat ≤ 8) .function
  | .shelfQuery f => need (f.toNat ≤ 8) .function
  | .tenantSwitch f => need (f.toNat ≤ 8) .function
  | .quietSet f => need (f.toNat ≤ 8) .function
  | .mailboxFixedRelease f => need (f.toNat ≤ 8) .function
  | .spdmRequest _ => []
  | .getMeasurements _ _ => []
  | .ideKmKeyProg n _ sub _ _ => need (n.toNat ≤ 8 ∧ sub.toNat < 3) .ideStream
  | .ideKmKSetGo n _ sub _ => need (n.toNat ≤ 8 ∧ sub.toNat < 3) .ideStream
  | .ideKmKSetStop n _ sub _ => need (n.toNat ≤ 8 ∧ sub.toNat < 3) .ideStream
  | .ideKmQuery => []
  | .ideIntegrityFailure n => need (n.toNat ≤ 8) .ideStream
  | .lockInterfaceRequest k _ _ => need (k < 8) .shelf
  | .startInterfaceRequest k => need (k < 8) .shelf
  | .stopInterfaceRequest k => need (k < 8) .shelf
  | .getDeviceInterfaceReport k => need (k < 8) .shelf
  | .lockedConfigWrite f _ => need (f.toNat ≤ 8) .function
  | .flrVf f => need (f.toNat ≤ 8) .function
  | .flrPf => []
  | .linkDown => []
  | .patrolScrubLine line => need (line < 576 * 2 ^ 24) .line
  | .celRetryFull _ => []
  | .contextSwitch k _ => need (k < 8) .shelf
  | .contextDelete k _ => need (k < 8) .shelf
  | .bayFault _ _ => []
  | .shelfRestore k => need (k < 8) .shelf
  | .warmRestore k => need (k < 8) .shelf
  | .takeover k _ st _ => need (k < 8) .shelf ++ need (statusCodes.contains st.toNat = true) .status
  | .wearSample m _ _ _ => need (1 ≤ m.toNat ∧ m.toNat ≤ 6) .mechanism
  | .healthDayClose => []
  | .healthHourlyEval => []
  | .i3cDynamicAddress _ => []
  | .i3cPrivateWrite _ => []
  | .i3cPrivateRead _ => []
  | .i3cEnec => []
  | .perstLRelease x => need (x.wf = true) .finds
  | .pcieLinkUp flit rate width => need ((if flit then [4, 5, 6].contains rate.toNat else [1, 4, 5, 6].contains rate.toNat) = true ∧ [4, 8, 16].contains width.toNat = true) .link
  | .configSpaceWrite f _ => need (f.toNat ≤ 8) .function
  | .msixVectorUnmask f _ => need (f.toNat ≤ 8) .function
  | .instructionFetchFault q => need (q < 64) .sequencer
  | .registerRead f _ _ _ => need (f.toNat ≤ 8) .function
  | .cellarChannelLost _ _ => []

/-- A command is well formed where no check fails. [log 9 DEDUCED] -/
def Instr.wf (i : Instr) : Bool := (illOf i).isEmpty

end Sys2Proof
end

