-- ==== Sys2Proof/Machine/Restore.lean ====
section
/-!
DEFINITION. Restores (R157, R163, R164, R319, R542-R548): the bay fault, the restore of a shelf from its last complete waypoint, and the
takeover of a round from a lost device's buddy.
-/
namespace Sys2Proof.Machine

/-- Change the restore state of shelf k. -/
def State.onRcv (s : State) (k : Nat) (f : Rcv → Rcv) : State := s.onShelf k (fun h => { h with rcv := f h.rcv })

/-! ### Reading an image (R540, R543) -/

/-- The directory entry i of an image: KIND, SEALED, OFFSET, LEN and DIGEST. -/
def wptDir (b : Bytes) (i : Nat) : Nat × Bool × Nat × Nat × Bytes :=
  let e := slice b (0x100 + 64 * i) 64
  (field e 0 1, nbit (field e 1 1) 0, field e 8 8, field e 0x10 8, slice e 0x18 32)

/-- A section's bytes: its digest holds, and its tag under a half of the rack-group slot where it is sealed. -/
def wptSection (s : State) (k : Nat) (b : Bytes) (e : Nat × Bool × Nat × Nat × Bytes) : Option Bytes :=
  let x := slice b e.2.2.1 e.2.2.2.1
  if sha3 x = e.2.2.2.2 then
    if e.2.1 then
      let n := x.length - 16
      rackOpen s k (wptNonce (field b 0x1C 2) (field b 0x1E 2) (field b 0x18 4) e.1 k) (b.take 64) (x.take n) (x.drop n)
    else some x
  else none

/-- Every section of an image by its KIND, or none where one fails. -/
def wptParse (s : State) (k : Nat) (b : Bytes) : Option (Tab Bytes) :=
  (List.range (field b 0x41 1)).foldl (fun t i =>
    match t, wptSection s k b (wptDir b i) with
    | some t, some x => some (tput t (wptDir b i).1 x)
    | _, _ => none) (some [])

/-- The lines of an image that must be readable: all but those of a plain CASKS section, which carry the poisoned marker of the Kegs. -/
def wptReadable (s : State) (k a : Nat) (b : Bytes) : Bool :=
  vstat s k a 1024 == .ok &&
  (List.range (field b 0x41 1)).all (fun i =>
    let e := wptDir b i
    match vstat s k (a + e.2.2.1) e.2.2.2.1 with
    | .ok => true
    | .poisoned => e.1 == 6 && !e.2.1
    | _ => false)

/-! ### The parts of a restore -/

/-- Write a section back into the regions that it copied. -/
def putRegions (k : Nat) : List (Nat × Nat) → Bytes → State → State
  | [], _, s => s
  | r :: l, b, s => putRegions k l (b.drop r.2) (vwrite (vzero s k r.1 r.2) k r.1 (b.take r.2))

/-- Write every section of an image that copied memory back (R543 step 3). -/
def putSections (k : Nat) (t : Tab Bytes) (s : State) : State :=
  let h := s.shelf k
  let put (kind : Nat) (l : List (Nat × Nat)) (s : State) : State := if tmem t kind then putRegions k l (tget [] t kind) s else s
  put 10 (relRegions h) (put 9 (sealRegions h) (put 8 (verifRegion h) (put 2 (clientRegion h) s)))

/-- The queues of the shelf are emptied and every completion counter is cleared (R319, R341): accepted commands that have finished are
counted with their records first, the others end with the restore. [log 125 DEDUCED, 248 DEDUCED] -/
def emptyQueues (k : Nat) (s : State) : State :=
  (s.shelf k).seqs.foldl (fun s q => (List.range 12).foldl (fun s n =>
    (countFinished q n 32 s).onQueue q n (fun u => { queueDiscard u with inflight := [], counted := u.counted + u.inflight.length, count := 0, recent := [], halted := false })) s) s

/-- Bay-store contents outside Cask areas and the data region are open after a restore (R319). [log 249 DESIGN CHOICE] -/
def openStores (k : Nat) (s : State) : State :=
  (s.shelf k).bays.foldl (fun s b =>
    let (x, s) := drawBytes storeSize s
    dwrite (memZero s (storeAddr b 0) storeSize) (storeAddr b 0) x) s

/-- The bays take the Casks of a waypoint, and drop held commands and retractions. -/
def putBays (k : Nat) (l : List (Tab Word × Tab Cask)) (s : State) : State :=
  ((s.shelf k).bays.zip l).foldl (fun s e => s.onBay e.1 (fun y => { y with mods := e.2.1, casks := e.2.2, hold := [], retr := [] })) s

/-- The sequencers start the phase again from their images (R319). [log 248 DEDUCED] -/
def restartSeqs (k : Nat) (l : Tab Seq) (s : State) : State :=
  let h := s.shelf k
  let s := h.seqs.foldl (fun s q => s.onSeq q (fun x => { seqOfImage (seqImage (tget {} l q)) with
    retired := x.retired, cycle := x.cycle, note := x.note, noteUnread := x.noteUnread, noteLost := x.noteLost })) s
  let s := s.onShelf k (fun h => { h with wpt := { h.wpt with seqs := h.seqs.map (fun q => (q, s.seq q)) } })
  let p := h.round.phase
  if phaseRuns h p then startPhase k (h.prog.entries.getD p.code noEntry) false s else s

/-- A ledger as a restore takes it up: a segment whose retraction had been accepted counts as retired. -/
def ledgerBack (l : List LedgerEntry) : List LedgerEntry :=
  l.map (fun e => { e with segs := e.segs.map (fun g => { g with retired := g.retractAcc }) })

/-- Settled in a way that a restore takes back (R163 step 2). -/
def settledState : LogState → Bool
  | .committed => true | .retracted => true | .share => true | .arriving => false | .admitted => false | .refused => false

/-- The crate-log entries of the round settled after cut n return to STATE 0x1. -/
def reopenLog (k n : Nat) (s : State) : State :=
  let l := ((s.shelf k).intake.log.filter (fun e => settledState e.state && decide (n ≤ e.settledAt) && e.roundId == (s.shelf k).round.desc.roundId)).map (·.logSeq)
  l.foldl (fun s seq => writeLogHeader k seq (onLog k seq (fun e => { e with state := .admitted, settledAt := 0, covered := 0 }) s)) s

/-- One crate returns to its ring, and its record waits for delivery (R163 step 3, R543 step 4). [log 251 DEDUCED] -/
def replayCrate (k : Nat) (e : LogEntry) (s : State) : State :=
  let (st, b) := clogRead s k (e.offset + 64) e.len
  let s := noteClog k (e.offset + 64) e.len s
  let off := match ringOf s k e.ring with | none => 0 | some x => x.head
  let s := ringFlow k e.ring (onRing k e.ring (fun x =>
    (x.alloc e.len e.logSeq).onEntry e.logSeq (fun y => { y with data := b, bad := if st = .ok then [] else [(0, e.len)] })) s)
  let s := onLog k e.logSeq (fun x => { x with entryOffset := off }) s
  let s := onRing k e.ring (fun x => { x with waiting := insRecord (crateRecord e.logSeq e.time e.ring off b) x.waiting }) s
  if e.kind = 1 then setClient k e.client .provisional s else s

/-- Every ring of the shelf is emptied, and the crates in STATE 0x1 return to theirs in LOG_SEQ order. [log 251 DEDUCED] -/
def replayLog (k : Nat) (s : State) : State :=
  let s := s.onIntake k (fun n => { n with rings := n.rings.map (fun e => (e.1, { e.2 with entries := [], waiting := [], full := false })) })
  let s := (s.shelf k).seqs.foldl (fun s q => s.onSeq q (fun x => { x with inbox := [] })) s
  let l := (s.shelf k).intake.log.filter (fun e => isAdmitted e.state)
  (l.foldl (fun s e => replayCrate k e s) s).onRcv k (fun r => { r with replayed := min l.length 0xFFFF })

/-- Clients that admission has rejected since the cut keep that entry (R163, R545): no crate of theirs is in the log. [log 250 DEDUCED] -/
def keepRejected (k : Nat) (old : List Nat) (s : State) : State :=
  old.foldl (fun s j =>
    let c := (s.shelf k).round.desc.clientBase + j
    if ctabGet s k j == .absent && !(s.shelf k).intake.log.any (fun e => isAdmitted e.state && e.kind == 1 && e.client == c) then ctabSet k j .rejected s
    else s) s

/-- Steps 4 to 6 of R543, with the restart of R319: the waypoint's parts are in place, and `resend` is the notice's RESEND. [log 250 DEDUCED, 251 DEDUCED] -/
def restoreEnd (k resend : Nat) (seqs : Tab Seq) (cut cover covered : Nat) (s : State) : State :=
  let s := copyData k s
  let s := restartSeqs k seqs s
  let s := (s.shelf k).ledger.entries.foldl (fun s e => if (logEntry s k e.logSeq).isNone then s else trySettle k e.logSeq (resendRetractions k e s)) s
  let s := if (s.shelf k).round.phase == .seal then enterSeal k s else s
  let s := resendPartials k s
  let s := wptAcks k (ackBody (s.shelf k).round.desc.roundId cut cover covered 2 resend) s
  s.onShelf k (fun h => { h with state := .ready, rcv := { h.rcv with state := .none, restores := sat 16 1 h.rcv.restores } })

/-! ### The restore of a shelf (R163, R543) -/

/-- The registers and tables of the shelf as the waypoint saved them; what R545 lets stand stays. [log 244 DESIGN CHOICE, 250 DEDUCED] -/
def putSave (k : Nat) (w : WptSave) (s : State) : State :=
  let h := s.shelf k
  let cut := h.wpt.doneCut
  let since (st : LogState) : Nat :=
    (h.intake.log.filter (fun e => e.state == st && decide (cut ≤ e.settledAt) && e.roundId == h.round.desc.roundId && e.kind == 1 &&
      (match clientEntry s k e.client with | .rejected => true | .absent => false | .provisional => false | .committed => false))).length
  let r := { w.round with
    restart := true, sealDone := false, late := h.round.late, duplicate := h.round.duplicate, rejected := h.round.rejected - since .retracted
    startRefused := h.round.startRefused, holdover := h.round.holdover || w.round.holdover }
  let s := s.onShelf k (fun h => { h with
    round := r
    sched := w.sched ++ h.sched.filter (fun e => decide (8 ≤ e.1))
    ledger := { w.ledger with
      entries := ledgerBack w.ledger.entries, rowBad := false, steered := h.ledger.steered, highOpen := h.ledger.highOpen, stalls := h.ledger.stalls
      fault := h.ledger.fault, rollback := true, status := h.ledger.status, faultSeq := h.ledger.faultSeq }
    recov := w.recov
    verif := { w.verif with flpv := [], flpvOk := [], txSeq := h.verif.txSeq, rxSeen := h.verif.rxSeen, shref := h.verif.shref, head := h.verif.head, held := h.verif.held }
    sealSt := w.sealSt
    rel := { w.rel with writing := h.rel.writing || w.rel.writing, copy := h.rel.copy || w.rel.copy }
    wpt := { h.wpt with header := none, save := none, due := false } })
  (putBays k w.bays s).onIntake k (fun n => { n with
    shareSenders := w.senders ++ (n.log.filter (fun e => e.kind == 2 && (isAdmitted e.state || (settledState e.state && decide (cut ≤ e.settledAt))))).map (·.client) })

/-- A restore cannot be made: the round ends FAULTED, and the fence goes. [log 252 DEDUCED] -/
def restoreFail (k : Nat) (st : Status) (s : State) : State :=
  endRound k .faulted st (s.onShelf k (fun h => { h with state := .ready, rcv := { h.rcv with state := .none } }))

/-- The last complete waypoint of shelf k is restored (R543). [log 244 DESIGN CHOICE] -/
def restoreShelf (k : Nat) (s : State) : State :=
  let h := s.shelf k
  if h.round.active then
    match h.wpt.done with
    | none => restoreFail k .shelfFenced s
    | some w =>
      if !h.wpt.valid then restoreFail k .shelfFenced s
      else
        let slot := wptSlot h h.wpt.slot
        let b := vread s k slot.1 slot.2
        match readImage s k h.prog.addr with
        | .error _ => restoreFail k .paramUnsupported s
        | .ok p =>
          if p.digest ≠ slice b 0x20 32 then restoreFail k .paramUnsupported s
          else if !wptReadable s k slot.1 b then restoreFail k .uncorrectable s
          else match wptParse s k b with
            | none => restoreFail k .uncorrectable s
            | some t =>
              let rej := clientsWhere s k (fun c => c == .rejected)
              let s := s.onProg k (fun x => { p with addr := x.addr, result := x.result })
              let s := refuseRx k (emptyQueues k (stopSeqs k s))
              let s := putSave k w s
              let s := openStores k (putSections k t s)
              let s := replayLog k (reopenLog k h.wpt.doneCut s)
              restoreEnd k 1 w.seqs h.wpt.doneTime w.cover.2 w.cover.1 (keepRejected k rej s)
  else s.onShelf k (fun h => { h with state := .ready, rcv := { h.rcv with state := .none } })

/-- A retraction that cannot read its source (R157): the shelf is rolled back where the segment came after the cut of its last waypoint,
and the round ends FAULTED otherwise. [log 48 DEDUCED] -/
def rollback (k : Nat) (g : Segment) (st : Status) (s : State) : State :=
  let w := (s.shelf k).wpt
  if w.valid && decide (w.doneCut ≤ g.cut) then restoreShelf k s else endRound k .faulted st s

/-- The ledger reads shelf k's slice for f: a row beyond correction rolls the shelf back, and waits for its spare row (R164). [log 49 DESIGN CHOICE] -/
def withLedger (k : Nat) (f : State → State) (s : State) : State :=
  if (s.shelf k).ledger.rowBad && (s.shelf k).round.active then
    restoreShelf k (s.onLedger k (fun l => { l with rowBad := false, steered := true }))
  else f s

/-- SEGMENT_RETRACTION (R156, R157): the oldest retraction command of bay b. -/
def execSegmentRetraction (b : Nat) (s : State) : Out :=
  .next (withLedger ((shelfOf s b).getD 0) (segmentRetraction rollback b) s)

/-- CRATE_SETTLE (R155). [log 46 DEDUCED] -/
def execCrateSettle (k seq : Nat) (s : State) : Out := .next (withLedger k (trySettle k seq) s)

/-- COMMIT (R153). -/
def execCommit (q n : Nat) (s : State) : Out := .next (withLedger ((shelfOf s (q / 4)).getD 0) (accept 0x10 commitRun q n) s)

/-- RETRACT (R153): with an open entry it completes when every retraction has retired. -/
def execRetract (q n : Nat) (s : State) : Out := .next (withLedger ((shelfOf s (q / 4)).getD 0) (accept 0x11 retractRun q n) s)

/-- FOLD_P (R149): a FOLD.P that lacks ledger space is passed over (R150). -/
def execFoldP (q n : Nat) (s : State) : Out := .next (withLedger ((shelfOf s (q / 4)).getD 0) (foldPTake q n) s)

/-! ### Bay faults (R542) -/

/-- Logical bay b has no physical bay: the fenced one has no clock, and no spare comes in. -/
def bayOut (b : Nat) (s : State) : State :=
  { s with dev := { s.dev with phys := s.dev.phys.set b 17, spare := none }, pow := { s.pow with bays := tdel s.pow.bays (s.physOf b) } }

/-- The fenced bay has no spare: a running round ends FAULTED. [log 246 DEDUCED] -/
def bayLost (b k : Nat) (s : State) : State :=
  let s := bayOut b s
  endRound k .faulted .shelfFenced s

/-- The spare bay x takes logical bay b: its slice and store are zeroised, its DRBG is instantiated, and SPARE_USED is set with the
number of the physical bay that was replaced (R542, R557). [log 248 DEDUCED, 258 DEDUCED] -/
def spareIn (b x : Nat) (s : State) : State :=
  let old := s.physOf b
  let s : State := { s with dev := { s.dev with phys := s.dev.phys.set b x, spare := none } }
  let s : State := { s with pow := { s.pow with bays := tput (tdel s.pow.bays old) x (tget {} s.pow.bays old) } }
  let s := memZero (memZero s (loftAddr b 0) sliceSize) (storeAddr b 0) storeSize
  let s := s.onBay b (fun _ => { sampler := { inst := true } })
  alertEvent 7 old ([0, 1, 2, 3].foldl (fun (s : State) i =>
    let q := b * 4 + i
    { s with seqs := tdel s.seqs q, qerrs := tdel s.qerrs q, queues := s.queues.filter (fun e => !(e.1 / 16 == q)) }) s)

/-- BAY_FAULT (R542) in logical bay b; `bist` says that the spare passes its test. [log 246 DEDUCED, 247 DEDUCED] -/
def execBayFault (b : BitVec 4) (bist : Bool) (s : State) : Out :=
  .next (
    let old := s.physOf b.toNat
    if 17 ≤ old then s
    else
      let s := addRepair (fun r => { r with bays := addTo old r.bays }) s
      match shelfOf s b.toNat with
      | none =>
        match s.dev.spare with
        | some x => if bist then spareIn b.toNat x s else bayOut b.toNat (addRepair (fun r => { r with bays := addTo x r.bays }) s)
        | none => bayOut b.toNat s
      | some k =>
        let s := fenceRefreshes k b.toNat s
        let s := (fenceShelf k s).onRcv k (fun r => { r with cause := 1, bay := old })
        match s.dev.spare with
        | none => bayLost b.toNat k s
        | some x =>
          if bist then (spareIn b.toNat x s).onRcv k (fun r => { r with state := .restoring })
          else bayLost b.toNat k (addRepair (fun r => { r with bays := addTo x r.bays }) s))

/-- SHELF_RESTORE (R543): the spare bay of a bay fault is in place. [log 247 DEDUCED] -/
def execShelfRestore (k : Nat) (s : State) : Out :=
  .next (match (s.shelf k).rcv.state with
    | .restoring => restoreShelf k s
    | .none => s | .fenced => s | .wait => s | .replaying => s)

/-- The entries that the round needs are resident (R544). [log 247 DEDUCED] -/
def entriesBack (s : State) (k : Nat) : Bool :=
  let h := s.shelf k
  !h.sealedRound || (h.lat.ksets.any (fun e => e.2.id == h.round.desc.keysetId) && h.roundSet.isSome)

/-- WARM_RESTORE (R544): a shelf that waits after a warm reset. [log 247 DEDUCED] -/
def execWarmRestore (k : Nat) (s : State) : Out :=
  .next (match (s.shelf k).rcv.state with
    | .wait => if entriesBack s k then restoreShelf k s else s
    | .none => s | .fenced => s | .restoring => s | .replaying => s)

/-! ### Takeover (R546, R547) -/

/-- Word i of the ROUND section. -/
def roundWord (b : Bytes) (i : Nat) : Nat := field b (0x400 + 8 * i) 8

/-- The round that a ROUND section holds, in a phase. [log 243 DESIGN CHOICE, 252 DEDUCED] -/
def roundOf (b : Bytes) (code : Nat) (old : Round) : Round :=
  let w := roundWord b
  let d := parseDesc (b.take 256)
  let phase := ([Phase.idle, .open_, .collect, .recover, .unmask, .noise, .step, .seal, .release].find? (fun p => p.code == code)).getD .idle
  { active := true, phase := phase, desc := d, descDigest := sha3 d.raw, highId := some d.roundId, lo := d.roundId % 2 ^ 32, startRefused := old.startRefused
    committed := w 0, rejected := w 1, late := w 2, duplicate := w 3, dropped := w 4, divergent := w 5
    begun := nbit (w 6) 0, cutPassed := nbit (w 6) 1, exchPassed := nbit (w 6) 2, frozen := nbit (w 6) 3, holdover := nbit (w 6) 4, tableSent := nbit (w 6) 5
    restart := true, ownDigest := if nbit (w 6) 3 then slice b 0x600 32 else []
    peerDigests := (maskCasks (w 7)).map (fun j => (j, slice b (0x700 + 32 * j) 32)) }

/-- The recovery state of the ROUND and RECOVERY sections. [log 243 DESIGN CHOICE] -/
def recovOf (d : RoundDesc) (b x : Bytes) : Recov :=
  let w := roundWord b
  let n := d.clientCount
  let p1 := roundUp (n * (d.k + 1) * 64) 0x10000
  let p2 := p1 + roundUp (n * 128) 0x10000
  let rec_ (off size i : Nat) : Option Bytes := let y := slice x (off + i * size) size; if y.all (· == 0) then none else some y
  { checked := nbit (w 8) 0, short := nbit (w 8) 1, checkFail := nbit (w 8) 2, complete := nbit (w 8) 3
    firstBad := w 9, accepted := w 10, wrongKind := w 11, invalid := w 12, unused := w 13, secretsN := w 14, pairsN := w 15
    digest := if d.mode = 1 then slice b 0x620 32 else []
    shares := (List.range (n * (d.k + 1))).filterMap (fun i =>
      let y := slice x (i * 64) 48
      if y.all (· == 0) then none else some (i, ⟨field y 0 16, field y 16 16, field y 32 16⟩))
    folded := if d.mode = 1 then
        (chunks 8 (slice b 0x100 0x300 ++ (List.range (n * (d.k + 1))).flatMap (fun i => slice x (i * 64 + 48) 16))).foldl
          (fun t e => if field e 2 6 = 0 then t else tput t (field e 0 2) (field e 2 6)) []
      else []
    secrets := (List.range n).filterMap (fun i => (rec_ p1 128 i).map (fun y => (i, y.take 32)))
    selfKeys := (List.range n).filterMap (fun i => let y := slice x (p1 + i * 128 + 64) 32; if y.all (· == 0) then none else some (i, y))
    pairs := (List.range ((n - d.minCohort) * d.k)).filterMap (fun i => (rec_ p2 64 i).map (fun y => (i, y.take 32))) }

/-- The shared-mode and sealed-mode status of the ROUND section; the SEQ state of group messages starts afresh. -/
def verifOf (b : Bytes) (old : Verif) : Verif :=
  let w := roundWord b
  { accepted := w 16, rejectJoint := w 17, rejectLocal := w 18, rejectPeer := w 19, bad := w 20, lost := w 21, orphans := w 22, lateReject := w 23
    sent := w 24, peerBad := w 25, head := old.head, held := old.held, shref := old.shref }

def sealOf (b : Bytes) : SealSt :=
  let w := roundWord b
  { sumHdr := nbit (w 26) 0, sumReady := nbit (w 26) 1, pdecDone := nbit (w 26) 2, combined := nbit (w 26) 3, keysetDiscard := nbit (w 26) 4
    unreliable := nbit (w 26) 5, sumBudget := w 27, stored := maskCasks (w 28), waiting := maskCasks (w 29)
    passed := (List.range (w 39)).map (fun i => nbits (w 38) (4 * i + 3) (4 * i)), set_ := maskCasks (w 31)
    drained := (chunks 16 (slice b 0x100 0x280)).filterMap (fun e => if field e 8 8 = 0 then none else some (field e 0 8, field e 8 8))
    pdecObjs := (List.range 256).filter (nbit (field b 0x380 32)), combObjs := (List.range 256).filter (nbit (field b 0x3A0 32))
    surplus := w 32, badPartial := w 33, resent := w 34, sumDigest := if nbit (w 26) 1 then slice b 0x640 32 else [] }

/-- A segment record (R162). -/
def segOf (b : Bytes) : Segment :=
  let v := leNat b
  { bay := nbits v 3 0, cask := nbits v 9 4, seg := nbits v 15 10, neg := nbit v 16, retractAcc := nbit v 17, retired := nbit v 17
    etype := nbits v 31 24, scaleE := nbits v 39 32, coff := nbits v 60 40, count := nbits v 81 61, srcOff := nbits v 111 82, tile := nbits v 119 112 }

/-- The open entries of a ledger image (R162). -/
def ledgerOf (b : Bytes) : List LedgerEntry :=
  let n := field b 0x10 4
  let segs := 64 + 32 * n
  (List.range n).map (fun i =>
    let e := slice b (64 + 32 * i) 32
    let first := field e 0x18 4
    let count := ((List.range 64).filter (nbit (field e 0x10 8))).length
    { logSeq := field e 0 8, client := field e 8 4, plan := field e 0xC 1
      verdict := (match field e 0xD 1 with | 1 => .commit | 2 => .retract | _ => .pending)
      reason := field e 0xE 1, forced := nbit (field e 0xF 1) 0, unreadable := nbit (field e 0xF 1) 1
      segs := (List.range count).map (fun j => segOf (slice b (segs + 16 * (first + j)) 16)) })

/-- The Casks of a mask from images that follow one another, and the bytes after them. -/
def casksOf : List Nat → Bytes → Tab Cask × Bytes
  | [], b => ([], b)
  | ci :: r, b =>
    let n := (caskHead b).imageLen
    let t := casksOf r (b.drop n)
    ((ci, caskOfImage (b.take n) (fun _ => false)) :: t.1, t.2)

/-- The bay blocks of a CASKS section. -/
def baysOf : Nat → Bytes → List (Tab Word × Tab Cask)
  | 0, _ => []
  | n + 1, b =>
    let t := casksOf (maskCasks (field b 0 8)) (b.drop 576)
    (modsOf (slice b 64 512), t.1) :: baysOf n t.2

/-- The Casks of a bay's image, where each Cask is free and its areas pass R115 beside those before it (R144). [log 255 DEDUCED] -/
def bayFits (b : Nat) : List (Nat × Cask) → State → Option State
  | [], s => some s
  | (ci, c) :: r, s =>
    let s1 := s.onCask b ci (fun x => { cfg := c.cfg &&& ~~~1, area := c.area, keg := c.keg, scrub := x.scrub })
    if !(s.cask b ci).en && caskEnableOk s1 b ci && bit c.cfg 0 then bayFits b r (s.onCask b ci (fun _ => c)) else none

/-- The bays of shelf k take the FOLD_MOD entries and Casks of a taken-over image beside their other Casks; none where R144 refuses one. [log 255 DEDUCED] -/
def takeBays (k : Nat) (l : List (Tab Word × Tab Cask)) (s : State) : Option State :=
  ((s.shelf k).bays.zip l).foldl (fun o e => o.bind (fun s => bayFits e.1 e.2.2 (s.onBay e.1 (fun y => { y with mods := e.2.1, hold := [], retr := [] })))) (some s)

/-- The PENDING records: by client, LOG_SEQ and ROOT. -/
def orphansOf (b : Bytes) : Tab (Nat × Bytes) :=
  (chunks 48 b).map (fun e => (field e 0 4, field e 8 8, slice e 0x10 32))

/-- What the round of a descriptor needs on the spare is there (R546). [log 254 DEDUCED] -/
def takeoverNeeds (s : State) (k : Nat) (d : RoundDesc) : Option RelBlocks :=
  let h := s.shelf k
  let high := match h.round.highId with | none => false | some n => decide (d.roundId ≤ n)
  let bad := high || (List.range 64).any (fun r => nbit d.ringMask r && (ringOf s k r).isNone) ||
    useDenied s d.signSlot (signUse k 7) || useDenied s (d.signSlot + 1) (signUse k 6) || useDenied s d.sealSlot (sealUse k) ||
    (List.range (d.groupSize - 1)).any (fun j => useDenied s (d.peerSlot + j) (peerUse k)) ||
    !h.prog.loaded || d.programDigest != h.prog.digest || (d.mode == 3 && !h.lat.ksets.any (fun e => e.2.id == d.keysetId)) ||
    intakeBad h d || (modeBad s k d).isSome || (firstBad (lateChecks s k d)).isSome
  if bad then none
  else match releaseChecks s k d (intakeRegions h) with | .error _ => none | .ok x => some x

/-- RESULT of a takeover. -/
def takeoverDone (k : Nat) (st : Status) (s : State) : State := s.onRcv k (fun r => { r with result := st.code })

/-- The NOISED groups that the scratch of a RELEASE section lists. -/
def groupsOf (b : Bytes) : Tab (List Nat) :=
  (chunks 8 b).foldl (fun t e => if e.all (· == 0) then t else tupd [] t (field e 0 4) (insSet (field e 4 4))) []

/-- The shard elements that it marks stepped. -/
def stepsOf (b : Bytes) : List Nat := b.zipIdx.flatMap (fun e => ((List.range 8).filter (nbit e.1.toNat)).map (fun j => 8 * e.2 + j))

/-- The fold-unit state of an image for the bays of a shelf: the Casks with sealed-mode plaintext are marked (R249). -/
def imageBays (n : Nat) (t : Tab Bytes) : List (Tab Word × Tab Cask) :=
  (baysOf n (tget [] t 6)).zipIdx.map (fun e => (e.1.1, e.1.2.map (fun c => (c.1, { c.2 with plain := nbit (field (tget [] t 1) (0xF00 + 8 * e.2) 8) c.1 }))))

/-- The spare takes the round up from an image whose sections are t; s has its Casks. A round that was in RELEASE seals again, into the
spare's own buffer (R291). [log 244 DESIGN CHOICE, 251 DEDUCED, 252 DEDUCED] -/
def takeRound (k : Nat) (b : Bytes) (t : Tab Bytes) (x : RelBlocks) (s : State) : State :=
  let rb := tget [] t 1
  let r := roundOf rb (min 7 (field b 7 1)) (s.shelf k).round
  let d := r.desc
  let led := tget [] t 3
  let late (p : Phase) : Bool := decide (p.code < r.phase.code)
  let seqs := ((s.shelf k).seqs.zip (chunks 896 (tget [] t 5))).map (fun e => (e.1, seqOfImage e.2))
  let s := clearCounters k s
  let s := s.onShelf k (fun h => { h with
    round := { r with sum := if d.mode = 3 then (match h.pset (d.inst % 16) with | none => (0, 0) | some p => h.sumArea p) else (0, 0) }
    sched := (List.range 8).map (fun e =>
      let y := slice rb (0x680 + 16 * e) 16
      (e, { time := BitVec.ofNat 64 (field y 0 8), kind := field y 8 4, armed := nbit (field y 12 4) 0 })) ++ h.sched.filter (fun e => decide (8 ≤ e.1))
    ledger := { entries := ledgerOf led, retractSegs := roundWord rb 35, noopSegs := roundWord rb 36, forced := roundWord rb 37 }
    recov := recovOf d rb (tget [] t 7), verif := verifOf rb h.verif, sealSt := sealOf rb
    prog := { h.prog with service := false }
    wpt := h.wpt.fresh d s.epoch
    rcv := { h.rcv with cause := 3, restores := 0, replayed := 0, orphans := orphansOf (tget [] t 4) }
    intake := { h.intake with
      log := [], logHead := 0, clogFull := false, nextSeq := max h.intake.nextSeq (field led 8 8), shareSenders := []
      rings := h.intake.rings.map (fun e => (e.1, { e.2 with entries := [], waiting := [], full := false })) } })
  let s := (relStart k x s).onRel k (fun y => { y with
    noised := d.noiseEn && !x.witness && late .noise, stepped := d.stepEn && !x.witness && late .step
    copy := d.stepEn && !x.witness && decide (Phase.step.code ≤ r.phase.code)
    modelDigest := if d.stepEn then slice rb 0xF80 32 else [], nonfinite := roundWord rb 40 })
  let scr := (tget [] t 10).drop ((shardRegion (s.shelf k)).map (·.2)).sum
  let s := s.onRel k (fun y => match r.phase with
    | .noise => { y with groups := groupsOf scr } | .step => { y with steps := stepsOf scr }
    | .idle => y | .open_ => y | .collect => y | .recover => y | .unmask => y | .seal => y | .release => y)
  let s := openStores k (putSections k t (emptyQueues k (refuseRx k s)))
  restoreEnd k 2 seqs (field b 0x10 8) (field b 0x10 8) (field led 0x18 8) s

/-- TAKEOVER (R546): RCV_CMD is written with OP 0b10; the read of the buddy's window ends with a status and returns the image. [log 253 DESIGN CHOICE, 254 DEDUCED, 255 DEDUCED] -/
def execTakeover (k : Nat) (v : Word) (status : BitVec 8) (image : Bytes) (s : State) : Out :=
  .next (
    let s := s.onRcv k (fun r => { r with cmd := v &&& 0xFFFF_0FFF_0000_0000 })
    let h := s.shelf k
    let ready := h.desc.isSome && (match h.state with | .ready => true | .fenced => false | .switching => false)
    if !ready || h.round.active || serviceActive s k then takeoverDone k .paramUnsupported s
    else if status ≠ 0 then (if statusCodes.contains status.toNat then s.onRcv k (fun r => { r with result := status.toNat }) else s)
    else if field image 0 4 ≠ 0x5450574B ∨ field image 4 2 ≠ 1 then takeoverDone k .uncorrectable s
    else match wptParse s k image with
      | none => takeoverDone k .uncorrectable s
      | some t =>
        match takeoverNeeds s k (parseDesc ((tget [] t 1).take 256)) with
        | none => takeoverDone k .paramUnsupported s
        | some x =>
          match takeBays k (imageBays h.bays.length t) s with
          | none => takeoverDone k .paramUnsupported s
          | some s' =>
            if field image 0x40 1 ≠ h.bays.length ∨ slice image 0x20 32 ≠ h.prog.digest then takeoverDone k .paramUnsupported s
            else takeoverDone k .ok (takeRound k image t x s'))

end Sys2Proof.Machine
end

