-- ==== Sys2Proof/Machine/Sched.lean ====
section
/-!
DEFINITION. The schedule table (R525, R526): what an entry does when it fires.
-/
namespace Sys2Proof.Machine

/-- Change entry e of shelf k. -/
def State.onSched (s : State) (k e : Nat) (f : SchedEntry → SchedEntry) : State :=
  s.onShelf k (fun h => { h with sched := tput h.sched e (f (tget {} h.sched e)) })

def State.schedEntry (s : State) (k e : Nat) : SchedEntry := tget {} (s.shelf k).sched e

/-- Entry e has fired: FIRED and RESULT, and the next time of a periodic entry (R526). -/
def schedFired (k e : Nat) (st : Status) (s : State) : State :=
  s.onSched k e (fun x =>
    { x with
      fired := true, result := st.code, retry := none, armed := x.period != 0
      time := if x.period = 0 then x.time else x.time + BitVec.ofNat 64 (x.period * 1_000_000) })

/-- An armed entry of a kind reaches its time; `act` answers RESULT, or none where it does not fire yet. [log 221 DESIGN CHOICE] -/
def schedFire (k e kind : Nat) (act : SchedEntry → State → Option Status × State) (s : State) : State :=
  let x := s.schedEntry k e
  if x.armed && x.kind == kind && x.retry.isNone && (s.shelf k).desc.isSome then
    match act x (s.toEpoch x.time.toNat) with
    | (some st, s) => schedFired k e st s
    | (none, s) => s
  else s

/-- SCHED_MARK_FIRE (R526). -/
def execSchedMarkFire (k : Nat) (e : BitVec 8) (s : State) : Out := .next (schedFire k e.toNat 1 (fun _ s => (some .ok, s)) s)

/-- REFRESH_WINDOW_OPEN (R268). -/
def execRefreshWindowOpen (k : Nat) (e : BitVec 8) (s : State) : Out := .next (schedFire k e.toNat 2 (fun _ s => (some .ok, refreshOpen k s)) s)

/-- REFRESH_WINDOW_CLOSE (R268). -/
def execRefreshWindowClose (k : Nat) (e : BitVec 8) (s : State) : Out := .next (schedFire k e.toNat 3 (fun _ s => (some .ok, refreshClose k s)) s)

/-- KEY_RETIRE of slot ARG for the shelf: retried in 10 ms while pages are left (R526, R481). [log 231 DEDUCED] -/
def schedRetire (k e : Nat) (x : SchedEntry) (s : State) : Option Status × State :=
  if !mayManage s (k + 1) x.arg then (some .deniedAttribute, s)
  else if (s.slot x.arg).cur.isSome && (s.slot x.arg).prev.isSome && decide (0 < (s.slot x.arg).prevPages) then
    (none, s.onSched k e (fun x => { x with retry := some (s.epoch + 10_000_000) }))
  else
    let (st, s) := retireKey x.arg false s
    (some st, s)

/-- SCHED_KEY_RETIRE (R526). -/
def execSchedKeyRetire (k : Nat) (e : BitVec 8) (s : State) : Out := .next (schedFire k e.toNat 4 (schedRetire k e.toNat) s)

/-- SCHED_KEY_RETIRE_RETRY (R526). -/
def execSchedKeyRetireRetry (k : Nat) (e : BitVec 8) (s : State) : Out :=
  .next (
    let x := s.schedEntry k e.toNat
    match x.retry with
    | none => s
    | some t =>
      if x.armed && x.kind == 4 then
        match schedRetire k e.toNat x (s.toEpoch t) with
        | (some st, s) => schedFired k e.toNat st s
        | (none, s) => s
      else s)

/-- SCHED_DOORBELL (R526). -/
def execSchedDoorbell (k : Nat) (e : BitVec 8) (s : State) : Out :=
  .next (schedFire k e.toNat 5 (fun x s => if bit ((s.shelf k).reg rNotifyCfg) 0 then (some .ok, notifyWord k x.arg 1 s) else (some .paramUnsupported, s)) s)

/-- A write of SCHED_TIME(e) or SCHED_CTL(e) by host software (R525, R528). [log 231 DEDUCED] -/
def schedTimeWrite (k e : Nat) (v : Word) (s : State) : State :=
  if e < 8 then s
  else s.onSched k e (fun x => { x with time := v, armed := decide (1 ≤ x.kind) && decide (x.kind ≤ 5), retry := none })

/-- A write of SCHED_CTL(e) by host software (R525, R528). [log 230 DEDUCED, 231 DEDUCED] -/
def schedCtlWrite (k e : Nat) (v : Word) (s : State) : State :=
  let clear (x : SchedEntry) : SchedEntry := { x with fired := x.fired && !bit v 24 }
  if e < 8 then s.onSched k e clear
  else s.onSched k e (fun x =>
    { clear x with
      kind := bits v 3 0, arg := bits v 15 8, period := bits v 63 32, retry := none
      armed := decide (1 ≤ bits v 3 0) && decide (bits v 3 0 ≤ 5) })

end Sys2Proof.Machine
end

