-- ==== Sys2Proof/Machine/RegsShelf.lean ====
section
/-!
DEFINITION. The registers of a shelf block (R51, R88, R89, R94, R100, R109, R166, R188, R215, R252, R269, R292, R322, R375, R398, R419,
R440, R462, R495, R528, R551), by offset in the block, and those that sequencer code reaches.
-/
namespace Sys2Proof.Machine

/-- Change HOSTS_CNT, MEMS_CNT and the other counts of shelf k through a function of the amount returned. -/
def countsRc (k lo w val : Nat) (latched : Bool) (f : Nat → Counts → Counts) : RcField :=
  { lo := lo, w := w, val := val, latched := latched, sub := fun n s => s.onCounts k (f n) }

/-- Bays of a shelf as physical bays. -/
def shelfPhys (s : State) (h : Shelf) : List Nat := h.bays.map (fun b => s.physOf b)

/-- The shelf is row-aligned (R461): its bays are the four of mesh row r, its pseudo-channels those of stacks r and r + 4. -/
def rowAligned (s : State) (h : Shelf) : Bool :=
  match h.desc with
  | none => false
  | some d => (List.range 4).any (fun r =>
      decide (h.bays.length = 4) && (shelfPhys s h).all (fun n => n / 4 == r && decide (n < 16)) && d.pcs.all (fun p => p / 64 == r || p / 64 == r + 4))

def ShelfState.code : ShelfState → Nat | .ready => 0 | .switching => 1 | .fenced => 2

/-- SHELF_STATUS (R462). -/
def shelfStatus (s : State) (k : Nat) : RegView :=
  let h := s.shelf k
  let flags := match h.desc with | none => 0 | some d => d.flags
  { base := packW [(1, b2n h.desc.isSome), (1, flags), (1, flags / 2), (1, b2n (rowAligned s h)), (2, h.state.code), (2, 0), (5, h.bays.length), (3, 0),
      (7, match h.desc with | none => 0 | some d => d.weight), (9, 0), (16, h.counts.quietMhz)]
    rc := [countsRc k 48 8 h.counts.quietDrops false (fun n c => { c with quietDrops := c.quietDrops - n })] }

/-- SHELF_CLOCK (R460): the mean clock of the shelf's bays as latched. -/
def shelfClock (s : State) (k : Nat) : Word :=
  let l := shelfPhys s (s.shelf k)
  if l.isEmpty then 0 else packW [(16, (l.map (fun n => s.latch.mhz.getD n 0)).sum / l.length), (48, s.latch.slot)]

/-- SHELF_TEMP (R460): the highest junction temperature of the shelf's bays as latched, rounded down to 5 degrees; 0 with TEMP_HIDE. -/
def shelfTemp (s : State) (k : Nat) : Word :=
  let h := s.shelf k
  let hide := match h.desc with | none => true | some d => nbit d.flags 4
  match (shelfPhys s h).map (fun n => s.latch.temps.getD n 0) with
  | [] => 0
  | t :: l => if hide then 0 else BitVec.ofNat 64 (wrap 8 (l.foldl max t / 5 * 5))

/-- Registers 0x0000-0x0048 and the round's (R462, R51). -/
def shelfRegs0 (s : State) (k off : Nat) : Option RegView :=
  let h := s.shelf k
  let r := h.round
  match off with
  | 0x0000 => some (shelfStatus s k)
  | 0x0008 => some (roReg (shelfClock s k))
  | 0x0010 => some (roReg (shelfTemp s k))
  | 0x0040 => some (rwReg (h.reg rCtxCfg) (BitVec.allOnes 64) (ctxCfgWrite k))
  | 0x0048 => some { base := packW [(8, 0), (4, h.ctx.target), (4, 0), (8, h.ctx.result), (1, b2n h.ctx.waiting), (1, b2n h.ctx.pending), (6, 0), (5, h.ctx.current)]
                     rw := 0xF00, write := ctxCmdWrite k }
  | 0x0200 => some (shelfRw s k rRoundDesc 0xFFFF_FFFF_FFC0)
  | 0x0208 => some (rwReg (h.reg rRoundCtl) 0x1_FF04 (roundCtlWrite k))
  | 0x0210 => some { base := packW [(4, r.phase.code), (1, b2n r.active), (1, b2n r.holdover), (1, b2n r.startRefused), (1, 0), (4, r.outcome.code), (4, 0),
                       (8, r.detail.code), (8, r.badField), (32, r.lo)]
                     write := fun v s => if bit v 6 then s.onRound k (fun r => { r with startRefused := false }) else s }
  | 0x0218 => some (roFields [(32, r.committed), (32, r.rejected)])
  | 0x0220 => some (roFields [(32, r.late), (32, r.duplicate)])
  | 0x0228 => some (roFields [(32, r.dropped), (32, r.divergent)])
  | _ => none

/-- The intake registers (R88, R89, R94, R100, R109). -/
def shelfRegs3 (s : State) (k off : Nat) : Option RegView :=
  let h := s.shelf k
  let n := h.intake
  let idle := !h.round.active
  match off with
  | 0x0300 => some { base := n.ringCmd ||| BitVec.ofNat 64 (n.ringResult * 2 ^ 8), rw := 0xFFFF_FFFF_FFC0_00FC, write := ringCmdWrite k }
  | 0x0310 => some (shelfRw s k rKeydirBase 0xFFFF_FFFF_FFC0 idle)
  | 0x0318 => some (shelfRw s k rKeydirRange (BitVec.allOnes 64) idle)
  | 0x0320 => some (rwReg (h.reg rClogCfg) (BitVec.allOnes 64) (clogCfgWrite k))
  | 0x0328 => some (roFields [(32, (n.logUsed + 65535) / 65536), (1, b2n n.clogFull)])
  | 0x0330 => some (roReg n.coveredSeq)
  | 0x0338 => some (rwReg (h.reg rRejlogCfg) 0x8000_FFFF_FFFF_FFC0 (rejlogCfgWrite k))
  | 0x0340 => some { base := packW [(12, n.rejNext)]
                     rc := [{ lo := 32, w := 32, val := n.rejLost, sub := fun v s => s.onIntake k (fun n => { n with rejLost := n.rejLost - v }) }] }
  | 0x0348 => some (shelfRw s k rCtabCfg (BitVec.allOnes 64) idle)
  | _ =>
    if 0x0400 ≤ off ∧ off < 0x0800 then
      let i := (off - 0x0400) / 0x10
      match ringOf s k i with
      | none => some (roReg 0)
      | some x =>
        if off % 0x10 = 0 then
          some { base := packW [(1, 1), (1, b2n x.full), (1, b2n x.high), (29, 0), (32, (x.used + 65535) / 65536)]
                 write := fun v s => if bit v 2 then onRing k i (fun x => { x with high := false }) s else s }
        else
          some { base := 0
                 rc := [{ lo := 0, w := 32, val := x.corrected, latched := true, sub := fun v => onRing k i (fun x => { x with corrected := x.corrected - v }) },
                        { lo := 32, w := 16, val := x.uncorrected, latched := true, sub := fun v => onRing k i (fun x => { x with uncorrected := x.uncorrected - v }) }] }
    else none

/-- The ledger and recovery registers (R166, R188). [log 47 DEDUCED] -/
def shelfRegs8 (s : State) (k off : Nat) : Option RegView :=
  let h := s.shelf k
  let l := h.ledger
  let r := h.recov
  let idle := !h.round.active
  match off with
  | 0x0800 => some (roFields [(15, (ledgerSlice h).1), (1, 0), (19, (ledgerSlice h).2)])
  | 0x0808 => some { base := packW [(15, l.entries.length), (1, b2n (ledgerStalled s k)), (19, l.segRsv)]
                     rc := [{ lo := 48, w := 15, val := l.highOpen, sub := fun v s => s.onLedger k (fun l => { l with highOpen := max l.entries.length (l.highOpen - v) }) }] }
  | 0x0810 => some (roFields [(32, l.retractSegs), (32, l.noopSegs)])
  | 0x0818 => some { base := packW [(32, 0), (16, l.forced)]
                     rc := [{ lo := 0, w := 32, val := l.stalls, latched := true, sub := fun v s => s.onLedger k (fun l => { l with stalls := l.stalls - v }) }] }
  | 0x0820 => some { base := packW [(1, b2n l.fault), (1, b2n l.rollback), (6, 0), (8, l.status), (48, l.faultSeq)]
                     write := fun v s => s.onLedger k (fun l => { l with fault := l.fault && !bit v 0, rollback := l.rollback && !bit v 1 }) }
  | 0x0900 => some (shelfRw s k rMaskkeyBase 0xFFFF_FFFF_FFC0 idle)
  | 0x0908 => some (shelfRw s k rRecovCfg (BitVec.allOnes 64) idle)
  | 0x0910 => some (roFields [(1, b2n r.checked), (1, b2n r.short), (1, b2n r.checkFail), (1, b2n r.complete), (28, 0), (32, r.firstBad)])
  | 0x0918 => some (roFields [(32, r.accepted), (32, r.wrongKind)])
  | 0x0920 => some (roFields [(32, r.invalid), (32, r.unused)])
  | 0x0928 => some (roFields [(32, r.secretsN), (32, r.pairsN)])
  | 0x0930 => some (roReg (BitVec.ofNat 64 (field r.digest 0 8)))
  | 0x0938 => some (roReg (BitVec.ofNat 64 (field r.digest 8 8)))
  | 0x0940 => some (roReg (BitVec.ofNat 64 (field r.digest 16 8)))
  | 0x0948 => some (roReg (BitVec.ofNat 64 (field r.digest 24 8)))
  | _ => none

/-- VERIF_CFG: FLUSH_US is 0 or in its range. -/
def flushOk (v : Word) : Bool := bits v 29 16 == 0 || (decide (10 ≤ bits v 29 16) && decide (bits v 29 16 ≤ 10_000))

/-- The shared-mode registers (R215). -/
def shelfRegsA (s : State) (k off : Nat) : Option RegView :=
  let h := s.shelf k
  let v := h.verif
  let ok := !h.round.active && !v.shref.busy
  match off with
  | 0x0B00 => some (rwReg (h.reg rVerifCfg 0x3F) 0x3FFF_03FF (fun v s => if ok && flushOk v then s.setReg k rVerifCfg (v &&& 0x3FFF_03FF) else s))
  | 0x0B08 => some (shelfRw s k rVerifTable (BitVec.allOnes 64) ok)
  | 0x0B10 => some (shelfRw s k 0x0B10 0xFFFF_0001 ok)
  | 0x0B18 => some (shelfRw s k 0x0B18 0xFFFF_0001 ok)
  | 0x0B20 => some (shelfRw s k 0x0B20 0xFFFF_0001 ok)
  | 0x0B28 => some (shelfRw s k 0x0B28 0xFFFF_0001 ok)
  | 0x0B30 => some (shelfRw s k rRelayCfg (BitVec.allOnes 64) ok)
  | 0x0B38 => some { base := (h.reg rRelayPtr &&& 0xFFFF_FFFF_0000_0000) ||| BitVec.ofNat 64 (v.head % 2 ^ 32)
                     rw := 0xFFFF_FFFF_0000_0000, write := relayTailWrite k }
  | 0x0B40 => some (roFields [(32, v.accepted), (32, v.rejectJoint)])
  | 0x0B48 => some (roFields [(32, v.rejectLocal), (32, v.rejectPeer)])
  | 0x0B50 => some (roFields (quad v.bad v.lost v.orphans v.lateReject))
  | 0x0B58 => some (roFields [(32, v.sent), (32, v.peerBad)])
  | 0x0B60 => some { base := packW [(8, 0), (8, v.shref.result.code), (1, b2n v.shref.busy)] ||| (h.reg rShrefCtl &&& 0xFF00_0000)
                     rw := 0xFF00_0000, write := shrefCtlWrite k }
  | 0x0B68 => some (shelfRw s k rShrefObj 0xFFFF_FFFF_FFC0 ok)
  | 0x0B70 => some (shelfRw s k rShrefId 0xFFFF_FFFF_FFFF ok)
  | 0x0B78 => some (shelfRw s k rShrefDeadline (BitVec.allOnes 64) ok)
  | _ =>
    if 0x0A00 ≤ off ∧ off < 0x0B00 then
      if off % 0x10 = 0 then some (shelfRw s k off 0x00FF_FFFF_FFFF_FF3F ok) else some (shelfRw s k off 0xFF_FFFF_FFFF ok)
    else none

/-- An RC counter of the lattice state. -/
def latRc (k lo val : Nat) (f : Nat → Lattice → Lattice) : RcField := { lo := lo, w := 16, val := val, sub := fun n s => s.onLat k (f n) }

/-- The refresh scratch holds its slots (R269). -/
def slotsFit (scr cfg : Word) : Bool := decide (bits cfg 3 0 ≤ 8) && decide (bits cfg 3 0 * bits cfg 63 32 ≤ bits scr 63 32)

def RState.num : RState → Nat | .free => 0 | .gather => 1 | .running => 2 | .paused => 3 | .suspended => 4 | .done => 5

/-- REFRESH_STATE (R269). -/
def refreshWord (x : RSlot) : Word :=
  packW [(3, x.state.num), (1, 0), (3, x.last), (1, 0), (5, x.partsN), (3, 0), (8, x.status.code), (4, x.kset)]

/-- The sealed-mode, refresh and release registers (R252, R269, R292). -/
def shelfRegsC (s : State) (k off : Nat) : Option RegView :=
  let h := s.shelf k
  let l := h.lat
  let x := h.sealSt
  let r := h.rel
  let idle := !h.round.active
  let still := idle && l.slots.all (fun e => e.2.state == .free)
  match off with
  | 0x0C00 => some { base := l.psetCmd ||| BitVec.ofNat 64 (l.psetResult * 2 ^ 8), rw := 0xFFFF_FFFF_FFC0_003C, write := psetCmdWrite k }
  | 0x0C08 => some { base := l.ksetCmd ||| BitVec.ofNat 64 (l.ksetResult * 2 ^ 8), rw := 0xFFFF_FFFF_FFC0_003C, write := ksetCmdWrite k }
  | 0x0C10 => some (shelfRw s k rSealSum 0xFFFF_FFFF_FFC0 idle)
  | 0x0C18 => some (shelfRw s k rSealPart (BitVec.allOnes 64) idle)
  | 0x0C20 => some (roFields [(1, b2n x.sumHdr), (1, b2n x.sumReady), (1, b2n x.pdecDone), (1, b2n (!x.set_.isEmpty)), (1, b2n x.combined),
      (1, b2n x.keysetDiscard), (2, 0), (8, x.passed.length + b2n x.pdecDone), (16, (x.set_.map (fun j => 2 ^ j)).sum), (16, x.sumBudget)])
  | 0x0C28 => some { base := 0, rc := [
      latRc k 0 l.mismatch (fun n l => { l with mismatch := l.mismatch - n }),
      latRc k 16 l.exhausted (fun n l => { l with exhausted := l.exhausted - n }),
      latRc k 32 l.autoN (fun n l => { l with autoN := l.autoN - n }),
      latRc k 48 l.marked (fun n l => { l with marked := l.marked - n })] }
  | 0x0C30 => some (roFields [(16, x.surplus), (16, x.badPartial), (16, x.resent)])
  | 0x0E80 => some (rwReg (h.reg rRefreshScr) (BitVec.allOnes 64) (fun v s => if still && slotsFit v (h.reg rRefreshCfg) then s.setReg k rRefreshScr v else s))
  | 0x0E88 => some (rwReg (h.reg rRefreshCfg) 0xFFFF_FFFF_0000_001F (fun v s =>
      if still && slotsFit (h.reg rRefreshScr) v then s.setReg k rRefreshCfg (v &&& 0xFFFF_FFFF_0000_001F) else s))
  | 0x0E90 => some { base := (l.refCtl &&& 0x1C) ||| BitVec.ofNat 64 (l.refResult * 2 ^ 8), rw := 0x1C, write := refreshCtlWrite k }
  | 0x0F00 => some (roFields [(1, b2n r.noised), (1, b2n r.stepped), (1, b2n r.gathered), (1, b2n r.signed), (1, b2n r.waitAck), (1, b2n r.reseedFail),
      (1, b2n r.witness), (9, 0), (16, r.nonfinite), (32, r.pages)])
  | 0x0F08 => some (rwReg (h.reg rRelAck) (BitVec.allOnes 64) (relAckWrite k))
  | 0x0F10 => some (shelfRw s k rRelScr (BitVec.allOnes 64) idle)
  | _ =>
    if 0x0C80 ≤ off ∧ off < 0x0D80 then
      let i := (off - 0x0C80) / 0x10
      match h.pset i with
      | none => some (roReg 0)
      | some p =>
        if off % 0x10 = 0 then some (roReg (BitVec.ofNat 64 p.fp))
        else some (roFields [(1, 1), (2, p.scheme), (5, 0), (8, p.log2n), (8, p.limbs), (8, p.special), (16, psetUsers h i)])
    else if 0x0D80 ≤ off ∧ off < 0x0E80 then
      let i := (off - 0x0D80) / 0x10
      match h.kset i with
      | none => some (roReg 0)
      | some y =>
        if off % 0x10 = 0 then some (roReg (BitVec.ofNat 64 y.id))
        else some (roFields [(1, 1), (1, b2n y.refreshKeys), (2, 0), (4, y.pset), (4, y.holder), (4, 0), (16, ksetInUse h i), (32, y.units)])
    else if 0x0EC0 ≤ off ∧ off < 0x0F00 then some (roReg (refreshWord (s.rslot k ((off - 0x0EC0) / 8))))
    else none

def Run.code : Run → Nat | .idle => 0 | .running => 1 | .waiting => 2 | .stopped => 3

/-- The code of SEQ_STATE.WAIT (R322). -/
def Wait.code : Wait → Nat
  | .none => 0 | .load _ _ _ _ => 1 | .loadDesc _ _ => 1 | .queueFull _ _ => 2 | .counter _ _ _ _ => 3 | .epoch _ => 4 | .take _ _ _ => 5
  | .waypoint _ _ => 6 | .sync => 7

/-- The program and transport registers (R322, R375). -/
def shelfRegs10 (s : State) (k off : Nat) : Option RegView :=
  let h := s.shelf k
  let p := h.prog
  let r := h.remote
  match off with
  | 0x1000 => some { base := packW [(8, 0), (8, p.result), (1, 0), (1, b2n (serviceActive s k))] ||| h.reg rProgCmd
                     rw := 0xFFFF_FFFF_FFC0_0000, write := progCmd k }
  | 0x1008 => some (roFields [(1, b2n p.loaded), (15, 0), (16, p.text.length), (32, p.data.length)])
  | 0x1010 => some (roReg (BitVec.ofNat 64 (field p.digest 0 8)))
  | 0x1018 => some (roReg (BitVec.ofNat 64 (field p.digest 8 8)))
  | 0x1020 => some (roReg (BitVec.ofNat 64 (field p.digest 16 8)))
  | 0x1028 => some (roReg (BitVec.ofNat 64 (field p.digest 24 8)))
  | 0x1800 => some (roFields [(15, flightUsed s k 0 + flightUsed s k 1), (1, 0), (15, flightSlice h 0 + flightSlice h 1)])
  | 0x1808 => some { base := 0, rc := [
      { lo := 0, w := 32, val := r.tpsRetx, latched := true, sub := fun n s => s.onRemote k (fun r => { r with tpsRetx := r.tpsRetx - n }) },
      { lo := 32, w := 16, val := r.tpsExhausted, latched := true, sub := fun n s => s.onRemote k (fun r => { r with tpsExhausted := r.tpsExhausted - n }) },
      { lo := 48, w := 16, val := r.tpsSilent, latched := true, sub := fun n s => s.onRemote k (fun r => { r with tpsSilent := r.tpsSilent - n }) }] }
  | _ =>
    if 0x1100 ≤ off ∧ off < 0x1500 then
      match h.seqs[(off - 0x1100) / 0x10]? with
      | none => some (roReg 0)
      | some q =>
        let x := s.seq q
        if off % 0x10 = 0 then
          some { base := packW [(2, x.run.code), (1, b2n x.hmode), (1, b2n x.pended), (4, x.wait.code), (8, bits x.ecause 7 0), (1, b2n x.noteLost), (15, 0), (17, x.pc)]
                 write := fun v s => if bit v 16 then s.onSeq q (fun x => { x with noteLost := false }) else s }
        else
          some { base := 0, rc := [{ lo := 0, w := 64, val := x.note.toNat, sub := fun _ s => s.onSeq q (fun x => { x with note := 0, noteUnread := false }) }] }
    else none

/-- An RC counter of the remote-access state. -/
def remRc (k lo val : Nat) (f : Nat → Remote → Remote) : RcField := { lo := lo, w := 16, val := val, sub := fun n s => s.onRemote k (f n) }

/-- KEYS_USE (R495). -/
def keysUse (s : State) (k : Nat) : Word :=
  let left := match (s.isl.sessions.find? (fun e => e.1 == k + 1)) with | none => 0 | some e => e.2.expiry - s.epoch
  packW [(7, slotsHeld s k), (1, b2n (decide (0 < left))), (1, b2n (s.shelf k).model.isSome), (23, 0), (32, left / 1_000_000_000)]

/-- The remote-access, host, memory and key registers (R398, R419, R440, R495). -/
def shelfRegs19 (s : State) (k off : Nat) : Option RegView :=
  let h := s.shelf k
  let r := h.remote
  let c := h.counts
  let idle := !h.round.active
  match off with
  | 0x1900 => some (roFields [(17, winSlice h), (1, match h.desc with | none => 0 | some d => d.half), (14, 0), (17, binSlice h)])
  | 0x1908 => some { base := packW [(8, 0), (8, r.winResult)] ||| h.reg rWinCmd, rw := 0xFFFF_FFFF_FFC0_0000, write := winCmdWrite k }
  | 0x1910 => some { base := packW [(16, bits (h.reg rWinInfo) 15 0), (2, r.winState), (14, min r.winInflight 0x3FFF), (32, r.winGen)], rw := 0xFFFF
                     write := fun v s => s.setReg k rWinInfo (v &&& 0xFFFF) }
  | 0x1918 => some { base := packW [(8, 0), (8, r.binResult), (2, 0), (2, r.binState)] ||| h.reg rBinCmd, rw := 0xFFFF_0000_0000, write := binCmdWrite k }
  | 0x1920 => some (rwReg h.evtCfg 0xFFFF_FFFF_F03F (evtCfgWrite k))
  | 0x1928 => some { base := packW [(16, r.evtHead), (1, b2n (evtWaits s k)), (15, 0), (16, r.evtTail)], rw := 0xFFFF_0000_0000
                     write := evtTailWrite k }
  | 0x1930 => some (shelfRw s k rNotifyCfg 0xFFFF_FFFF_F801)
  | 0x1938 => some (shelfRw s k rUnexCfg (BitVec.allOnes 64))
  | 0x1940 => some { base := packW [(13, (r.unex.filter (fun u => !u.gone)).length), (3, 0), (32, (unexUsed h + 65535) / 65536)] ||| (h.reg rUnexStatus &&& 0xFFF0_0000_0000_0000)
                     rw := 0xFFF0_0000_0000_0000, write := fun v s => s.setReg k rUnexStatus (v &&& 0xFFF0_0000_0000_0000) }
  | 0x1948 => some (shelfRw s k rBuddyCfg 0x1_FFFF_FFFF_FFFF idle)
  | 0x1950 => some (shelfRw s k rBuddyKey (BitVec.allOnes 64) idle)
  | 0x1958 => some { base := packW [(1, b2n (!h.wpt.buddy.isEmpty)), (1, b2n r.buddyFail), (6, 0), (8, r.buddyStatus), (16, 0), (32, h.wpt.ackTime)]
                     write := fun v s => if bit v 1 then s.onRemote k (fun r => { r with buddyFail := false }) else s }
  | 0x1960 => some { base := 0, rc := [
      remRc k 0 r.refused (fun n r => { r with refused := r.refused - n }), remRc k 16 r.noBin (fun n r => { r with noBin := r.noBin - n }),
      remRc k 32 r.sealFail (fun n r => { r with sealFail := r.sealFail - n }), remRc k 48 r.unexAged (fun n r => { r with unexAged := r.unexAged - n })] }
  | 0x1A00 => some { base := 0, rc := [
      countsRc k 0 16 c.bar2Disc false (fun n c => { c with bar2Disc := c.bar2Disc - n }), countsRc k 16 16 c.bar2Zero false (fun n c => { c with bar2Zero := c.bar2Zero - n }),
      countsRc k 32 16 c.nonTee false (fun n c => { c with nonTee := c.nonTee - n }), countsRc k 48 16 c.dbDisc false (fun n c => { c with dbDisc := c.dbDisc - n })] }
  | 0x1A40 => some { base := 0, rc := [
      countsRc k 0 32 c.corr true (fun n c => { c with corr := c.corr - n }), countsRc k 32 16 c.uncorr true (fun n c => { c with uncorr := c.uncorr - n }),
      countsRc k 48 16 c.poison true (fun n c => { c with poison := c.poison - n })] }
  | 0x1A48 => some (shelfRw s k 0x1A48 0x3FF)
  | 0x1A80 => some (roReg (keysUse s k))
  | _ => none

def RcvState.code : RcvState → Nat | .none => 0 | .fenced => 1 | .wait => 2 | .restoring => 3 | .replaying => 4

/-- The waypoint and recovery registers and the schedule (R551, R528). RCV_CMD's takeover is a command of its own. -/
def shelfRegs1B (s : State) (k off : Nat) : Option RegView :=
  let h := s.shelf k
  let w := h.wpt
  let v := h.rcv
  let idle := !h.round.active
  match off with
  | 0x1B00 => some (rwReg (h.reg rWptCfg) (BitVec.allOnes 64) (fun v s => if idle && bits v 63 32 % 2 == 0 then s.setReg k rWptCfg v else s))
  | 0x1B08 => some { base := packW [(1, b2n w.done.isSome), (1, w.slot), (1, b2n w.header.isSome), (29, 0), (32, w.count)]
                     rc := [{ lo := 8, w := 8, val := w.overflow, sub := fun n s => s.onWpt k (fun w => { w with overflow := w.overflow - n }) },
                            { lo := 16, w := 16, val := w.passed, sub := fun n s => s.onWpt k (fun w => { w with passed := w.passed - n }) }] }
  | 0x1B10 => some (roReg (BitVec.ofNat 64 w.doneTime))
  | 0x1B18 => some (shelfRw s k rWptAck 0x7F_FFFF_FFFF idle)
  | 0x1B20 => some { base := (v.cmd &&& 0xFFFF_0FFF_0000_0000) ||| BitVec.ofNat 64 (v.result * 2 ^ 8), rw := 0xFFFF_0FFF_0000_0000
                     write := fun v s => s.onRcv k (fun r => { r with cmd := v &&& 0xFFFF_0FFF_0000_0000 }) }
  | 0x1B28 => some (shelfRw s k 0x1B28 (BitVec.allOnes 64))
  | 0x1B30 => some (roFields [(3, v.state.code), (5, 0), (8, v.cause), (5, v.bay), (11, 0), (16, v.restores), (16, v.replayed)])
  | _ =>
    if 0x3000 ≤ off ∧ off < 0x4000 then
      let e := (off - 0x3000) / 0x10
      let x := s.schedEntry k e
      if off % 0x10 = 0 then some (rwReg x.time (if e < 8 then 0 else BitVec.allOnes 64) (schedTimeWrite k e) |> fun r => { r with base := x.time })
      else some { base := packW [(4, x.kind), (4, 0), (8, x.arg), (8, x.result), (1, b2n x.fired), (1, b2n x.armed), (6, 0), (32, x.period)]
                  rw := 0xFFFF_FFFF_0000_FF0F, write := schedCtlWrite k e }
    else none

/-- The register of shelf k's block at an aligned offset, if there is one. [log 269 DEDUCED] -/
def shelfReg (s : State) (k off : Nat) : Option RegView :=
  if off < 0x0300 then shelfRegs0 s k off
  else if off < 0x0800 then shelfRegs3 s k off
  else if off < 0x0A00 then shelfRegs8 s k off
  else if off < 0x0C00 then shelfRegsA s k off
  else if off < 0x1000 then shelfRegsC s k off
  else if off < 0x1900 then shelfRegs10 s k off
  else if off < 0x1B00 then shelfRegs19 s k off
  else shelfRegs1B s k off

/-- What sequencer code may do with a register of its shelf's block. -/
inductive SeqReach where
  | none | read | full
  deriving DecidableEq, Repr

/-- R51, R88, R166, R188, R215, R252, R269, R292, R322, R375, R398, R440, R462, R495, R528, R551. [log 265 DEDUCED] -/
def seqReach (off : Nat) : SeqReach :=
  let between (a b : Nat) : Bool := decide (a ≤ off) && decide (off ≤ b)
  if between 0x0000 0x0017 || between 0x1100 0x14FF || between 0x1A40 0x1A47 || between 0x1A80 0x1A87 || between 0x1B08 0x1B17 || between 0x1B30 0x1B37 ||
    between 0x3000 0x3FFF then .read
  else if between 0x0200 0x022F || between 0x0400 0x07FF || between 0x0800 0x0827 || between 0x0910 0x092F || between 0x0B40 0x0B5F || between 0x0C20 0x0C37 ||
    between 0x0EC0 0x0EFF || between 0x0F00 0x0F07 || between 0x1800 0x180F || between 0x1908 0x191F || between 0x1928 0x192F || between 0x1960 0x1967 || between 0x1A00 0x1A07 then .full
  else .none

end Sys2Proof.Machine
end

