-- ==== Sys2Proof/Machine/Cellar.lean ====
section
/-!
DEFINITION. The Cellar controllers' own work (R428, R432, R435): the patrol scrub, a request for full rate, and the loss of a channel.
-/
namespace Sys2Proof.Machine

def celBase (k : Nat) : Nat := 0x80_0000 + k * 0x1_0000

def celScrubReset : Word := 0x0801

/-- CEL_SCRUB.EN of stack k. -/
def scrubOn (s : State) (k : Nat) : Bool := bit (s.dreg (celBase k + 0x18) celScrubReset) 0

/-- The last line of stack k that the patrol reads. [log 182 DEDUCED] -/
def lastPatrolled (s : State) (k l : Nat) : Bool :=
  let p := ((List.range 64).filter (fun p => !nbit (s.stack k).retired p)).foldl max 0
  l * 64 % stackSize == stackSize - 0x4000 + p * 256 + 192

/-- PATROL_SCRUB_LINE (R432): the patrol reads a Cellar line, given by its device address divided by 64. [log 181 DESIGN CHOICE, 182 DEDUCED] -/
def execPatrolScrubLine (line : Nat) (s : State) : Out :=
  .next (
    let d := line * 64
    let k := d / stackSize
    if k < 8 ∧ scrubOn s k ∧ !nbit (s.stack k).retired (pcOf d % 64) ∧ !fencedAt s d then
      let s := match markOf s d with
        | none => s
        | some .corrected => noteCorrected d s
        | some .uncorrectable => alertEvent 2 k (mark line .poisoned (noteBad d s))
        | some .poisoned => notePoison d s
      if lastPatrolled s k line then s.onStack k (fun x => { x with passes := (x.passes + 1) % 2 ^ 32 }) else s
    else s)

/-- A write of CEL_CTL of stack k (R428). -/
def celCtlWrite (k : Nat) (v : Word) (s : State) : State :=
  if bit v 0 then { s with dev := { s.dev with retryFull := insSet k s.dev.retryFull } } else s

/-- CEL_RETRY_FULL (R428). -/
def execCelRetryFull (k : BitVec 3) (s : State) : Out := .next (celCtlWrite k.toNat 1 s)

/-- CELLAR_CHANNEL_LOST (R435): channel c of stack k loses training beyond recovery. -/
def execCellarChannelLost (k : BitVec 3) (c : BitVec 5) (s : State) : Out :=
  .next (
    let pair := 3 * 4 ^ c.toNat
    if (s.stack k.toNat).retired &&& pair = pair then s else settleFences (fencePcs k.toNat pair s))

end Sys2Proof.Machine
end

