-- ==== Sys2Proof/Machine/Health.lean ====
section
/-!
DEFINITION. The health hub (R552-R557): samples, the health history, predictions and their alerts.
-/
namespace Sys2Proof.Machine

/-- Change the health hub. -/
def State.onHealth (s : State) (f : Health → Health) : State := { s with health := f s.health }

def State.hlthCfg (s : State) : Word := s.dreg 0xE0_0018 0x0004_0400_1A1C
def windowD (s : State) : Nat := bits s.hlthCfg 7 0

/-- The key of a unit of a mechanism. -/
def unitKey (m u : Nat) : Nat := m * 256 + u

/-! ### Samples (R552) -/

/-- Spare rows left in a pseudo-channel of stack k (R434, R438). -/
def pcSpares (s : State) (k p : Nat) : Nat := 64 - ((tget ({} : Pc) (s.stack k).pcs p).used.map (·.2)).sum

/-- MIN_SPARES of stack k: 0 where every pseudo-channel is retired. -/
def minSpares (s : State) (k : Nat) : Nat :=
  match ((List.range 64).filter (fun p => !nbit (s.stack k).retired p)).map (pcSpares s k) with
  | [] => 0
  | x :: r => r.foldl min x

/-- SVN_LEFT. -/
def State.svnLeft (s : State) : Nat := 64 - s.fuseSvn

/-- Take a sample of a unit. [log 256 DESIGN CHOICE] -/
def takeSample (m u : Nat) (v : Rat) (s : State) : State :=
  s.onHealth (fun h => { h with last := tput h.last (unitKey m u) v, today := tupd [] h.today (unitKey m u) (fun l => v :: l) })

/-- The spare rows of every stack are sampled, with the alert of CEL_SPARES. -/
def sampleSpares (s : State) : State :=
  (List.range 8).foldl (fun s k =>
    if (s.stack k).rate = 3 then s
    else
      let s := takeSample 5 k (minSpares s k : Rat) s
      if decide (minSpares s k ≤ 4) || (s.stack k).listFull then alertEvent 3 k s else s) s

/-- The channel that a lane serves is up: lanes 64 to 67 are the spares of the lane groups. -/
def laneUp (s : State) (l : Nat) : Bool :=
  if l < 64 then nbit (s.port (l / 4)).laneOk (l % 4) && (laneChannels s (l / 4) (l % 4) &&& (s.port (l / 4)).up) != 0
  else (List.range 4).any (fun i =>
    let n := 4 * (l - 64) + i
    (s.port n).spareHere && (laneChannels s n (s.port n).spareLane &&& (s.port n).up) != 0)

/-- Baseline of a lane, as OTP holds it (R552, R558). -/
def laneBase (s : State) (l : Nat) : Nat := tget (Config.laneBase l) s.isl.baseOtp l % 256

/-- WEAR_SAMPLE (R552): monitor m of a unit reads a value; for the bond, `group` is the worst group. Spare rows and SVN fuses are read from
the device itself. [log 256 DESIGN CHOICE] -/
def execWearSample (m : BitVec 3) (unit : BitVec 7) (v : Rat) (group : BitVec 16) (s : State) : Out :=
  .next (
    let u := unit.toNat
    match m.toNat with
    | 1 => if u < 17 then takeSample 1 u v s else s
    | 2 => if u < 17 then takeSample 2 u v s else s
    | 3 => if u < 17 then (takeSample 3 u v s).onHealth (fun h => { h with group := tput h.group u group.toNat }) else s
    | 4 =>
      if u < 68 ∧ laneUp s u then
        let s := takeSample 4 u v s
        if 2 * v < (laneBase s u : Rat) then alertEvent 5 u s else s
      else s
    | 5 => sampleSpares s
    | 6 => takeSample 6 0 (s.svnLeft : Rat) s
    | _ => s)

/-! ### The day (R553) -/

/-- The mean of a day's samples. -/
def meanOf (l : List Rat) : Rat := l.sum / (l.length : Rat)

/-- The day's samples become daily values; the history holds 512 days. [log 262 DEDUCED] -/
def closeDay (day : Nat) (s : State) : State :=
  s.onHealth (fun h =>
    let hist := h.today.foldl (fun t e => if e.2.isEmpty then t else tupd [] t e.1 (fun l => l ++ [(day, meanOf e.2)])) h.hist
    let hist := (hist.map (fun e => (e.1, e.2.filter (fun x => decide (day < x.1 + 512))))).filter (fun e => !e.2.isEmpty)
    { h with hist := hist, today := [], day := day, mirrored := some hist })

/-! ### Prediction (R554) -/

/-- The largest 16-bit number that meets a test that holds up to some number, if it holds at 0. -/
def largest (p : Nat → Bool) : Nat := [15, 14, 13, 12, 11, 10, 9, 8, 7, 6, 5, 4, 3, 2, 1, 0].foldl (fun w i => if p (w + 2 ^ i) then w + 2 ^ i else w) 0

/-- Clamp a number of weeks. -/
def clampWeeks (w : Nat) : Nat := min w 65534

/-- The prediction of a unit from its margin, slope towards the limit and the square of the slope's standard error: w weeks are left
as long as 7 w (b ± 1.645 s) does not exceed the margin. [log 260 DESIGN CHOICE, 261 DEDUCED] -/
def predictOf (m b q : Rat) : Nat × Nat × Nat :=
  let c : Rat := 1645 / 1000
  if m ≤ 0 then (0, 0, 0)
  else
    let weeks := if b ≤ 0 then 0xFFFF else clampWeeks (largest (fun w => decide (7 * w * b ≤ m)))
    let lowOk (w : Nat) : Bool := let r := m - 7 * w * b; let e := c * 7 * w; decide (0 ≤ r) && decide (e * e * q ≤ r * r)
    let lowPos := decide (0 < b) || decide (b * b < c * c * q)
    let lowOkNeg (w : Nat) : Bool := let r := m - 7 * w * b; let e := c * 7 * w; decide (e * e * q ≤ r * r)
    let low := if lowPos then clampWeeks (largest (fun w => if 0 < b then lowOk w else lowOkNeg w)) else 0xFFFF
    let highOk (w : Nat) : Bool := let r := 7 * w * b - m; let e := c * 7 * w; decide (r ≤ 0) || decide (r * r ≤ e * e * q)
    let high := if decide (0 < b) && decide (c * c * q < b * b) then clampWeeks (largest highOk) else 0xFFFF
    (weeks, low, high)

/-- The least-squares line of daily values: the slope, the square of its standard error, and the value at the present day. [log 260 DESIGN CHOICE, 261 DEDUCED] -/
def lsq (day : Nat) (l : List (Nat × Rat)) : Rat × Rat × Rat :=
  let n : Rat := (l.length : Rat)
  let mx := (l.map (fun e => (e.1 : Rat))).sum / n
  let my := (l.map (fun e => e.2)).sum / n
  let sxx := (l.map (fun e => ((e.1 : Rat) - mx) * ((e.1 : Rat) - mx))).sum
  let sxy := (l.map (fun e => ((e.1 : Rat) - mx) * (e.2 - my))).sum
  let b := sxy / sxx
  let sse := (l.map (fun e => let r := e.2 - my - b * ((e.1 : Rat) - mx); r * r)).sum
  (b, sse / (n - 2) / sxx, my + b * ((day : Rat) - mx))

/-- The prediction of a unit of mechanism m. -/
def predictUnit (day window m u : Nat) (l : List (Nat × Rat)) : Predict :=
  let l := l.filter (fun e => decide (day < e.1 + window))
  if l.length < 7 then { unit := u, days := l.length }
  else
    let (b, q, v) := lsq day l
    let (w, low, high) := match m with
      | 1 => predictOf (5 - v) b q
      | 2 => predictOf (5 - v) b q
      | 3 => predictOf (25 - v) b q
      | 4 => predictOf (v - 6) (-b) q
      | _ => predictOf v (-b) q
    { weeks := w, low := low, high := high, unit := u, days := l.length }

/-- The prediction with the fewest weeks, the first one of equals. [log 259 DEDUCED] -/
def fewest : List (Nat × Predict) → Option (Nat × Predict)
  | [] => none
  | x :: r => match fewest r with | none => some x | some y => if y.2.weeks < x.2.weeks then some y else some x

/-- Every prediction is made anew, and EOL and OTP are evaluated (R554, R557). [log 259 DEDUCED] -/
def predictAll (s : State) : State :=
  let h := s.health
  let all := h.hist.map (fun e => (e.1 / 256, predictUnit h.day (windowD s) (e.1 / 256) (e.1 % 256) e.2))
  let mechs := [1, 2, 3, 4, 5, 6].filterMap (fun m => fewest (all.filter (fun e => e.1 == m)))
  let eol := (fewest mechs).bind (fun e => if e.2.weeks = 0xFFFF then none else some e)
  let s := s.onHealth (fun h => { h with
    mechs := mechs, eolMech := (eol.map (·.1)).getD 0, eol := (eol.map (·.2)).getD {} })
  let s := match eol with
    | none => s
    | some e => if e.2.weeks < bits s.hlthCfg 15 8 then alertEvent 0 e.2.unit s else s
  if s.svnLeft ≤ bits s.hlthCfg 38 32 then alertEvent 4 0 s else s

/-- HEALTH_DAY_CLOSE (R553, R554): the next multiple of 86,400 s of epoch time is reached. -/
def execHealthDayClose (s : State) : Out :=
  .next (
    let d := 86_400_000_000_000
    let day := s.epoch / d
    let s := s.toEpoch ((day + 1) * d)
    predictAll (closeDay day (takeSample 6 0 (s.svnLeft : Rat) (sampleSpares s))))

/-- HEALTH_HOURLY_EVAL (R557): the corrected lines of each pseudo-channel over the last hour. [log 257 DEDUCED] -/
def execHealthHourlyEval (s : State) : Out :=
  .next ((List.range 8).foldl (fun s k =>
    let recent := (s.stack k).errs.filter (fun e => !e.bad && decide (s.clk < e.at_ + 3_600_000_000_000))
    if (List.range 64).any (fun p => decide (bits s.hlthCfg 31 16 < (recent.filter (fun e => pcOf (e.line * 64) == k * 64 + p)).length)) then alertEvent 1 k s
    else s) s)

/-! ### Starts (R552-R555) -/

/-- Units retired at a start leave the history; the history comes from its mirror unless that fails its CRC. [log 262 DEDUCED, 275 DESIGN CHOICE] -/
def healthStart (fromMirror mirrorOk : Bool) (s : State) : State :=
  let gone (k : Nat) : Bool :=
    let u := k % 256
    (decide (1 ≤ k / 256) && decide (k / 256 ≤ 3) && (s.dev.repairs.bays.contains u || Config.fuseFaulty u || s.dev.repairs.slices.contains u)) ||
    (k / 256 == 5 && (s.stack u).rate == 3)
  s.onHealth (fun h =>
    let hist := if fromMirror then (if mirrorOk then h.mirrored.getD [] else []) else h.hist
    { h with hist := hist.filter (fun e => !gone e.1), today := h.today.filter (fun e => !gone e.1) })

/-- At the first S15 in PROVISIONED the baselines are written to OTP. [log 256 DESIGN CHOICE] -/
def writeBaselines (s : State) : State :=
  if s.lcs = 2 ∧ s.isl.baseOtp.isEmpty then
    (List.range 68).foldl (fun s l =>
      let (v, s) := draw 8 s
      s.onIsl (fun i => { i with baseOtp := tput i.baseOtp l v })) s
  else s

end Sys2Proof.Machine
end

