-- ==== Sys2Proof/Machine/Model.lean ====
section
/-!
DEFINITION. Model pages (R483-R485): MODEL_LOAD, the arrival of pages, and MODEL_FREE.
-/
namespace Sys2Proof.Machine

/-- Plaintext bytes of a model page. -/
def modelPage : Nat := 65488

/-- The use of a model page's key. -/
def modelUse (k : Nat) : KeyUse := { usages := [uDecrypt], kinds := [1], master := .island, shelf := some k }

/-! ### Page counters (R481) -/

/-- Change the counter of the half of slot n that has generation g. -/
def onPages (n g : Nat) (f : Nat → Nat) (s : State) : State :=
  s.onSlot n (fun x =>
    if (match x.cur with | none => false | some h => h.gen == g) then { x with curPages := f x.curPages }
    else if (match x.prev with | none => false | some h => h.gen == g) then { x with prevPages := f x.prevPages }
    else x)

/-- Pages of a load whose header has not been read. -/
def ModelLoad.unread (l : ModelLoad) : List Nat := (List.range l.gens.length).filter (fun i => !l.read.contains i)

/-! ### MODEL_LOAD -/

/-- The request: SHELF, SLOT, PAGES, LIST, DST, LEN. [log 210 DESIGN CHOICE, 211 DEDUCED] -/
def modelLoad (f : Nat) (p : Bytes) (s : State) : Option Served × State :=
  let no (st : Status) (pay : Bytes) (s : State) : Option Served × State := (some (st, pay, s), s)
  let k := field p 0 1
  let slot := field p 1 1
  let pages := field p 4 4
  let list := field p 8 8
  let dst := field p 0x10 8
  let len := field p 0x18 8
  let h := s.shelf k
  if !(f == 0 || k + 1 == f) then no .deniedAttribute [] s
  else if !decide (k < 8) || h.desc.isNone || h.model.isSome || h.load.isSome || !zeroAt p 2 2 || pages == 0 || decide (2 ^ 20 < pages) ||
      decide (len ≤ (pages - 1) * modelPage) || decide (pages * modelPage < len) || dst % 0x10000 != 0 || list % 64 != 0 ||
      !inCellar h list (16 * pages) || !inCellar h dst (roundUp len 0x10000) || !openRange s k dst (roundUp len 0x10000) then no .paramUnsupported [] s
  else
    let s := noteRead k list (16 * pages) s
    if vstat s k list (16 * pages) ≠ .ok then no .uncorrectable (toLe 4 0) s
    else
      let es := chunks 16 (vread s k list (16 * pages))
      let gens := es.map (fun e => field e 8 4)
      let l : ModelLoad := { fn := f, tag := reqTag (s.fn f).mbx, slot := slot, dst := dst, len := len, gens := gens, addrs := es.map (fun e => field e 0 8) }
      match es.zipIdx.find? (fun e => field e.1 0xC 4 != e.2) with
      | some e => no .paramUnsupported (toLe 4 e.2) s
      | none => (none, (gens.foldl (fun s g => onPages slot g (· + 1) s) s).onShelf k (fun h => { h with load := some l }))

/-- MODEL_LOAD (R484): the response comes when its last page has been read, or the first that fails. -/
def execModelLoad (f : BitVec 4) (s : State) : Out := .next (serveLater f.toNat 0x0210 (modelLoad f.toNat) s)

/-- A load ends: pages still listed leave their counters. -/
def endLoad (k : Nat) (l : ModelLoad) (s : State) : State :=
  (l.unread.foldl (fun s i => onPages l.slot (l.gens.getD i 0) (· - 1) s) s).onShelf k (fun h => { h with load := none })

/-- A load fails at page i: the destination is zeroised. [log 211 DEDUCED, 212 DEDUCED] -/
def failLoad (k : Nat) (l : ModelLoad) (i : Nat) (st : Status) (s : State) : State :=
  let s := vzero (endLoad k l s) k l.dst (roundUp l.len 0x10000)
  reply l.fn 0x0210 l.tag st (toLe 4 i) s

/-- Every page has been read: the model region comes to be. -/
def finishLoad (k : Nat) (l : ModelLoad) (s : State) : State :=
  let d := sha3 (vread s k l.dst l.len)
  let s := s.onShelf k (fun h => { h with load := none, model := some (l.dst, roundUp l.len 0x10000), modelDigest := d })
  reply l.fn 0x0210 l.tag .ok d s

/-- PLAIN_LEN of page i. -/
def ModelLoad.plainLen (l : ModelLoad) (i : Nat) : Nat :=
  if i + 1 = l.gens.length then l.len - (l.gens.length - 1) * modelPage else modelPage

/-- The bytes of page i, with the status of reading them: what the host's completion brought, or the Cellar's. -/
def pageBytes (k : Nat) (l : ModelLoad) (i : Nat) (ok : Bool) (page : Bytes) (s : State) : Status × Bytes × State :=
  let a := l.addrs.getD i 0
  if nbit a 0 then
    let c := a - 1
    if inCellar (s.shelf k) c 65536 then (vstat s k c 65536, vread s k c 65536, noteRead k c 65536 s) else (.uncorrectable, [], s)
  else (if ok && a % 4096 == 0 && page.length == 65536 then .ok else .uncorrectable, page, s)

/-- MODEL_PAGE_ARRIVE (R484): page i of the load of shelf k arrives, poisoned or unsupported unless `ok`. [log 209 DEDUCED] -/
def pageArrive (k i : Nat) (ok : Bool) (page : Bytes) (s : State) : State :=
  match (s.shelf k).load with
  | none => s
  | some l =>
    let low := l.unread.headD 0
    if !l.unread.contains i || decide (low + 8 ≤ i) then s
    else
      let (st, b, s) := pageBytes k l i ok page s
      let g := l.gens.getD i 0
      let l' := { l with read := i :: l.read }
      let s := (onPages l.slot g (· - 1) s).onShelf k (fun h => { h with load := some l' })
      if st ≠ .ok then failLoad k l' i .uncorrectable s
      else if field b 0 4 ≠ 0x47504D4B ∨ field b 4 2 ≠ 1 ∨ field b 8 4 ≠ g ∨ field b 0xC 4 ≠ i ∨ field b 0x10 4 ≠ l.plainLen i then
        failLoad k l' i .paramUnsupported s
      else match bindGen s l.slot g (modelUse k) with
        | .error e => failLoad k l' i e s
        | .ok key =>
          match gcmOpen key.key (slice b 0x14 12) (b.take 0x20) (b.drop 48) (slice b 0x20 16) with
          | none => failLoad k l' i .verdictReject s
          | some m =>
            let s := vwrite s k (l.dst + i * modelPage) (m.take (l.plainLen i))
            if l'.unread.isEmpty then finishLoad k l' s else s

def execModelPageArrive (k : Nat) (i : Nat) (ok : Bool) (page : Bytes) (s : State) : Out := .next (pageArrive k i ok page s)

/-- MODEL_FREE (R485). -/
def modelFree (f : Nat) (p : Bytes) (s : State) : Served :=
  let k := field p 0 1
  if !(f == 0 || k + 1 == f) then (.deniedAttribute, [], s)
  else match (s.shelf k).model with
    | none => (.paramUnsupported, [], s)
    | some m =>
      if (s.shelf k).round.active then (.paramUnsupported, [], s)
      else (.ok, [], (vzero s k m.1 m.2).onShelf k (fun h => { h with model := none }))

def execModelFree (f : BitVec 4) (s : State) : Out := .next (serve f.toNat 0x0211 false (modelFree f.toNat) s)

end Sys2Proof.Machine
end

