-- ==== Sys2Proof/Machine/ShelfCmd.lean ====
section
/-!
DEFINITION. The shelf requests of the physical function (R443-R445): SHELF_DEFINE, SHELF_QUERY, TENANT_SWITCH and QUIET_SET.
-/
namespace Sys2Proof.Machine

/-! ### The descriptor (R443) -/

/-- The descriptor that 1,152 bytes hold. -/
def parseShelf (b : Bytes) : ShelfDesc :=
  { raw := b, flags := field b 7 1, bayPairs := field b 8 1, weight := field b 9 1, seqView := field b 0xA 1, contexts := field b 0xB 1
    ledger256 := field b 0xC 1, seg4k := field b 0xD 1, win256 := field b 0xE 1, bin256 := field b 0xF 1
    flightA := field b 0x10 2, flightB := field b 0x12 2, half := field b 0x14 1
    quietMhz := field b 0x16 2, quietW := field b 0x18 2, portsOwn := field b 0x1C 2, portsShared := field b 0x1E 2
    slots := (List.range 16).map (fun n => field b (0x20 + 2 * n) 2)
    pcs := (List.range (min 512 (field b 0x40 2))).map (fun i => let e := field b (0x80 + 2 * i) 2; e / 64 % 8 * 64 + e % 64) }

/-- The fields lie in their ranges and what is marked zero is zero. [log 185 DEDUCED] -/
def shelfFields (b : Bytes) : Bool :=
  let n := field b 0x40 2
  b.length == 1152 && field b 0 4 == 0x464C484B && field b 4 2 == 1 && decide (field b 6 1 < 8) && decide (field b 7 1 < 32) &&
  decide (2 ≤ field b 9 1) && decide (field b 9 1 ≤ 64) && decide (field b 0xA 1 < 16) && decide (1 ≤ field b 0xB 1) && decide (field b 0xB 1 ≤ 16) &&
  decide (field b 0xC 1 ≤ 64) && decide (field b 0xD 1 ≤ 64) && decide (field b 0xE 1 ≤ 128) && decide (field b 0xF 1 ≤ 128) &&
  decide (field b 0x10 2 ≤ 128) && decide (field b 0x12 2 ≤ 128) && decide (field b 0x14 1 < 2) && zeroAt b 0x15 1 && zeroAt b 0x1A 2 &&
  zeroAt b 0x42 62 && decide (1 ≤ n) && decide (n ≤ 512) &&
  (List.range n).all (fun i => decide (field b (0x80 + 2 * i) 2 < 512)) && zeroAt b (0x80 + 2 * n) (1024 - 2 * n)

/-! ### The checks of R444 -/

/-- The descriptors of the other shelves. -/
def otherShelves (s : State) (k : Nat) : List ShelfDesc := ((List.range 8).filter (fun j => j != k)).filterMap (fun j => (s.shelf j).desc)

/-- No other shelf holds a pair, and every bay of it exists. -/
def pairsOk (s : State) (o : List ShelfDesc) (d : ShelfDesc) : Bool :=
  d.bayPairs != 0 && o.all (fun e => e.bayPairs &&& d.bayPairs == 0) &&
  (List.range 16).all (fun b => !nbit d.bayPairs (b / 2) || decide (s.physOf b < 17))

/-- Pseudo-channels are listed once, are free, and are neither retired nor fenced. -/
def pcsOk (s : State) (o : List ShelfDesc) (d : ShelfDesc) : Bool :=
  d.pcs.eraseDups.length == d.pcs.length &&
  d.pcs.all (fun p => !(nbit (s.stack (p / 64)).retired (p % 64)) && !(nbit (s.stack (p / 64)).fenced (p % 64)) && o.all (fun e => !e.pcs.contains p))

/-- Ports and slots. [log 186 DEDUCED] -/
def portsOk (s : State) (o : List ShelfDesc) (d : ShelfDesc) : Bool :=
  (List.range 16).all (fun n =>
    let own := nbit d.portsOwn n
    let shr := nbit d.portsShared n
    let slots := d.slots.getD n 0
    !(own && shr) && !(portHeld s n && (own || shr)) && (shr || slots == 0) &&
    o.all (fun e =>
      let named := nbit e.portsOwn n || nbit e.portsShared n
      let es := e.slots.getD n 0
      !(own && named) && !(shr && nbit e.portsOwn n) && slots &&& es == 0 &&
      (!(shr && nbit e.portsShared n) || (slots == 0) == (es == 0))))

/-- The totals over all shelves. -/
def totalsOk (l : List ShelfDesc) : Bool :=
  let sum (f : ShelfDesc → Nat) : Nat := (l.map f).sum
  decide (sum (fun d => d.ledger256) ≤ 64) && decide (sum (fun d => d.seg4k) ≤ 64) && decide (sum (fun d => d.flightA) ≤ 128) &&
  decide (sum (fun d => d.flightB) ≤ 128) && decide (sum (fun d => d.weight) ≤ 64) &&
  [0, 1].all (fun h => decide (((l.filter (fun d => d.half == h)).map (fun d => d.win256)).sum ≤ 128) &&
    decide (((l.filter (fun d => d.half == h)).map (fun d => d.bin256)).sum ≤ 128))

/-- The quiet checks. [log 188 DEDUCED] -/
def quietOk (s : State) (o : List ShelfDesc) (d : ShelfDesc) : Bool :=
  if nbit d.flags 1 then
    decide (600 ≤ d.quietMhz) && decide (d.quietMhz ≤ s.fmax) && d.quietMhz % 25 == 0 &&
    decide (15 * (({ desc := some d } : Shelf).bays.length) ≤ d.quietW) &&
    decide (((d :: o.filter (fun e => nbit e.flags 1)).map (fun e => e.quietW)).sum ≤ s.capTop - 400)
  else d.quietMhz == 0 && d.quietW == 0

/-- The descriptor is one that shelf k may be defined by. -/
def shelfOk (s : State) (k : Nat) (d : ShelfDesc) : Bool :=
  let o := otherShelves s k
  pairsOk s o d && pcsOk s o d && portsOk s o d && totalsOk (d :: o) && quietOk s o d

/-! ### The requests (R445) -/

/-- A change of shelf k is refused while its TDI is not CONFIG_UNLOCKED. -/
def tdiHolds (s : State) (k : Nat) : Bool := (s.tdi k).isLocked || (s.tdi k).inError

/-- Shelf k is READY and empty under a descriptor. [log 188 DEDUCED] -/
def defineShelf (k : Nat) (d : ShelfDesc) (s : State) : State :=
  s.onShelf k (fun _ => { desc := some d, counts := { quietMhz := if nbit d.flags 1 then d.quietMhz else 0 } })

/-- SHELF_DEFINE: a shelf descriptor is checked and takes effect (R441, R444). [log 185 DEDUCED, 187 DEDUCED] -/
def shelfDefine (p : Bytes) (s : State) : Served :=
  let k := field p 6 1
  let d := parseShelf p
  if !shelfFields p then (.paramUnsupported, [], s)
  else if tdiHolds s k then (.deniedAttribute, [], s)
  else if nbit d.flags 0 && s.isl.debug then (.deniedAttribute, [], s)
  else if (s.shelf k).desc.isSome || !shelfOk s k d then (.paramUnsupported, [], s)
  else (.ok, [], defineShelf k d s)

/-- SHELF_DEFINE (R444). -/
def execShelfDefine (f : BitVec 4) (s : State) : Out := .next (serve f.toNat 0x0401 true shelfDefine s)

def shelfQuery (p : Bytes) (s : State) : Served :=
  match if field p 0 1 < 8 then (s.shelf (field p 0 1)).desc else none with
  | none => (.paramUnsupported, [], s)
  | some d => (.ok, d.raw, s)

/-- SHELF_QUERY. -/
def execShelfQuery (f : BitVec 4) (s : State) : Out := .next (serve f.toNat 0x0402 true shelfQuery s)

/-- A MODEL_LOAD that a tenant switch ends answers SHELF_FENCED. [log 191 DEDUCED] -/
def loadFenced (f tag : Nat) (s : State) : State := reply f 0x0210 tag .shelfFenced [] s

/-- TENANT_SWITCH of a shelf (R451). [log 185 DEDUCED, 187 DEDUCED] -/
def shelfSwitch (p : Bytes) (s : State) : Served :=
  let k := field p 0 1
  if !decide (k < 8) || (s.shelf k).desc.isNone then (.paramUnsupported, [], s)
  else if tdiHolds s k then (.deniedAttribute, [], s)
  else (.ok, [], tenantSwitch k (nbit (field p 1 1) 0) loadFenced s)

/-- TENANT_SWITCH (R451). -/
def execTenantSwitch (f : BitVec 4) (s : State) : Out := .next (serve f.toNat 0x0403 true shelfSwitch s)

/-- The descriptor with other quiet settings. -/
def ShelfDesc.withQuiet (d : ShelfDesc) (q : Bool) (mhz w : Nat) : ShelfDesc :=
  let flags := d.flags - d.flags / 2 % 2 * 2 + 2 * b2n q
  { d with
    flags := flags, quietMhz := mhz, quietW := w
    raw := d.raw.take 7 ++ toLe 1 flags ++ slice d.raw 8 14 ++ toLe 2 mhz ++ toLe 2 w ++ d.raw.drop 0x1A }

/-- QUIET_SET: the quiet settings of a shelf change (R445). [log 187 DEDUCED] -/
def quietSet (p : Bytes) (s : State) : Served :=
  let k := field p 0 1
  match if k < 8 then (s.shelf k).desc else none with
  | none => (.paramUnsupported, [], s)
  | some d =>
    let d := d.withQuiet (nbit (field p 1 1) 0) (field p 2 2) (field p 4 2)
    if tdiHolds s k then (.deniedAttribute, [], s)
    else if (s.shelf k).round.active || (s.shelf k).prog.service || !quietOk s (otherShelves s k) d then (.paramUnsupported, [], s)
    else (.ok, [], (s.onShelf k (fun h => { h with desc := some d })).onCounts k (fun c => { c with quietMhz := d.quietMhz }))

/-- QUIET_SET (R445). -/
def execQuietSet (f : BitVec 4) (s : State) : Out := .next (serve f.toNat 0x0404 true quietSet s)

end Sys2Proof.Machine
end

