-- ==== Sys2Proof/Machine/Tdisp.lean ====
section
/-!
DEFINITION. SPDM and IDE (R413, R488), the TDIs (R414-R416), configuration space and MSI-X (R400-R404, R408), and the resets of
the host port (R417, R418).
-/
namespace Sys2Proof.Machine

/-- Change the host port. -/
def State.onHost (s : State) (f : HostPort → HostPort) : State := { s with host := f s.host }

/-- A response goes out through the DOE mailbox. -/
def doeOut (b : Bytes) (s : State) : State := s.onHost (fun h => { h with doe := b :: h.doe })

/-! ### SPDM -/

/-- SPDM_REQUEST (R413): the responder answers; a FINISH_RSP brings the secured session up, and an END_SESSION_ACK ends it. [log 162 PRESUMED] -/
def execSpdmRequest (b : Bytes) (s : State) : Out :=
  .next (
    if s.dev.halted then s
    else
      let r := Config.spdmAnswer (b :: s.host.doe)
      let up := match field r 1 1 with | 0x65 => true | 0x6C => false | _ => s.host.session
      (doeOut r s).onHost (fun h => { h with session := up }))

/-- The measurement blocks of R488, as (index, content), with the reports' free randomness drawn. -/
def measBlocks (nonce : Bytes) (s : State) : Option (List (Nat × Bytes)) × State :=
  let b := s.isl.fwImage
  let fixed :=
    [(1, (Config.romDigest ++ zeros 48).take 48), (2, fwDigest b),
     (3, toLe 1 s.lcs ++ toLe 1 (b2n s.isl.debug) ++ toLe 1 s.profile ++ toLe 1 s.isl.fwSlot ++ toLe 1 (fwSvn b) ++ toLe 1 s.fuseSvn ++ toLe 1 (fwKeyIndex b)),
     (4, layoutDigest s)]
  let scopes := (5, 0xFF) :: ((List.range 8).filter (fun k => (s.shelf k).desc.isSome)).map (fun k => (0x10 + k, k))
  scopes.foldl (fun (a : Option (List (Nat × Bytes)) × State) e =>
    match a.1, report e.2 nonce (zeros 32) 0 a.2 with
    | some l, (some r, s) => (some (l ++ [(e.1, r)]), s)
    | some _, (none, s) => (none, s)
    | none, _ => a) (some fixed, s)

/-- GET_MEASUREMENTS (R488): block `index`, or every block for 0xFF; the P-384 attestation key signs the response. -/
def execGetMeasurements (index : BitVec 8) (nonce : Bytes) (s : State) : Out :=
  .next (
    if s.dev.halted then s
    else match (s.slot 1).cur, measBlocks (nonce.take 32) s with
      | some ec, (some l, s) =>
        let l := if index.toNat = 0xFF then l else l.filter (fun e => e.1 == index.toNat)
        let m := Config.spdmMeasurements (toLe 1 index.toNat :: nonce.take 32 :: l.map (fun e => toLe 1 e.1 ++ e.2))
        doeOut (m ++ p384.sign hmac384 (beNat ec.key) (sha384 m)) s
      | some _, (none, s) => doeOut (Config.spdmAnswer (nonce :: s.host.doe)) s
      | none, _ => doeOut (Config.spdmAnswer (nonce :: s.host.doe)) s)

/-! ### IDE (R413) -/

/-- IDE stream n. -/
def State.ide (s : State) (n : Nat) : Ide := tget {} s.host.ide n

/-- Change it. -/
def State.onIde (s : State) (n : Nat) (f : Ide → Ide) : State := s.onHost (fun h => { h with ide := tput h.ide n (f (s.ide n)) })

/-- The stream is Secure: every sub-stream goes in both directions in one key set. [log 162 PRESUMED] -/
def Ide.secure (x : Ide) : Bool := !x.insecure && [0, 1].any (fun k => (List.range 6).all (fun i => x.going.contains (k * 6 + i)))

/-- A key's place: key set, sub-stream, direction. -/
def ideKey (set_ sub : Nat) (rx : Bool) : Nat := set_ * 6 + sub * 2 + b2n rx

/-- IDE_KM_KEY_PROG: a key is loaded into the IDE engine. [log 164 DEDUCED] -/
def execIdeKmKeyProg (n : BitVec 4) (set_ : BitVec 1) (sub : BitVec 2) (rx : Bool) (key : Bytes) (s : State) : Out :=
  .next (
    if s.host.session then
      doeOut (Config.ideKmResponse [1, n.toNat, set_.toNat, sub.toNat, b2n rx, 0])
        (s.onIde n.toNat (fun x => { x with keys := tput x.keys (ideKey set_.toNat sub.toNat rx) key }))
    else s)

/-- IDE_KM_K_SET_GO: a programmed key comes into use. [log 164 DEDUCED] -/
def execIdeKmKSetGo (n : BitVec 4) (set_ : BitVec 1) (sub : BitVec 2) (rx : Bool) (s : State) : Out :=
  .next (
    if s.host.session then
      let i := ideKey set_.toNat sub.toNat rx
      let ok := tmem (s.ide n.toNat).keys i
      doeOut (Config.ideKmResponse [2, n.toNat, set_.toNat, sub.toNat, b2n rx, b2n !ok])
        (if ok then s.onIde n.toNat (fun x => { x with going := insSet i x.going }) else s)
    else s)

/-- IDE_KM_K_SET_STOP: a key goes out of use and is gone; a stream with none in use may be set up again. [log 162 PRESUMED, 164 DEDUCED, 165 DEDUCED] -/
def execIdeKmKSetStop (n : BitVec 4) (set_ : BitVec 1) (sub : BitVec 2) (rx : Bool) (s : State) : Out :=
  .next (
    if s.host.session then
      let i := ideKey set_.toNat sub.toNat rx
      doeOut (Config.ideKmResponse [3, n.toNat, set_.toNat, sub.toNat, b2n rx, 0])
        (s.onIde n.toNat (fun x =>
          let going := x.going.filter (fun j => j != i)
          { keys := tdel x.keys i, going := going, insecure := x.insecure && !going.isEmpty }))
    else s)

/-- IDE_KM_QUERY: 1 Link stream and 8 Selective streams. -/
def execIdeKmQuery (s : State) : Out := .next (if s.host.session then doeOut (Config.ideKmResponse [0, 1, 8]) s else s)

/-- IDE_INTEGRITY_FAILURE: the stream is Insecure, and every TDI bound to it enters ERROR. -/
def execIdeIntegrityFailure (n : BitVec 4) (s : State) : Out :=
  .next (
    let s := s.onIde n.toNat (fun x => { x with insecure := true })
    (List.range 8).foldl (fun s k => if (s.tdi k).isLocked && (s.tdi k).stream == n.toNat then tdiError k 2 s else s) s)

/-! ### TDIs (R414-R416) -/

/-- A request to a TDI is answered, with an error or not. -/
def tdiAnswer (code k : Nat) (err : Bool) (s : State) : State := doeOut (Config.tdispResponse [code, k, b2n err]) s

/-- LOCK_INTERFACE_REQUEST may be answered without an error. -/
def lockOk (s : State) (k n : Nat) : Bool :=
  (match (s.tdi k).state with | .unlocked => true | .locked => false | .run => false | .error => false) &&
  (s.shelf k).conf && (s.ide n).secure && (s.fn (k + 1)).memSpace && (s.fn (k + 1)).master &&
  !(s.shelf k).round.active && !(s.shelf k).prog.service

/-- LOCK_INTERFACE_REQUEST (R414, R487): the TDI of shelf k, its stream, and whether the MSI-X table is locked. [log 164 DEDUCED, 166 DESIGN CHOICE] -/
def execLockInterfaceRequest (k : Nat) (stream : BitVec 3) (msix : Bool) (s : State) : Out :=
  .next (
    if s.host.session then
      if lockOk s k stream.toNat then
        let (nonce, s) := drawBytes 32 s
        let (r, s) := report k nonce (zeros 32) 0 s
        let s := s.onTdi k (fun t => { t with state := .locked, stream := stream.toNat, msixLocked := msix, digest := sha3 (r.getD []) })
        tdiAnswer 1 k false (signalShelf k 4 s)
      else tdiAnswer 1 k true s
    else s)

/-- START_INTERFACE_REQUEST (R414). [log 164 DEDUCED, 167 DEDUCED] -/
def execStartInterfaceRequest (k : Nat) (s : State) : Out :=
  .next (
    if s.host.session then
      match (s.tdi k).state with
      | .locked => tdiAnswer 2 k false (signalShelf k 4 (s.onTdi k (fun t => { t with state := .run })))
      | .unlocked => tdiAnswer 2 k true s
      | .run => tdiAnswer 2 k true s
      | .error => tdiAnswer 2 k true s
    else s)

/-- The TDI of shelf k is CONFIG_UNLOCKED after a tenant switch (R416). -/
def tdiStop (k : Nat) (s : State) : State := (tenantSwitch k false loadFenced s).onTdi k (fun _ => {})

/-- STOP_INTERFACE_REQUEST (R416). [log 164 DEDUCED, 167 DEDUCED] -/
def execStopInterfaceRequest (k : Nat) (s : State) : Out :=
  .next (
    if s.host.session then
      match (s.tdi k).state with
      | .unlocked => tdiAnswer 3 k true s
      | .locked => tdiAnswer 3 k false (tdiStop k s)
      | .run => tdiAnswer 3 k false (tdiStop k s)
      | .error => tdiAnswer 3 k false (tdiStop k s)
    else s)

/-- GET_DEVICE_INTERFACE_REPORT (R415): the VF's ranges, the doorbell page not TEE-accessible, and the digest taken at the lock. [log 167 DEDUCED] -/
def execGetDeviceInterfaceReport (k : Nat) (s : State) : Out :=
  .next (
    if s.host.session then
      if (s.tdi k).isLocked then
        let f := s.fn (k + 1)
        let b0 := tget 0 f.bars 0
        doeOut (Config.tdispReport
          [toLe 8 b0 ++ toLe 8 0x400_0000, toLe 8 (tget 0 f.bars 2) ++ toLe 8 f.bar2Size, toLe 8 (tget 0 f.bars 4) ++ toLe 8 0x1_0000,
           toLe 8 (b0 + 0x200_0000 + k * 0x1_0000) ++ toLe 8 0x1_0000, (s.tdi k).digest]) s
      else tdiAnswer 4 k true s
    else s)

/-! ### Resets of functions (R417, R418) -/

/-- What the island does for a request of opcode op. [log 177 DEDUCED] -/
def islandRequest (f : BitVec 4) (op : Nat) (s : State) : Out :=
  match op with
  | 0x0101 => execKeyGenerate f s
  | 0x0102 => execKeyLoad f s
  | 0x0103 => execKeyRetire f s
  | 0x0104 => execKeyClear f s
  | 0x0105 => execKeyQuery f s
  | 0x0106 => execPubkeyGet f s
  | 0x0201 => execAttest f s
  | 0x0202 => execKeyRelease f s
  | 0x0203 => execAttestLast f s
  | 0x0204 => execCertGet f s
  | 0x0210 => execModelLoad f s
  | 0x0211 => execModelFree f s
  | 0x0301 => execFwUpdate f s
  | 0x0302 => execFwCommitSvn f s
  | 0x0303 => execLcsNonce f s
  | 0x0304 => execLcsAdvance f s
  | 0x0305 => execDebugSet f s
  | 0x0306 => execCertInstall f s
  | 0x0307 => execFwKeyRevoke f s
  | 0x0401 => execShelfDefine f s
  | 0x0402 => execShelfQuery f s
  | 0x0403 => execTenantSwitch f s
  | 0x0404 => execQuietSet f s
  | _ => .next s

/-- A MODEL_LOAD that a function asked for goes on with nobody to answer. [log 177 DEDUCED] -/
def detachLoads (p : Nat → Bool) (s : State) : State :=
  { s with shelves := s.shelves.map (fun e => (e.1, { e.2 with load := e.2.load.map (fun l => if p l.fn then { l with fn := 15 } else l) })) }

/-- An FLR of function f has its request in progress completed inside the island (R412). [log 177 DEDUCED] -/
def completeRequest (f : Nat) (s : State) : State :=
  if (s.fn f).mbx.busy then
    detachLoads (· == f) (match islandRequest (BitVec.ofNat 4 f) (reqOp (s.fn f).mbx) s with | .next t => t | _ => s)
  else s

/-- A function's MSI-X state and mailbox are cleared. [log 167 DEDUCED] -/
def clearFn (f : Nat) (s : State) : State := s.onFn f (fun x => { x with msixEn := false, unmasked := [], waiting := [], table := [], mbx := {} })

/-- FLR of VF f: its request is completed, then the shelf reset, and the function's own state. [log 167 DEDUCED, 177 DEDUCED] -/
def flrVf (f : Nat) (s : State) : State :=
  let s := completeRequest f s
  let s := tenantSwitch (f - 1) false loadFenced (tdiError (f - 1) 3 s)
  (clearFn f s).onFn f (fun x => { x with bar2Size := 0x10_0000_0000 })

/-- FLR_VF (R418). -/
def execFlrVf (f : BitVec 4) (s : State) : Out := .next (if f != 0 && fnExists s f.toNat then flrVf f.toNat s else s)

/-- FLR_PF (R418). [log 177 DEDUCED] -/
def execFlrPf (s : State) : Out := .next (clearFn 0 (completeRequest 0 s))

/-- LINK_DOWN (R417): a hot reset or link-down of the host port. [log 170 DEDUCED, 177 DEDUCED] -/
def linkDown (s : State) : State :=
  let s := s.onHost (fun h => { h with fns := [], vfEnable := false, numVfs := 0, vfPage64 := false, ari := false, ide := [], session := false, rate := 0, width := 0, flit := false, noflit := false })
  (List.range 8).foldl (fun s k => tdiError k 2 s) (detachLoads (fun _ => true) s)

def execLinkDown (s : State) : Out := .next (linkDown s)

/-- The link comes up: in FLIT mode at a rate code and width, or held at 2.5 GT/s with NOFLIT (R400). -/
def linkUp (flit : Bool) (rate width : Nat) (s : State) : State :=
  s.onHost (fun h => { h with flit := flit, noflit := !flit, rate := if flit then rate else 1, width := width })


/-! ### Configuration space (R402-R404, R408, R415) -/

/-- The size in bytes of BAR n of function f (R404). -/
def barSize (s : State) (f n : Nat) : Nat := if n = 0 then 0x400_0000 else if n = 2 then (s.fn f).bar2Size else 0x1_0000

/-- A BAR of a size holds no address bit below it. -/
def barAddr (size a : Nat) : Nat := a / size * size

/-- The events of function f that wait and are no longer held back are signalled. -/
def flushMsix (f : Nat) (s : State) : State :=
  let x := s.fn f
  if x.msixEn then
    let l := x.waiting.filter (fun v => x.unmasked.contains v)
    let s := s.onFn f (fun x => { x with waiting := x.waiting.filter (fun v => !l.contains v) })
    s.onHost (fun h => { h with sent := (l.map (fun v => (f, v))).reverse ++ h.sent })
  else s

/-- VFs above n disappear, each after an FLR. -/
def dropVfs (n : Nat) (s : State) : State :=
  ((List.range 8).map (· + 1)).foldl (fun s f => if n < f ∧ fnExists s f = true then flrVf f s else s) s

/-- A write of a field takes effect. -/
def cfgApply (f : Nat) (c : CfgField) (s : State) : State :=
  match c with
  | .vfEnable on => if f ≠ 0 then s else if on then s.onHost (fun h => { h with vfEnable := true }) else (dropVfs 0 s).onHost (fun h => { h with vfEnable := false })
  | .numVfs n => if f ≠ 0 then s else (dropVfs n.toNat s).onHost (fun h => { h with numVfs := min 8 n.toNat })
  | .msixEnable on => flushMsix f (s.onFn f (fun x => { x with msixEn := on }))
  | .memorySpace on => s.onFn f (fun x => { x with memSpace := on })
  | .busMaster on => s.onFn f (fun x => { x with master := on })
  | .bar n a => if n.toNat = 0 ∨ n.toNat = 2 ∨ n.toNat = 4 then s.onFn f (fun x => { x with bars := tput x.bars n.toNat (barAddr (barSize s f n.toNat) a.toNat) }) else s
  | .bar2Size g =>
    let n := 2 ^ (30 + g.toNat)
    if g.toNat ≤ 9 then s.onFn f (fun x => { x with bar2Size := n, bars := tput x.bars 2 (barAddr n (tget 0 x.bars 2)) }) else s
  | .d3hot on => s.onFn f (fun x => { x with d3hot := on })
  | .vfPage on => if f ≠ 0 then s else s.onHost (fun h => { h with vfPage64 := on })
  | .ari on => if f ≠ 0 then s else s.onHost (fun h => { h with ari := on })
  | .maxPayload n => s.onFn f (fun x => { x with payload := n.toNat })
  | .readRequest n => s.onFn f (fun x => { x with readReq := n.toNat })

/-- The write would change a locked item of function f (R415). -/
def cfgLocked (s : State) (f : Nat) (c : CfgField) : Bool :=
  let x := s.fn f
  f != 0 && (s.tdi (f - 1)).isLocked &&
  (match c with
    | .memorySpace on => on != x.memSpace
    | .busMaster on => on != x.master
    | .bar n a => (n.toNat == 0 || n.toNat == 2 || n.toNat == 4) && barAddr (barSize s f n.toNat) a.toNat != tget 0 x.bars n.toNat
    | .bar2Size g => decide (g.toNat ≤ 9) && x.bar2Size != 2 ^ (30 + g.toNat)
    | .msixEnable _ => false | .vfEnable _ => false | .numVfs _ => false | .d3hot _ => false | .vfPage _ => false | .ari _ => false
    | .maxPayload _ => false | .readRequest _ => false)

/-- A configuration write of function f: it takes effect, and a changed locked item moves the TDI to ERROR. -/
def cfgWrite (f : Nat) (c : CfgField) (s : State) : State :=
  if fnExists s f then
    let locked := cfgLocked s f c
    let s := cfgApply f c s
    if locked then tdiError (f - 1) 1 s else s
  else s

/-- CONFIG_SPACE_WRITE (R403). -/
def execConfigSpaceWrite (f : BitVec 4) (c : CfgField) (s : State) : Out := .next (cfgWrite f.toNat c s)

/-- LOCKED_CONFIG_WRITE (R415): a configuration write that changes a locked item. -/
def execLockedConfigWrite (f : BitVec 4) (c : CfgField) (s : State) : Out :=
  .next (if cfgLocked s f.toNat c then cfgWrite f.toNat c s else s)

/-- Entry v of the MSI-X table of function f takes an address (a multiple of 4), a data word and a Mask bit. [log 166 DESIGN CHOICE] -/
def Fn.withEntry (x : Fn) (v addr data : Nat) (masked : Bool) : Fn :=
  { x with
    table := tput x.table v (addr / 4 * 4, data)
    unmasked := if masked then x.unmasked.filter (· != v) else insSet v x.unmasked }

/-- MSIX_VECTOR_UNMASK (R404, R408, R415): an entry of the table is written; an event that waited for it is signalled, and a change of a
locked table moves the TDI to ERROR. [log 166 DESIGN CHOICE, 169 DEDUCED] -/
def execMsixVectorUnmask (f : BitVec 4) (v : MsixEntry) (s : State) : Out :=
  .next (
    let f := f.toNat
    if fnExists s f then
      let x := s.fn f
      let y := x.withEntry v.vector.toNat v.address.toNat v.data.toNat v.masked
      let changed := tget (0, 0) y.table v.vector.toNat != tget (0, 0) x.table v.vector.toNat || y.unmasked.contains v.vector.toNat != x.unmasked.contains v.vector.toNat
      let locked := f != 0 && (s.tdi (f - 1)).isLocked && (s.tdi (f - 1)).msixLocked && changed
      let s := flushMsix f (s.onFn f (fun _ => y))
      if locked then tdiError (f - 1) 1 s else s
    else s)

end Sys2Proof.Machine
end

