-- ==== Sys2Proof/Machine/Time.lean ====
section
/-!
DEFINITION. Epoch time (R517-R524): its sources, the states, steps and slewing, the PTP slave clock and the coarse count.
-/
namespace Sys2Proof.Machine

/-- Change the time state. -/
def State.onTim (s : State) (f : Tim → Tim) : State := { s with tim := f s.tim }

def rTimeCfg : Nat := 0xC0_0800
def State.timeCfg (s : State) : Word := s.dreg rTimeCfg 0x000A_0000_0000_0000
def ppsOn (s : State) : Bool := bit s.timeCfg 0
def ptpOn (s : State) : Bool := bit s.timeCfg 2

/-- A round is active on some shelf. -/
def anyRound (s : State) : Bool := (List.range 8).any (fun k => (s.shelf k).round.active)

/-- Slewing so far becomes part of the base; epoch time stays what it is. [log 223 DEDUCED] -/
def settleSlew (s : State) : State :=
  s.onTim (fun t => { t with base := t.base - t.slewed s.clk, slew := t.slew - t.slewed s.clk, slewAt := s.clk })

/-- Remove an offset by slewing. [log 223 DEDUCED] -/
def slewBy (off : Int) (s : State) : State := (settleSlew s).onTim (fun t => { t with slew := off })

/-- Epoch time moves back by an offset in one step. -/
def stepBack (off : Int) (s : State) : State := (settleSlew s).onTim (fun t => { t with base := t.base - off, slew := 0, stepBy := none })

/-- Epoch time becomes v. -/
def setEpoch (v : Int) (s : State) : State := s.onTim (fun t => { t with base := v - (s.clk : Int), slew := 0, slewAt := s.clk })

/-- The state of epoch time changes (R520, R566). -/
def enterTime (x : TimeState) (s : State) : State :=
  if s.tim.state = x then s
  else
    let s := s.onTim (fun t => { t with state := x, good := 0, badRow := 0 })
    timeEvent (match x with
      | .holdover => s.onTim (fun t => { t with holdAt := s.clk, holdovers := sat 16 1 t.holdovers, source := 0 })
      | .locked => s.onTim (fun t => { t with fromFree := false, stepBy := none })
      | .free => s
      | .acquiring => s)

/-- SOURCE of the enabled sources. -/
def sourceCode (s : State) : Nat := if ppsOn s then (if ptpOn s then 2 else 3) else if ptpOn s then 1 else 0

/-- An update whose offset is small counts towards LOCKED; 8 in a row lock (R520). [log 224 DEDUCED] -/
def countGood (off : Int) (s : State) : State :=
  let s := s.onTim (fun t => { t with good := if off.natAbs < 1000 then t.good + 1 else 0 })
  if 8 ≤ s.tim.good then enterTime .locked s else s

/-- An update from a source, with epoch time's measured offset to it in nanoseconds. [log 224 DEDUCED, 225 DEDUCED] -/
def timeUpdate (off : Int) (s : State) : State :=
  let s := s.onTim (fun t => { t with offset := off, source := sourceCode s })
  let large := decide (1_000_000 ≤ off.natAbs)
  match s.tim.state with
  | .free => enterTime .acquiring (if anyRound s then s else stepBack off s)
  | .acquiring => countGood off (if decide (off.natAbs < 1000) || anyRound s then slewBy off s else stepBack off s)
  | .locked =>
    if large then
      let s := s.onTim (fun t => { t with rejected := sat 16 1 t.rejected, badRow := t.badRow + 1 })
      if 3 ≤ s.tim.badRow then enterTime .holdover s else s
    else (slewBy off s).onTim (fun t => { t with badRow := 0 })
  | .holdover =>
    if large then (if anyRound s then s.onTim (fun t => { t with stepBy := some off, good := 0 }) else (stepBack off s).onTim (fun t => { t with good := 0 }))
    else countGood off (slewBy off s)

/-- HOLDOVER_STEP (R520): a pending step is taken once no round is active on any shelf. -/
def execHoldoverStep (s : State) : Out :=
  .next (match s.tim.stepBy with
    | none => s
    | some off => if anyRound s then s else stepBack off s)

/-! ### PPS (R519) -/

/-- PPS_IN rises or falls. [log 230 DEDUCED] -/
def ppsEdge (rising : Bool) (s : State) : State :=
  let c := s.timeCfg
  if ppsOn s && rising != bit c 1 then
    let e : Int := (s.epoch : Int) + sext 16 (bits c 47 32)
    let off := (e + 500_000_000) % 1_000_000_000 - 500_000_000
    if !s.tim.secondsKnown || decide (1_000_000 < off.natAbs) then s.onTim (fun t => { t with ppsMissed := sat 16 1 t.ppsMissed })
    else timeUpdate off (s.onTim (fun t => { t with lastPps := some s.clk }))
  else s

/-! ### PTP (R518) -/

/-- Change the slave clock. -/
def State.onPtp (s : State) (f : Ptp → Ptp) : State := s.onTim (fun t => { t with ptp := f t.ptp })

/-- A PTP timestamp of 10 bytes, in nanoseconds. -/
def ptpStamp (b : Bytes) (off : Nat) : Int := ((beNat (slice b off 6) * 1_000_000_000 + beNat (slice b (off + 6) 4) : Nat) : Int)

/-- correctionField, in nanoseconds. -/
def ptpCorr (b : Bytes) : Int := sext 64 (beNat (slice b 8 8)) / 65536

/-- Count a PTP message ignored or malformed. -/
def ptpDiscard (s : State) : State := s.onTim (fun t => { t with ptpDiscards := sat 16 1 t.ptpDiscards })

/-- The domain, version and length of a message are right. -/
def ptpOk (s : State) (b : Bytes) : Bool :=
  let n := match field b 0 1 % 16 with | 0 => 44 | 8 => 44 | 9 => 54 | 0xB => 64 | _ => 65536
  field b 1 1 % 16 == 2 && decide (n ≤ b.length) && field b 4 1 == bits s.timeCfg 23 16

/-- A message comes from the master that is followed. -/
def fromMaster (s : State) (b : Bytes) : Bool := s.tim.ptp.master.isSome && slice b 20 10 == s.tim.ptp.port

/-- Send Delay_Req on the PTP channel. [log 227 DESIGN CHOICE] -/
def delayRequest (s : State) : State :=
  let c := bits s.timeCfg 7 4 * 4 + bits s.timeCfg 9 8
  let q := (s.tim.ptp.reqSeq + 1) % 65536
  if chanUp s c then
    let f := frameOf s c (0xFF0E * 2 ^ 112 + 0x181) (bits s.tpCfg 13 8) 0 0 319 319 (Config.ptpDelayReq q)
    emit c (toBe 6 0x333300000181 ++ f.drop 6) (s.onPtp (fun p => { p with reqSeq := q, reqAt := some s.epoch }))
  else s

/-- A PTP measurement: it is the source, or with PPS the check and the seconds (R519). [log 229 DEDUCED] -/
def ptpUpdate (off : Int) (s : State) : State :=
  let s := s.onTim (fun t => { t with secondsKnown := true })
  if ppsOn s && decide (off.natAbs < 1_000_000) then s else timeUpdate off s

/-- Both times of a Sync are known. [log 227 DESIGN CHOICE] -/
def syncDone (t1 t2 : Int) (s : State) : State :=
  let s := s.onPtp (fun p => { p with t1 := t1, t2 := t2, awaiting := false })
  let s := if s.tim.ptp.measured then ptpUpdate (t2 - t1 - s.tim.ptp.delay) s else s
  delayRequest s

/-- Announce: the better master is followed. -/
def ptpAnnounce (b : Bytes) (s : State) : State :=
  let set_ := slice b 44 20
  if !nbit (field b 7 1) 3 then ptpDiscard s
  else match s.tim.ptp.master with
    | none => s.onPtp (fun _ => { master := some set_, port := slice b 20 10, announced := s.clk, reqSeq := s.tim.ptp.reqSeq })
    | some m =>
      if slice b 20 10 = s.tim.ptp.port then s.onPtp (fun p => { p with master := some set_, announced := s.clk })
      else if Config.ptpBetter [set_, m] then
        s.onPtp (fun p => { master := some set_, port := slice b 20 10, announced := s.clk, reqSeq := p.reqSeq })
      else ptpDiscard s

/-- Sync, one-step or two-step. -/
def ptpSync (b : Bytes) (s : State) : State :=
  let s := s.onTim (fun t => { t with lastSync := some s.clk })
  if nbit (field b 6 1) 1 then
    s.onPtp (fun p => { p with awaiting := true, syncSeq := beNat (slice b 30 2), syncAt := s.epoch, syncCorr := ptpCorr b })
  else syncDone (ptpStamp b 34 + ptpCorr b) s.epoch s

/-- Follow_Up. -/
def ptpFollowUp (b : Bytes) (s : State) : State :=
  let p := s.tim.ptp
  if p.awaiting && p.syncSeq == beNat (slice b 30 2) then syncDone (ptpStamp b 34 + p.syncCorr + ptpCorr b) p.syncAt s else ptpDiscard s

/-- Delay_Resp. -/
def ptpDelayResp (b : Bytes) (s : State) : State :=
  let p := s.tim.ptp
  match p.reqAt with
  | none => ptpDiscard s
  | some t3 =>
    if p.reqSeq = beNat (slice b 30 2) ∧ slice b 44 10 = slice (Config.ptpDelayReq p.reqSeq) 20 10 then
      s.onPtp (fun p => { p with delay := ((p.t2 - p.t1) + (ptpStamp b 34 - ptpCorr b - t3)) / 2, measured := true, reqAt := none })
    else ptpDiscard s

/-- A PTP message arrives now. -/
def ptpMessage (b : Bytes) (s : State) : State :=
  if !ptpOk s b then ptpDiscard s
  else match field b 0 1 % 16 with
    | 0xB => ptpAnnounce b s
    | 0 => if fromMaster s b then ptpSync b s else ptpDiscard s
    | 8 => if fromMaster s b then ptpFollowUp b s else ptpDiscard s
    | 9 => if fromMaster s b then ptpDelayResp b s else ptpDiscard s
    | _ => ptpDiscard s

/-- A frame on the PTP channel carries a PTP message. -/
def ptpReceive (chan : Nat) (fcs : Bool) (f : Bytes) (s : State) : State :=
  if chanUp s chan then
    match frameKind s chan fcs f with
    | .ptp b => ptpMessage b s
    | .fcs => s | .vlan => s | .pause => s | .other => s | .checksum => s | .basdo _ => s | .solicit _ _ => s
  else s

/-! ### Loss, setting and the coarse count (R520-R522) -/

/-- The clk at which the enabled sources count as lost. -/
def lossAt (s : State) : Nat :=
  let p := if ppsOn s then s.tim.lastPps.getD 0 + 2_000_000_000 else 0
  let q := if ptpOn s then s.tim.lastSync.getD 0 + 3_000_000_000 else 0
  max p q

/-- TIME_SOURCE_LOSS (R520). [log 229 DEDUCED] -/
def execTimeSourceLoss (s : State) : Out :=
  .next (match s.tim.state with
    | .locked => (enterTime .holdover (advanceClk (lossAt s) s)).onPtp (fun p => { p with master := none })
    | .free => s | .acquiring => s | .holdover => s)

/-- A write of EPOCH_SET (R521). -/
def epochSet (v : Word) (s : State) : State :=
  let may := match s.tim.state with | .free => true | .holdover => true | .acquiring => false | .locked => false
  if may && !anyRound s then enterTime .holdover ((setEpoch v.toNat s).onTim (fun t => { t with secondsKnown := true, stepBy := none, fromFree := false }))
  else s.onTim (fun t => { t with setRefused := true })

/-- COARSE_COUNT_RELOAD (R522). [log 227 DESIGN CHOICE] -/
def execCoarseCountReload (s : State) : Out :=
  .next (match s.tim.state with
    | .locked =>
      let s := match s.tim.coarse with | none => s | some (_, c) => advanceClk (c + 1_000_000_000) s
      s.onTim (fun t => { t with coarse := some (s.epoch, s.clk) })
    | .free => s | .acquiring => s | .holdover => s)

/-- Epoch time by the coarse count, which counts at 32.768 kHz. [log 227 DESIGN CHOICE] -/
def coarseNow (s : State) : Option Nat :=
  s.tim.coarse.map (fun e => e.1 + (s.clk - e.2) * 32768 / 1_000_000_000 * 1_000_000_000 / 32768)

/-- A source that is enabled while epoch time is FREE is acquired (R520). [log 226 DEDUCED] -/
def acquire (s : State) : State :=
  match s.tim.state with
  | .free => if ppsOn s || ptpOn s then enterTime .acquiring (s.onTim (fun t => { t with fromFree := true })) else s
  | .acquiring => s | .locked => s | .holdover => s

/-- A write of TIME_CFG (R527): ignored while a round is active on any shelf. [log 226 DEDUCED] -/
def timeCfgWrite (v : Word) (s : State) : State :=
  if anyRound s || decide (127 < bits v 23 16) then s else acquire (s.setDreg rTimeCfg (v &&& 0xFFFF_FFFF_00FF_03F7))

end Sys2Proof.Machine
end

