-- ==== Sys2Proof/Machine/Start.lean ====
section
/-!
DEFINITION. Starts and resets (R529-R537): the start steps with what each finds, the journal, the repair records, the mirror, what a cold
and a warm reset keep, the pins (R571, R572, R578, R579), LOCKDOWN (R491, R492), and the thermal trip (R507).
-/
namespace Sys2Proof.Machine

/-- Change the start's state. -/
def State.onDev (s : State) (f : Dev → Dev) : State := { s with dev := f s.dev }

/-! ### The journal (R532-R535) -/

/-- Change the record of the present start. -/
def onRec (f : JRec → JRec) (s : State) : State :=
  s.onDev (fun d => { d with recs := match d.recs with | [] => [] | r :: l => f r :: l })

/-- The entry of step n in the last record before this start's whose start took the step. [log 235 DEDUCED] -/
def priorEntry (s : State) (n : Nat) : JEntry :=
  ((s.dev.recs.drop 1).map (fun r => tget {} r.entries n)).find? (fun e => e.outcome != 0 && e.outcome != 6) |>.getD {}

/-- The mirror takes the journal and the repair records (R535). -/
def mirrorNow (s : State) : State :=
  s.onDev (fun d => { d with mirror := some { recs := d.recs, repairs := d.repairs, count := s.startCount }, newRecord := false })

/-- Ticks of the always-on clock since the start's beginning; 0 where the crystal is lost (R532, R574). -/
def startTicks (s : State) : Nat := if s.dev.xtalLost then 0 else ((s.clk - s.dev.started) * 32768 + 999_999_999) / 1_000_000_000 % 2 ^ 64

/-- Step n ends, at the time that the start's finds give it: its entry is written, and the mirror at a failure. -/
def stepDone (x : Finds) (n outcome cause detail : Nat) (s : State) : State :=
  let s := advanceClk (s.dev.started + x.times.getD n 0) s
  let e : JEntry := { outcome := outcome, cause := cause, detail := detail, ticks := startTicks s }
  let s := onRec (fun r => { r with last := n, entries := tput r.entries n e }) (s.onDev (fun d => { d with step := n }))
  let s := if outcome = 1 then s else journalEvent s
  if outcome = 3 ∨ outcome = 4 then mirrorNow s else s

/-- The start halts (R530). -/
def haltStart (s : State) : State := i3cEvent 3 (mirrorNow (onRec (fun r => { r with result := 1 }) (s.onDev (fun d => { d with halted := true }))))

/-- A step that fails and halts. -/
def failHalt (x : Finds) (n cause detail : Nat) (s : State) : State := haltStart (stepDone x n 4 cause detail s)

/-- A step that passes, or halts the start. -/
def passOr (x : Finds) (n cause : Nat) (ok : Bool) (s : State) : State := if ok then stepDone x n 1 0 0 s else failHalt x n cause 0 s

/-! ### S0 to S6 -/

/-- S0: PROFILE_SEL is latched (R3), and fuse values come into force. [log 200 DEDUCED, 234 DEDUCED] -/
def s0 (x : Finds) (s : State) : State :=
  let card := Config.fuseCardOnly || x.card
  stepDone x 0 1 0 0 ({ s with lcs := s.lcsFuse }.onDev (fun d => { d with card := card, mismatch := Config.fuseCardOnly && !x.card, latched := true }))

/-- S2: the health tests; the extended test comes first where the start before recorded a failure. [log 235 DEDUCED] -/
def s2 (x : Finds) (s : State) : State :=
  if (priorEntry s 2).cause ≠ 0 then
    if x.trngExtOk then stepDone x 2 2 (priorEntry s 2).cause 0 s else failHalt x 2 2 0 s
  else if x.trngOk then stepDone x 2 1 0 0 s
  else if x.trngExtOk then stepDone x 2 3 1 0 s
  else failHalt x 2 2 0 s

/-- The test root (R466). -/
def testRoot : Bytes := sha3 (ascii "KA2 test root" ++ toLe 8 devId)

/-- The root of this start: the test root in TEST and in a debug start, none in BLANK and SCRAPPED, else the device root, which the first
start in PROVISIONED draws (R463, R466, R468). [log 199 DESIGN CHOICE] -/
def startRoot (s : State) : Option Bytes × State :=
  if s.lcs = 0 ∨ s.lcs = 5 then (none, s)
  else if s.isl.debug || s.lcs = 1 then (some testRoot, s)
  else match s.otpRoot with
    | some r => (some r, s)
    | none =>
      if s.lcs = 2 then
        let (r, s) := drawBytes 32 s
        (some r, s.onIsl (fun i => { i with rootOtp := some r }))
      else (none, s)

/-- S3: the root is loaded as two shares, and slots 2 and 3 are filled (R468-R470). [log 199 DESIGN CHOICE, 200 DEDUCED] -/
def s3 (x : Finds) (s : State) : State :=
  let s := s.onIsl (fun i => { i with debug := i.debugReq && (s.lcs == 1 || s.lcs == 4) })
  if !x.rootOk then failHalt x 3 0 0 s
  else
    let (root, s) := startRoot s
    match root with
    | none => stepDone x 3 1 0 0 (s.onIsl (fun i => { i with shares := none }))
    | some r =>
      let (m, s) := drawBytes 32 s
      stepDone x 3 1 0 0 (fillIdentity (s.onIsl (fun i => { i with shares := some (m, xorBytes r m) })))

/-- S4: firmware is verified, the primary slot first or the slot that last passed (R472). [log 235 DEDUCED] -/
def s4 (x : Finds) (s : State) : State :=
  let pri := s.primary
  let first := s.isl.lastPass.getD pri
  let code (n : Nat) : Nat := if n = pri then 0 else 1
  let take (n : Nat) (s : State) : State := s.onIsl (fun i =>
    { i with fwImage := s.flashImage n, fwFlash := n, fwSlot := code n, fellBack := n != pri, lastPass := some n })
  if fwCause s (s.flashImage first) = 0 then
    if first = pri then stepDone x 4 1 0 0 (take first s)
    else stepDone x 4 2 (priorEntry s 4).cause (priorEntry s 4).detail (take first s)
  else if fwCause s (s.flashImage (1 - first)) = 0 then
    stepDone x 4 3 (fwCause s (s.flashImage first)) (code first) (take (1 - first) s)
  else failHalt x 4 (fwCause s (s.flashImage (1 - first))) (code (1 - first)) s

/-- A bay's clock at operating point 0. -/
def startClk : BayClk := { mhz := 600, mv := Config.oppMv 0, toMhz := 600, toMv := Config.oppMv 0 }

/-- S6: bays at operating point 0. -/
def s6 (x : Finds) (s : State) : State :=
  if x.pllOk then stepDone x 6 1 0 0 { s with pow := { s.pow with bays := (List.range 17).map (fun n => (n, startClk)) } }
  else failHalt x 6 0 0 s

/-! ### S7 and S8 -/

/-- The bays that a start leaves out (R27). -/
def faultyBays (s : State) : List Nat :=
  (List.range 17).filter (fun n => Config.fuseFaulty n || s.dev.repairs.bays.contains n || s.dev.repairs.slices.contains n)

/-- Elements of a list that another lacks. -/
def newOnes {α : Type} [BEq α] (l old : List α) : List α := l.filter (fun e => !old.contains e)

/-- Add a list of records. -/
def addAll {α : Type} [BEq α] (l old : List α) : List α := l.foldl (fun o e => addTo e o) old

/-- What the slices' registers show from S7. -/
def sliceState (r : Repairs) : Tab Slice :=
  (List.range 17).map (fun n =>
    let count (l : List (Nat × Nat)) : Nat := (l.filter (fun e => e.1 == n)).length
    (n, { retired := r.slices.contains n, bonds := count r.bonds, rowsUsed := count r.rows, colsUsed := count r.cols }))

/-- S7 of a power-on or cold start: the bond test and repair, and Loft BIST (R24, R25, R424). [log 235 DEDUCED, 236 DESIGN CHOICE, 237 DEDUCED] -/
def s7 (x : Finds) (s : State) : State :=
  let old := s.dev.repairs
  let bad := x.slices.filter (fun e => !(faultyBays s).contains e.1)
  let bonds := newOnes x.bonds old.bonds
  let r := { old with
    bonds := addAll x.bonds old.bonds, rows := addAll x.rows old.rows, cols := addAll x.cols old.cols, slices := addAll (bad.map (·.1)) old.slices }
  let s := (s.onDev (fun d => { d with repairs := r }))
  let s : State := { s with slices := sliceState r }
  match bad with
  | e :: _ =>
    let cause := if e.2.2 then 3 else 2
    let detail := e.1 + 256 * e.2.1
    if 1 < (faultyBays s).length then failHalt x 7 cause detail s else stepDone x 7 3 cause detail s
  | [] =>
    match bonds with
    | e :: _ => stepDone x 7 3 1 (e.1 + 256 * e.2) s
    | [] =>
      match old.slices, old.bonds with
      | n :: _, _ =>
        let detail := if (priorEntry s 7).cause = 0 then n else (priorEntry s 7).detail
        if 1 < (faultyBays s).length then failHalt x 7 (if (priorEntry s 7).cause = 0 then 2 else (priorEntry s 7).cause) detail s else stepDone x 7 2 (priorEntry s 7).cause (if (priorEntry s 7).cause = 0 then n else (priorEntry s 7).detail) s
      | [], e :: _ => stepDone x 7 2 1 (e.1 + 256 * e.2) s
      | [], [] => stepDone x 7 (if old.rows.isEmpty && old.cols.isEmpty then 1 else 2) 0 0 s

/-- Logical numbers, the spare, and each bay's sequencers, from the repair records (R17, R27). A bay that does not serve has no clock, and
one that comes in has that of operating point 0. -/
def numberBays (s : State) : State :=
  let good := (List.range 17).filter (fun n => !(faultyBays s).contains n)
  let s : State := { s with pow := { s.pow with
    bays := (good.take 16).map (fun n => let c : BayClk := tget {} s.pow.bays n; (n, if c.mhz = 0 then startClk else c)) } }
  s.onDev (fun d => { d with
    phys := good.take 16, spare := good[16]?
    seqMap := good.map (fun n => (n, ((List.range 5).filter (fun i => !d.repairs.seqs.contains (n, i))).take 4)) })

/-- S8: bay BIST (R27, R529). [log 235 DEDUCED, 236 DESIGN CHOICE, 238 DEDUCED] -/
def s8 (x : Finds) (s : State) : State :=
  let old := s.dev.repairs
  let seqs := newOnes x.seqs old.seqs
  let pipes := newOnes x.pipes old.pipes
  let twice (l : List (Nat × Nat)) : List Nat := (List.range 17).filter (fun n => decide (1 < (l.filter (fun e => e.1 == n)).length))
  let fail := newOnes (x.bays ++ twice (addAll x.seqs old.seqs) ++ twice (addAll x.pipes old.pipes)) (faultyBays s)
  let r := { old with seqs := addAll x.seqs old.seqs, pipes := addAll x.pipes old.pipes, bays := addAll fail old.bays }
  let s := s.onDev (fun d => { d with repairs := r })
  if 1 < (faultyBays s).length then failHalt x 8 1 (fail.headD 0) s
  else
    let s := numberBays s
    match fail, seqs, pipes with
    | n :: _, _, _ => stepDone x 8 3 1 n s
    | [], e :: _, _ => stepDone x 8 3 2 (e.1 + 32 * e.2) s
    | [], [], e :: _ => stepDone x 8 3 3 (e.1 + 256 * e.2) s
    | [], [], [] =>
      match old.bays, old.seqs, old.pipes with
      | n :: _, _, _ => stepDone x 8 2 1 n s
      | [], e :: _, _ => stepDone x 8 2 2 (e.1 + 32 * e.2) s
      | [], [], e :: _ => stepDone x 8 2 3 (e.1 + 256 * e.2) s
      | [], [], [] => stepDone x 8 1 0 0 s

/-! ### S9 -/

/-- Hard repair of the listed rows of stack k; a row whose bank has no spare left retires its pseudo-channel (R434). [log 178 DESIGN CHOICE] -/
def repairRows (k : Nat) (s : State) : State :=
  (s.dev.repairs.ppr.filter (fun e => e.1 / 64 == k)).foldl (fun s e =>
    let bank := Config.cellarBank e.2 % 32
    let pc := tget ({} : Pc) (s.stack k).pcs (e.1 % 64)
    if tget 0 pc.used bank < 2 then
      s.onStack k (fun y => { y with applied := y.applied + 1, pcs := tput y.pcs (e.1 % 64) { pc with used := tput pc.used bank (tget 0 pc.used bank + 1) } })
    else s.onDev (fun d => { d with repairs := { d.repairs with pcs := addTo e.1 d.repairs.pcs } })) s

/-- The retired pseudo-channels of stack k on record, as a mask. -/
def retiredMask (r : Repairs) (k : Nat) : Nat := maskOf ((r.pcs.filter (fun p => p / 64 == k)).map (· % 64))

/-- Training of stack k (R428). -/
def trainStack (x : Finds) (k : Nat) (s : State) : State :=
  let first := if s.dev.retryFull.contains k then 0 else tget 0 s.dev.repairs.rates k
  let rate := min 2 (max first (x.rates.getD k 0))
  let lost := (x.channels.filter (fun c => c / 32 == k)).flatMap (fun c => [k * 64 + c % 32 * 2, k * 64 + c % 32 * 2 + 1])
  let s := s.onDev (fun d => { d with repairs := { d.repairs with pcs := addAll lost d.repairs.pcs } })
  let mask := retiredMask s.dev.repairs k
  let gone := mask == 2 ^ 64 - 1
  let s := s.onDev (fun d => { d with repairs := { d.repairs with rates := if gone then d.repairs.rates else tput d.repairs.rates k rate } })
  s.onStack k (fun y => { y with trained := !gone, rate := if gone then 3 else rate, retired := mask })

/-- S9 of a power-on or cold start (R428, R429, R434). [log 235 DEDUCED, 236 DESIGN CHOICE] -/
def s9 (x : Finds) (s : State) : State :=
  let old := s.dev.repairs
  let retry := s.dev.retryFull
  let s := (List.range 8).foldl (fun s k => trainStack x k (repairRows k s)) s
  let s := s.onDev (fun d => { d with repairs := { d.repairs with ppr := [] }, retryFull := [] })
  let detail (k c : Nat) : Nat := k + 8 * c + 256 * (s.stack k).rate + 65536 * (s.stack k).applied
  let newPcs := newOnes s.dev.repairs.pcs old.pcs
  let slow := (List.range 8).filter (fun k => (s.stack k).rate != 3 && decide ((if retry.contains k then 0 else tget 0 old.rates k) < (s.stack k).rate))
  let dead := (List.range 8).filter (fun k => (s.stack k).rate == 3)
  match newPcs, slow with
  | p :: _, _ =>
    if dead.contains (p / 64) then stepDone x 9 3 3 (detail (p / 64) 0) s else stepDone x 9 3 2 (detail (p / 64) (p % 64 / 2)) s
  | [], k :: _ => stepDone x 9 3 1 (detail k 0) s
  | [], [] =>
    match old.pcs, (List.range 8).filter (fun k => (s.stack k).rate != 0), (List.range 8).filter (fun k => (s.stack k).applied != 0) with
    | p :: _, _, _ => stepDone x 9 2 (if dead.contains (p / 64) then 3 else 2) (detail (p / 64) (if dead.contains (p / 64) then 0 else p % 64 / 2)) s
    | [], k :: _, _ => stepDone x 9 2 1 (detail k 0) s
    | [], [], k :: _ => stepDone x 9 2 4 (detail k 0) s
    | [], [], [] => stepDone x 9 1 0 0 s

/-! ### S10 to S12 -/

/-- S10: lanes are trained, and the message counter is drawn (R345, R353). [log 235 DEDUCED, 236 DESIGN CHOICE] -/
def s10 (x : Finds) (s : State) : State :=
  let old := s.dev.repairs.lanes
  let s := (List.range 16).foldl (fun s n => trainPort n x.lanes old s) s
  let ports := (List.range 16).filter (fun n => !portHeld s n)
  let mapped := (ports.filter (fun n => (s.port n).spareHere)).map (fun n => n * 4 + (s.port n).spareLane)
  let down := ports.flatMap (fun n => ((List.range 4).filter (fun l => nbit (s.port n).failed l)).map (fun l => n * 4 + l))
  let s := s.onDev (fun d => { d with repairs := { d.repairs with lanes := addAll mapped d.repairs.lanes } })
  let (q, s) := draw 32 s
  let s : State := { s with tp := { s.tp with seq := q } }
  let detail (l : Nat) : Nat := l / 4 + 16 * (l % 4)
  match down, newOnes mapped old, mapped with
  | l :: _, _, _ => stepDone x 10 3 2 (detail l) s
  | [], l :: _, _ => stepDone x 10 3 1 (detail l) s
  | [], [], l :: _ => stepDone x 10 2 1 (detail l) s
  | [], [], [] => stepDone x 10 1 0 0 s

/-- Every window draws its generation (R379). -/
def drawGens (s : State) : State := { s with genBase := s.draw, gens := [], draw := s.draw + 0x8_0000 }

/-- S11: the PCIe link. -/
def s11 (x : Finds) (s : State) : State :=
  let s := linkUp x.flit x.rate x.width s
  if x.flit then stepDone x 11 1 0 0 s else stepDone x 11 3 1 0 s

/-! ### S13 to S15 -/

/-- S15: the device is ready. [log 239 DEDUCED, 274 DESIGN CHOICE] -/
def s15 (x : Finds) (s : State) : State :=
  let s := stepDone x 15 1 0 0 (writeBaselines s)
  let odd := match s.dev.recs with | [] => false | r :: _ => r.entries.any (fun e => e.2.outcome == 2 || e.2.outcome == 3)
  let s := s.onDev (fun d => { d with ready := true, degraded := odd, atLock := none, dbgOpen := s.isl.debug })
  let s := onRec (fun r => { r with
    result := if s.isl.lockdown then 2 else 0, ready := s.epoch
    flags := b2n s.isl.debug + 2 * b2n odd + 4 * b2n (inHoldover s) }) s
  i3cEvent 3 (mirrorNow (deviceEvent 17 1 3 s))

/-- Run a step unless the start has halted. -/
def thenStep (f : State → State) (s : State) : State := if s.dev.halted then s else f s

/-- In a start of a device in LOCKDOWN the chest stays empty (R492). [log 239 DEDUCED] -/
def lockedStart (s : State) : State :=
  if s.isl.lockdown then ({ s with chest := [] } : State).onIsl (fun i => { i with shares := none, sessions := [] }) else s

/-- S12 ends, and S13 to S15 follow. [log 233 DESIGN CHOICE] -/
def afterLock (x : Finds) (outcome cause : Nat) (s : State) : State :=
  let s := stepDone x 12 outcome cause 0 (s.onDev (fun d => { d with atLock := none }))
  let s := passOr x 13 0 x.measureOk s
  let s := thenStep (fun s => if x.attestOk then stepDone x 14 1 0 0 (fillAttest s) else failHalt x 14 0 0 s) s
  thenStep (fun s => s15 x (lockedStart s)) s

/-- A start that waits at S12 goes on once epoch time is LOCKED (R522). [log 233 DESIGN CHOICE, 234 DEDUCED] -/
def lockSettle (s : State) : State :=
  match s.dev.atLock, s.tim.state with
  | some x, .locked => afterLock x 1 0 s
  | some _, .free => s | some _, .acquiring => s | some _, .holdover => s
  | none, _ => s

/-- PPS_EDGE (R519): PPS_IN rises or falls. -/
def execPpsEdge (rising : Bool) (s : State) : Out := .next (lockSettle (ppsEdge rising s))

/-- PTP_MESSAGE (R518): a frame on the PTP channel carries a PTP message. -/
def execPtpMessage (chan : Nat) (fcs : Bool) (f : Bytes) (s : State) : Out := .next (lockSettle (ptpReceive chan fcs f s))

/-- EPOCH_SET_WRITE (R521). -/
def execEpochSetWrite (v : Word) (s : State) : Out := .next (lockSettle (epochSet v s))

/-- LOCK_WAIT_TIMEOUT (R522): LOCK_WAIT_S runs out at S12. [log 234 DEDUCED] -/
def execLockWaitTimeout (s : State) : Out :=
  .next (match s.dev.atLock with
    | none => s
    | some x =>
      let s := advanceClk (s.dev.started + x.times.getD 11 0 + bits s.timeCfg 63 48 * 1_000_000_000) s
      match s.tim.state with
      | .locked => afterLock x 1 0 s
      | .holdover => afterLock x 3 1 s
      | .free | .acquiring =>
        match coarseNow s with
        | some t => afterLock x 3 1 (enterTime .holdover ((setEpoch (t : Int) s).onTim (fun y => { y with fromFree := false })))
        | none => afterLock x 3 2 s)

/-! ### Power-on and cold starts (R536) -/

/-- What a power-on or cold reset leaves before S0: fuses, OTP, board flash, the always-on domain, the pins, and what has already gone
out of the device. -/
def coldState (s : State) : State :=
  let i := s.isl
  { pending := s.pending, clk := s.clk, draw := s.draw, startCount := s.startCount
    dev := { pwrgd := s.dev.pwrgd, perst := s.dev.perst, vaon := s.dev.vaon, xtalLost := s.dev.xtalLost, recs := s.dev.recs, repairs := s.dev.repairs
             mirror := s.dev.mirror, mirrorBad := s.dev.mirrorBad, newRecord := s.dev.newRecord, retryFull := s.dev.retryFull, thermTrip := s.dev.thermTrip
             wptNum := s.dev.wptNum }
    host := { sent := s.host.sent, doe := s.host.doe, reads := s.host.reads }
    tim := { coarse := s.tim.coarse }
    tp := { wire := s.tp.wire }
    isl := { lcsFuse := i.lcsFuse, svnFuse := i.svnFuse, revoked := i.revoked, rootOtp := i.rootOtp, rootGone := i.rootGone, debugReq := i.debugReq
             lockdown := i.lockdown, alarm := i.alarm, sensor := i.sensor, when_ := i.when_, alarmStep := i.alarmStep, flash := i.flash
             primary := i.primary, lastPass := i.lastPass, cert := i.cert, baseOtp := i.baseOtp }
    stackTab := s.stackTab.map (fun e => (e.1, { pcs := e.2.pcs.map (fun p => (p.1, { used := p.2.used })) }))
    health := { hist := s.health.hist, mirrored := s.health.mirrored, day := s.health.day }
    i3c := s.i3c }

/-- After a loss of always-on power: the journal, the repair records and START_COUNT come from the mirror (R535). [log 233 DESIGN CHOICE, 275 DESIGN CHOICE] -/
def restoreMirror (x : Finds) (s : State) : State :=
  match (if x.mirrorOk then s.dev.mirror else none) with
  | some m => { s.onDev (fun d => { d with recs := m.recs, repairs := m.repairs, mirrorBad := false }) with startCount := (m.count + 1) % 2 ^ 32 }
  | none =>
    let (c, s) := draw 16 s
    { s.onDev (fun d => { d with recs := [], repairs := {}, mirrorBad := true }) with startCount := c }

/-- A new record; the ring holds the last 8 starts. -/
def newRec (kind : StartKind) (s : State) : State :=
  s.onDev (fun d => { d with
    kind := kind, started := s.clk, step := 0, ready := false, halted := false, degraded := false, dbgOpen := false, held := none, atLock := none
    recs := ({ count := s.startCount, kind := kind } :: d.recs).take 8 })

/-- S0 to S11 of a power-on or cold start, then the wait of S12. [log 233 DESIGN CHOICE] -/
def runStart (kind : StartKind) (fromMirror : Bool) (x : Finds) (s : State) : State :=
  let s := coldState s
  let s := if fromMirror then restoreMirror x s else { s with startCount := (s.startCount + 1) % 2 ^ 32 }
  let s := s0 x (newRec kind s)
  let s := thenStep (passOr x 1 0 x.romOk) s
  let s := thenStep (s2 x) s
  let s := thenStep (s3 x) s
  let s := thenStep (s4 x) s
  let s := thenStep (fun s => passOr x 5 0 x.islandOk (healthStart true x.healthOk s)) s
  let s := thenStep (s6 x) s
  let s := thenStep (s7 x) s
  let s := thenStep (s8 x) s
  let s := thenStep (fun s => (List.range 16).foldl (fun s b => s.onBay b (fun y => { y with sampler := { inst := true } })) s) s
  let s := thenStep (s9 x) s
  let s := thenStep (fun s => sampleSpares (healthStart false true s)) s
  let s := thenStep (fun s => s10 x (drawGens s)) s
  let s := thenStep (s11 x) s
  thenStep (fun s => lockSettle (s.onDev (fun d => { d with step := 12, atLock := some x }))) s

/-- A start begins, or is held until PWRGD_IN and PERST_L are both high (R571). -/
def coldStart (kind : StartKind) (fromMirror : Bool) (x : Finds) (s : State) : State :=
  if s.dev.pwrgd && s.dev.perst then runStart kind fromMirror x s
  else (coldState s).onDev (fun d => { d with held := some kind })

/-- POWER_ON (R536, R571, R572): PWRGD_IN rises with PERST_L high. The start is a power-on start after a loss of always-on power or an
alarm in sleep, and a cold start after sleep. [log 232 DESIGN CHOICE, 241 DEDUCED, 274 DESIGN CHOICE] -/
def execPowerOn (x : Finds) (s : State) : Out :=
  .next (
    if s.dev.pwrgd then s
    else
      let lost := !s.dev.vaon
      let s := s.onDev (fun d => { d with pwrgd := true, perst := true, vaon := true, thermTrip := false })
      if lost then
        let s : State := { s with startCount := 0, tim := {} }
        let s := s.onDev (fun d => { d with recs := [], repairs := {}, xtalLost := false, newRecord := false })
        let s := s.onIsl (fun i => { i with debugReq := false, lockdown := false, alarm := false, sensor := 0, when_ := 0, alarmStep := 0 })
        coldStart .powerOn true x s
      else if s.isl.when_ == 3 && s.isl.alarm then
        coldStart .powerOn false x (s.onIsl (fun i => { i with lockdown := false }))
      else coldStart .cold false x s)

/-- PERST_L_ASSERT (R579): PERST_L is held low for at least 100 µs; the start waits for its release. [log 274 DESIGN CHOICE] -/
def execPerstLAssert (s : State) : Out :=
  .next (if s.dev.pwrgd then (coldState s).onDev (fun d => { d with perst := false, held := some .cold }) else s)

/-- PERST_L_RELEASE (R571): the held start begins. [log 232 DESIGN CHOICE] -/
def execPerstLRelease (x : Finds) (s : State) : Out :=
  .next (
    let kind := s.dev.held
    let s := s.onDev (fun d => { d with perst := true })
    match kind with
    | none => s
    | some k => coldStart k false x s)

/-- The device answers accesses: it is powered and no start is held. -/
def powered (s : State) : Bool := s.dev.pwrgd && s.dev.perst && s.dev.held.isNone

/-- GLOBAL_RESET_COLD (R536). [log 232 DESIGN CHOICE] -/
def execGlobalResetCold (x : Finds) (s : State) : Out := .next (if powered s then coldStart .cold false x s else s)

/-! ### Warm starts (R397, R536, R537, R544) -/

/-- The registers of a shelf block that a warm reset preserves, by offset. -/
def warmRegs : List Nat :=
  [0x40, 0x200, 0x208, 0x310, 0x318, 0x320, 0x338, 0x348, 0x900, 0x908, 0xB08, 0xB30, 0xC10, 0xC18, 0xE80, 0xE88, 0xF10, 0x1938, 0x1B00, 0x1B18]

/-- The device registers that a warm reset preserves: ports, the transport with the destination table, the power, clock and time block,
and CEL_APER. -/
def warmReg (off : Nat) : Bool :=
  (decide (0x40_0000 ≤ off) && decide (off < 0x80_0000)) || off == 0x88_0000 || (decide (0xC0_0000 ≤ off) && decide (off < 0xE0_0000))

/-- A shelf's intake after a warm reset: rings exist and are empty, and the log stands. -/
def warmIntake (n : Intake) : Intake :=
  { rings := n.rings.map (fun e => (e.1, { middleBase := e.2.middleBase, middleSize := e.2.middleSize, bay := e.2.bay, seqMask := e.2.seqMask
                                           highWater := e.2.highWater, reserve := e.2.reserve }))
    log := n.log
    nextSeq := n.nextSeq, logHead := n.logHead, coveredSeq := n.coveredSeq }

/-- The unexpected messages after a warm reset: those that still arrived are released, and their space is reclaimed in ring order (R386,
R397). -/
def warmUnex (l : List Unex) : List Unex :=
  (l.map (fun u => if u.delivered then { u with aged := false } else { u with gone := true })).dropWhile (·.gone)

/-- A shelf after a warm reset. Of the release state of a round that waits there stays what closes and later zeroises its areas (R288,
R290). [log 240 DEDUCED] -/
def warmShelf (h : Shelf) : Shelf :=
  let r := h.remote
  { desc := h.desc, state := h.state, cfg := h.cfg.filter (fun e => warmRegs.contains e.1), round := h.round, prog := { addr := h.prog.addr }
    intake := warmIntake h.intake
    wpt := { h.wpt with header := none, save := none, due := false, buddy := [], seqs := [] }
    verif := { txSeq := h.verif.txSeq, rxSeen := h.verif.rxSeen }
    remote := { unex := warmUnex r.unex, unexId := r.unexId, unexHead := r.unexHead, postOrder := r.postOrder }
    rel := if h.round.active then { relDesc := h.rel.relDesc, writing := h.rel.writing, copy := h.rel.copy, opt := h.rel.opt } else {}
    model := h.model, modelDigest := h.modelDigest, attest := h.attest
    rcv := { state := if h.round.active then .wait else .none, cause := if h.round.active then 2 else 0, orphans := h.rcv.orphans, cmd := 0 }
    ctx := { held := h.ctx.held }
    counts := { quietMhz := h.counts.quietMhz, quietAt := h.counts.quietAt, quietDrops := h.counts.quietDrops } }

/-- The windows after a warm reset: nothing is in flight, and a DRAINING window becomes FREE, with a REVOKED event that waits until the
event ring is configured again (R397). [log 161 DEDUCED] -/
def warmWindows (s : State) : State :=
  s.windows.foldl (fun s e =>
    match e.2.state with
    | .draining =>
      ({ s with windows := tdel s.windows e.1 } : State).onRemote (e.1 / 65536) (fun r =>
        { r with evtQueue := r.evtQueue ++ [evtEntry 3 .ok 0 0 (e.1 % 65536) 0 0 (s.gen e.1) s.epoch] })
    | .free => s.onWin e.1 (fun w => { w with inflight := 0 })
    | .open_ => s.onWin e.1 (fun w => { w with inflight := 0 })) s

/-- The crate-log entries of the shelf whose messages were still arriving take STATE 0x4 with TIME 0 (R107). [log 240 DEDUCED] -/
def loseArriving (k : Nat) (s : State) : State :=
  ((s.shelf k).intake.log.filter (fun e => e.state.code == 0)).foldl (fun s e => setLogState k e.logSeq .refused (onLog k e.logSeq (fun x => { x with time := 0 }) s)) s

/-- What a warm reset leaves (R536, R537). [log 240 DEDUCED] -/
def warmState (s : State) : State :=
  let s : State := { s with
    mem := s.mem.filter (fun c => decide (c.1 < loftBase)), marks := s.marks.filter (fun e => decide (e.1 * 64 < loftBase))
    cfg := s.cfg.filter (fun e => warmReg e.1)
    bays := [], seqs := [], qerrs := [], queues := []
    shelves := s.shelves.map (fun e => (e.1, warmShelf e.2))
    bins := s.bins.map (fun e => (e.1, { e.2 with state := (match e.2.state with | .bound => .posted | .free => .free | .posted => .posted), used := [] }))
    tp := { s.tp with tx := [], rx := [], rates := [], pathTab := [], finish := [], served := 0, stamps := [] }
    slices := s.slices.map (fun e => (e.1, { e.2 with corr := 0, uncorr := 0, poison := 0 }))
    stackTab := s.stackTab.map (fun e => (e.1, { e.2 with
      retiredAcc := 0, corr := 0, uncorr := 0, poison := 0, listFull := false, applied := 0, passes := 0, pcs := e.2.pcs.map (fun p => (p.1, { used := p.2.used })) }))
    health := { hist := s.health.hist, mirrored := s.health.mirrored, day := s.health.day, today := s.health.today } }
  let s := (warmWindows s).onHost (fun h => { h with fns := h.fns.map (fun e => (e.1, { e.2 with mbx := {} })) })
  let s := (s.shelves.map (·.1)).foldl (fun s k => loseArriving k s) s
  s.onDev (fun d => { d with events := 0, jrnlSel := 0 })

/-- A warm start: S7 (zeroisation only), S8 (quick BIST), S9 (recalibration), S10, S13 and S15 (R536). -/
def warmStart (x : Finds) (s : State) : State :=
  let s := newRec .warm (warmState { s with startCount := (s.startCount + 1) % 2 ^ 32 })
  let skip (n : Nat) (s : State) : State := onRec (fun r => { r with entries := tput r.entries n { outcome := 6, ticks := startTicks s } }) s
  let s := [0, 1, 2, 3, 4, 5, 6].foldl (fun s n => skip n s) s
  let s := stepDone x 7 1 0 0 s
  let s := thenStep (s8 x) s
  let s := thenStep (fun s => (List.range 16).foldl (fun s b => s.onBay b (fun y => { y with sampler := { inst := true } })) s) s
  let s := thenStep (fun s => sampleSpares (stepDone x 9 1 0 0 s)) s
  let s := thenStep (s10 x) s
  let s := thenStep (fun s => passOr x 13 0 x.measureOk (skip 12 (skip 11 s))) s
  let s := thenStep (fun s => s15 x (skip 14 s)) s
  thenStep (fun s => (List.range 8).foldl (fun s k => if (s.shelf k).desc.isSome then reloadSlots k s else s) s) s

/-- A warm reset of a device that runs; in a power-on or cold start it has nothing to keep, and that start goes on. [log 239 DEDUCED] -/
def warmReset (x : Finds) (s : State) : State := if powered s && s.dev.ready then warmStart x s else s

/-- GLOBAL_RESET_WARM (R536). [log 232 DESIGN CHOICE] -/
def execGlobalResetWarm (x : Finds) (s : State) : Out := .next (warmReset x s)

/-- ISLAND_WATCHDOG_RESET (R536): the watchdog on the pace controller, or a mesh protocol error. -/
def execIslandWatchdogReset (x : Finds) (s : State) : Out := .next (warmReset x s)

/-- REFCLK_LOSS (R574). [log 274 DESIGN CHOICE] -/
def execRefclkLoss (c : RefClk) (x : Finds) (s : State) : Out :=
  .next (match c with
    | .sys => warmReset x s
    | .sd g => groupDown g.toNat s
    | .pcie => linkDown s
    | .xtal => (s.onTim (fun t => { t with coarse := none })).onDev (fun d => { d with xtalLost := true }))

/-! ### Power loss (R507, R572, R578) -/

/-- The clocks outside the always-on domain stop: nothing of the rest of the device is kept. [log 241 DEDUCED, 273 DEDUCED] -/
def powerDown (s : State) : State :=
  let i := s.isl
  let s' := (coldState s).onIsl (fun y => { y with shares := i.shares })
  { s' with chest := s.chest.filter (fun e => decide (4 ≤ e.1) && decide (e.1 ≤ 12)), i3c := {} }

/-- PWRGD_IN_FALL (R572); `sleep` says that VAON stays up. [log 241 DEDUCED, 274 DESIGN CHOICE] -/
def execPwrgdInFall (sleep : Bool) (s : State) : Out :=
  .next (
    let s := (powerDown s).onDev (fun d => { d with pwrgd := false, vaon := sleep })
    if sleep then s else ({ s with chest := [] } : State).onIsl (fun i => { i with shares := none }))

/-- THERMAL_TRIP (R507, R578): every clock stops, THERMTRIP_L is asserted, and the journal records the trip. [log 241 DEDUCED] -/
def execThermalTrip (s : State) : Out :=
  .next (
    if s.dev.pwrgd then
      let s := onRec (fun r => { r with entries := tupd {} r.entries 15 (fun e => { e with outcome := 4 }) }) s
      (powerDown (mirrorNow s)).onDev (fun d => { d with thermTrip := true, held := none })
    else s)

/-- JOURNAL_MIRROR (R535, R566): the mirror write of a new repair record is read back. [log 232 DESIGN CHOICE] -/
def execJournalMirror (ok : Bool) (s : State) : Out :=
  .next (if s.dev.newRecord then (if ok then mirrorNow s else deviceEvent 18 1 3 s) else s)

/-! ### Tamper (R490-R492) -/

/-- ROOT_REMASK (R469): both shares are XORed with a fresh value. [log 200 DEDUCED] -/
def execRootRemask (s : State) : Out :=
  .next (match s.isl.shares with
    | none => s
    | some (a, b) =>
      let (m, s) := drawBytes 32 s
      s.onIsl (fun i => { i with shares := some (xorBytes a m, xorBytes b m) }))

/-- A model load in progress ends with a status. -/
def abortLoad (k : Nat) (st : Status) (s : State) : State :=
  match (s.shelf k).load with
  | none => s
  | some l => reply l.fn 0x0210 l.tag st [] (s.onShelf k (fun h => { h with load := none }))

/-- LOCKDOWN (R492). [log 214 DEDUCED] -/
def lockdown (s : State) : State :=
  let s := (List.range 8).foldl (fun s k => abortLoad k .tamperAbort s) s
  let s : State := { s with chest := [] }
  let s := s.onIsl (fun i => { i with lockdown := true, sessions := [] })
  let s := (List.range 8).foldl (fun s k =>
    let s := tdiError k 5 (stopShelf k .tamperAbort s)
    s.onShelf k (fun h => { h with rel := { h.rel with key := [] } })) s
  let s := s.onHost (fun h => { h with ide := h.ide.map (fun e => (e.1, { e.2 with keys := [], going := [] })), session := false })
  let s := s.setDreg (tpBase + 8) (s.tpNode &&& ~~~0x1_0000)
  i3cEvent 2 s

/-- The key operation in progress completes TAMPER_ABORT (R491). [log 214 DEDUCED] -/
def abortKeyOp (op : KeyOp) (s : State) : State :=
  match op with
  | .none => s
  | .mailbox f => if (s.fn f.toNat).mbx.busy then reply f.toNat (reqOp (s.fn f.toNat).mbx) (reqTag (s.fn f.toNat).mbx) .tamperAbort [] s else s
  | .command q n => accept (dKind (headDesc s q n)) (fun _ _ s => done .tamperAbort s) q n s
  | .load k => abortLoad k .tamperAbort s

/-- The alarm's record: when it came, which sensor and step (R495). -/
def noteAlarm (n when_ : Nat) (s : State) : State :=
  s.onIsl (fun i =>
    if i.alarm then { i with sensor := i.sensor ||| 2 ^ n }
    else { i with alarm := true, sensor := 2 ^ n, when_ := when_, alarmStep := if when_ = 0 then s.dev.step else 0 })

/-- TAMPER_ALARM (R490, R491): sensor n (0 voltage, 1 clock, 2 temperature, 3 shield mesh, 4 lid) alarms, in the key operation named. [log 214 DEDUCED, 274 DESIGN CHOICE] -/
def execTamperAlarm (n : BitVec 3) (op : KeyOp) (s : State) : Out :=
  .next (
    if 5 ≤ n.toNat then s
    else if !s.dev.pwrgd then
      if s.dev.vaon then
        let s := noteAlarm n.toNat 3 s
        let s := onRec (fun r => { r with entries := tupd {} r.entries 15 (fun e => { e with outcome := 5, cause := 0xFF, detail := s.isl.sensor }) }) s
        ({ s with chest := [] } : State).onIsl (fun i => { i with shares := none, sessions := [] })
      else s
    else if s.dev.ready then
      match op with
      | .none => lockdown (noteAlarm n.toNat 1 s)
      | .mailbox _ | .command _ _ | .load _ =>
        lockdown ((abortKeyOp op (noteAlarm n.toNat 2 s)).onIsl (fun i => { i with shares := none }))
    else if s.dev.held.isSome then lockdown (noteAlarm n.toNat 0 s)
    else
      let s := noteAlarm n.toNat 0 s
      let e : JEntry := { outcome := 5, cause := 0xFF, detail := s.isl.sensor, ticks := startTicks s }
      let s := onRec (fun r => { r with result := 2, entries := tput r.entries s.dev.step e }) (s.onDev (fun d => { d with atLock := none }))
      mirrorNow (lockdown (journalEvent s)))

/-- The start journal records S11 as failed, with cause 1: the link partner did not negotiate FLIT mode (R400). A start that has not come
to S11 writes the entry itself. [log 176 DEDUCED] -/
def noFlit (s : State) : State :=
  match s.dev.recs with
  | [] => s
  | r :: _ =>
    if tmem r.entries 11 then
      mirrorNow (journalEvent (onRec (fun r => { r with entries := tupd {} r.entries 11 (fun e => { e with outcome := 3, cause := 1, detail := 0 }) }) s))
    else s

/-- PCIE_LINK_UP (R400). [log 176 DEDUCED] -/
def execPcieLinkUp (flit : Bool) (rate : BitVec 4) (width : BitVec 5) (s : State) : Out :=
  .next (if flit then linkUp true rate.toNat width.toNat s else noFlit (linkUp false rate.toNat width.toNat s))

end Sys2Proof.Machine
end

