-- ==== Sys2Proof/Machine/RegsDevice.lean ====
section
/-!
DEFINITION. The registers of the Global block (R564-R566, R5, R419, R495, R550), of the device blocks (R373, R374, R376, R399, R438, R439,
R527, R558) with their shelf views (R527, R559), and of the mailbox blocks (R409, R419), by BAR0 offset.
-/
namespace Sys2Proof.Machine

/-! ### Global block -/

/-- GLOBAL_PROFILE (R5). -/
def globalProfile (s : State) : Word :=
  if s.dev.latched then
    packW [(2, s.profile), (1, b2n Config.fuseCardOnly), (1, b2n s.dev.mismatch), (4, 0), (8, if s.dev.card then 8 else 16), (16, s.capTop), (16, s.fmax)]
  else packW [(2, 0), (1, b2n Config.fuseCardOnly)]

/-- GLOBAL_PART (R565). -/
def globalPart : Word := packW [(16, 0x0A20), (8, Config.fuseStepping), (8, 0), (16, 0x0240)]

/-- GLOBAL_LCS (R495). -/
def globalLcs (s : State) : Word :=
  packW [(3, s.lcs), (1, b2n s.isl.debug), (1, b2n (s.lcsFuse != s.lcs)), (1, b2n s.isl.lockdown), (1, b2n s.otpRoot.isSome), (1, 0),
    (8, fwSvn s.isl.fwImage), (8, s.fuseSvn), (1, s.isl.fwSlot), (2, fwKeyIndex s.isl.fwImage), (5, 0),
    (4, ([0, 1, 2, 3].map (fun i => if s.keyRevoked i then 2 ^ i else 0)).sum)]

def StartKind.code : StartKind → Nat | .powerOn => 1 | .cold => 2 | .warm => 3

/-- START_STATUS (R550). -/
def startStatus (s : State) : Word :=
  packW [(4, s.dev.step), (1, b2n s.dev.ready), (1, b2n s.dev.halted), (1, b2n s.dev.degraded), (1, 0), (8, s.dev.kind.code), (32, s.startCount)]

/-- SEC_TAMPER (R495). -/
def secTamper (s : State) : Word := packW [(1, b2n s.isl.alarm), (5, s.isl.sensor), (2, s.isl.when_), (4, s.isl.alarmStep)]

/-- The repair records held (R550). [log 269 DEDUCED] -/
def recordsHeld (r : Repairs) : Nat :=
  r.bonds.length + r.rows.length + r.cols.length + r.slices.length + r.bays.length + r.seqs.length + r.pipes.length + r.rates.length + r.pcs.length +
  r.ppr.length + r.lanes.length

/-- The 288 bytes of a start record (R532). -/
def recBytes288 (r : JRec) : Bytes :=
  toLe 4 r.count ++ toLe 1 r.kind.code ++ toLe 1 r.last ++ toLe 1 r.result ++ toLe 1 r.flags ++ toLe 8 r.ready ++ zeros 16 ++ jrecEntries r

/-- HOST_LINK (R419). -/
def hostLink (s : State) : RegView :=
  { base := packW [(4, s.host.rate), (5, s.host.width), (1, b2n s.host.flit), (1, b2n s.host.noflit), (1, b2n (s.ide 8).secure), (4, 0),
      (8, ((List.range 8).map (fun n => if (s.ide n).secure then 2 ^ n else 0)).sum)]
    rc := [{ lo := 24, w := 16, val := s.host.uncor, sub := fun n s => s.onHost (fun h => { h with uncor := h.uncor - n }) }] }

/-- HOST_TDI(k) (R419). -/
def hostTdi (s : State) (k : Nat) : Word :=
  let x := s.tdi k
  let bound := match x.state with | .unlocked => false | .locked => true | .run => true | .error => true
  packW [(2, x.state.code), (1, b2n (bound && (s.ide x.stream).secure)), (5, 0), (8, x.stream), (8, x.cause)]

/-- The registers of the Global block. GLOBAL_RESET is written by commands of its own. [log 269 DEDUCED] -/
def globalReg (s : State) (off : Nat) : Option RegView :=
  match off with
  | 0x0000 => some (roReg Config.deviceId)
  | 0x0008 => some (roReg globalPart)
  | 0x0010 => some (roReg (BitVec.ofNat 64 (fwBuild s.isl.fwImage)))
  | 0x0040 => some (roReg (globalProfile s))
  | 0x0048 => some (roReg (globalLcs s))
  | 0x0100 => some (roReg 0)
  | 0x0108 => some (roReg (startStatus s))
  | 0x0110 => some { base := packW [(3, s.dev.jrnlSel)], rw := 7, write := fun v s => s.onDev (fun d => { d with jrnlSel := bits v 2 0 }) }
  | 0x0118 => some { base := packW [(8, 0), (8, min (recordsHeld s.dev.repairs) 255), (1, b2n s.dev.mirrorBad)]
                     write := fun v s => if bit v 0 then s.onDev (fun d => { d with repairs := { d.repairs with bays := [], seqs := [] } }) else s }
  | 0x0200 => some { base := packW [(20, s.dev.events)]
                     write := fun v s => s.onDev (fun d => { d with events := d.events &&& (2 ^ 64 - 1 - v.toNat) }) }
  | 0x0208 => some (devRw s 0x208 7 7)
  | 0x0800 => some (hostLink s)
  | 0x0900 => some (roReg (secTamper s))
  | 0x0908 => some (roFields [(7, s.svnLeft), (1, 0), (3, Config.lcsLeft s.lcs)])
  | _ =>
    if 0x0880 ≤ off ∧ off < 0x08C0 then some (roReg (hostTdi s ((off - 0x0880) / 8)))
    else if 0x1000 ≤ off ∧ off < 0x1120 then
      some (roReg (match s.dev.recs[s.dev.jrnlSel]? with | none => 0 | some r => BitVec.ofNat 64 (field (recBytes288 r) (off - 0x1000) 8)))
    else none

/-! ### Fabric ports and transport -/

/-- An RC counter of port n. -/
def portRc (n lo w val : Nat) (f : Nat → Port → Port) : RcField := { lo := lo, w := w, val := val, sub := fun v => onPort n (f v) }

/-- The registers of port n (R373). [log 143 DESIGN CHOICE] -/
def portReg (s : State) (n off : Nat) : Option RegView :=
  let p := s.port n
  match off with
  | 0x000 => some (rwReg (s.portCfg n) 0xF_FF77 (portCfgWrite n))
  | 0x008 => some { base := packW [(4, p.up), (4, p.training), (4, p.laneOk), (1, b2n p.spareHere), (2, p.spareLane), (1, b2n p.degraded)]
                    rc := [portRc n 16 16 p.retrains (fun v p => { p with retrains := p.retrains - v })] }
  | 0x010 => some { base := 0, rc := [portRc n 0 32 p.fecCorr (fun v p => { p with fecCorr := p.fecCorr - v }), portRc n 32 16 p.fecUncorr (fun v p => { p with fecUncorr := p.fecUncorr - v })] }
  | 0x018 => some { base := 0, rc := [
      portRc n 0 16 p.fcs (fun v p => { p with fcs := p.fcs - v }), portRc n 16 16 p.other (fun v p => { p with other := p.other - v }),
      portRc n 32 16 p.pause (fun v p => { p with pause := p.pause - v }), portRc n 48 16 p.vlan (fun v p => { p with vlan := p.vlan - v })] }
  | _ =>
    if 0x100 ≤ off ∧ off < 0x140 then
      let c := n * 4 + (off - 0x100) / 0x10
      if off % 0x10 = 0 then some (devRw s (portBase n + off) 0xFFFF_FFFF_FFFF ((Config.fuseMac c).zeroExtend 64)) else some (devRw s (portBase n + off) 0xFFFF_FFFF_FFFF)
    else none

/-- An RC counter of the transport. -/
def tpRc (lo w val : Nat) (f : Nat → Transport → Transport) : RcField := { lo := lo, w := w, val := val, sub := fun v s => s.onTp (f v) }

/-- A write of TP_NODE (R374): NODE stays while EN is 1, and EN is not set while NODE is 0. [log 263 DEDUCED] -/
def tpNodeWrite (v : Word) (s : State) : State :=
  let node := if s.tpEn then s.node else bits v 15 0
  s.setDreg (tpBase + 8) (packW [(16, node), (1, b2n (bit v 16 && node != 0))])

/-- The transport registers (R374, R376, R399). -/
def transportReg (s : State) (off : Nat) : Option RegView :=
  let t := s.tp
  let off_ := !s.tpEn
  match off with
  | 0x0000 => some (devRw s tpBase 0x00FF_FFFF_FFFF_3FFD tpCfgReset (fun v => off_ && bits v 44 32 == 0))
  | 0x0008 => some (rwReg s.tpNode 0x1_FFFF tpNodeWrite)
  | 0x0010 => some (rwReg s.tpTimer 0xF_FFFF_FFFF_FFFF tpTimerWrite)
  | 0x0018 => some (rwReg s.tpRate 0xFFF_FFFF_FFFF tpRateWrite)
  | 0x0020 => some { base := packW [(15, t.tx.length + t.rx.length), (1, 0), (13, (flowsAt s 0).length + (flowsAt s 1).length), (3, 0), (13, t.rates.length), (3, 0),
                       (1, b2n t.cfgErr), (1, b2n (anyFlightFull s))]
                     write := fun v s => if bit v 48 then s.onTp (fun t => { t with cfgErr := false }) else s }
  | 0x0028 => some { base := 0, rc := [tpRc 0 32 t.retx (fun v t => { t with retx := t.retx - v }), tpRc 32 32 t.timeouts (fun v t => { t with timeouts := t.timeouts - v })] }
  | 0x0030 => some { base := 0, rc := [
      tpRc 0 16 t.exhausted (fun v t => { t with exhausted := t.exhausted - v }), tpRc 16 16 t.refusedRx (fun v t => { t with refusedRx := t.refusedRx - v }),
      tpRc 32 16 t.abandoned (fun v t => { t with abandoned := t.abandoned - v }), tpRc 48 16 t.silent (fun v t => { t with silent := t.silent - v })] }
  | 0x0038 => some { base := 0, rc := [
      tpRc 0 16 t.badHdr (fun v t => { t with badHdr := t.badHdr - v }), tpRc 16 16 t.checksum (fun v t => { t with checksum := t.checksum - v }),
      tpRc 32 16 t.outOfWindow (fun v t => { t with outOfWindow := t.outOfWindow - v }), tpRc 48 16 t.duplicate (fun v t => { t with duplicate := t.duplicate - v })] }
  | 0x0040 => some { base := packW [(9, s.tpSeal.toNat), (7, 0), (16, s.session)], rw := 0x1FF
                     write := fun v s => if s.tpEn then s else s.setDreg (tpBase + 0x40) (v &&& 0x1FF) }
  | _ =>
    if 0x1000 ≤ off ∧ off < 0x1400 then some (devRw s (tpBase + off) (BitVec.allOnes 64) 0 (fun _ => off_))
    else if 0x2_0000 ≤ off ∧ off < 0x4_0000 then
      match off % 0x20 with
      | 0x00 => some (devRw s (tpBase + off) (BitVec.allOnes 64))
      | 0x08 => some (devRw s (tpBase + off) (BitVec.allOnes 64))
      | 0x10 => some { base := s.dreg (tpBase + off), rw := 0xFFFF_FF3F_3F7F, write := destCfgWrite ((off - 0x2_0000) / 0x20) }
      | _ => none
    else none

/-! ### Cellar and Loft -/

/-- An RC counter of stack k. -/
def stackRc (k lo w val : Nat) (f : Nat → Stack → Stack) : RcField := { lo := lo, w := w, val := val, sub := fun v s => s.onStack k (f v) }

/-- The number of bits set in a mask of 64. -/
def ones (m : Nat) : Nat := ((List.range 64).filter (fun p => nbit m p)).length

/-- The registers of stack k (R438). [log 184 DEDUCED, 268 DEDUCED] -/
def cellarReg (s : State) (k off : Nat) : Option RegView :=
  let x := s.stack k
  match off with
  | 0x000 => some { base := packW [(1, b2n x.trained), (2, x.rate), (1, 0), (1, b2n x.hot), (11, 0), (7, ones x.retired)]
                    rc := [stackRc k 48 16 x.retiredAcc (fun v x => { x with retiredAcc := x.retiredAcc - v })] }
  | 0x008 => some { base := 0, rc := [
      stackRc k 0 32 x.corr (fun v x => { x with corr := x.corr - v }), stackRc k 32 16 x.uncorr (fun v x => { x with uncorr := x.uncorr - v }),
      stackRc k 48 16 x.poison (fun v x => { x with poison := x.poison - v })] }
  | 0x010 => some { base := packW [(9, pprListed s k), (1, b2n x.listFull), (6, 0), (16, x.applied), (7, minSpares s k)]
                    write := fun v s => if bit v 9 then s.onStack k (fun x => { x with listFull := false }) else s }
  | 0x018 => some { base := (s.dreg (celBase k + 0x18) celScrubReset &&& 0xFF01) ||| BitVec.ofNat 64 (x.passes % 2 ^ 32 * 2 ^ 32), rw := 0xFF01
                    write := fun v s => if bits v 15 8 = 0 then s else s.setDreg (celBase k + 0x18) (v &&& 0xFF01) }
  | 0x020 => some { base := 0, write := celCtlWrite k }
  | 0x028 => some (roReg (BitVec.ofNat 64 x.retired))
  | 0x030 => some (roReg (BitVec.ofNat 64 x.fenced))
  | _ =>
    if 0x100 ≤ off ∧ off < 0x300 then
      let p := (off - 0x100) / 8
      let c := tget ({} : Pc) x.pcs p
      some { base := packW [(40, 0), (7, pcSpares s k p)]
             rc := [stackRc k 0 24 c.corr (fun v x => { x with pcs := tupd {} x.pcs p (fun c => { c with corr := c.corr - v }) }),
                    stackRc k 24 16 c.uncorr (fun v x => { x with pcs := tupd {} x.pcs p (fun c => { c with uncorr := c.uncorr - v }) })] }
    else none

/-- An RC counter of slice n. -/
def sliceRc (n lo w val : Nat) (f : Nat → Slice → Slice) : RcField := { lo := lo, w := w, val := val, sub := fun v s => s.onSlice n (f v) }

/-- The registers of physical slice n (R439). -/
def loftReg (s : State) (n off : Nat) : Option RegView :=
  let x := s.slice n
  let b := if s.dev.phys.isEmpty then none else logicalOf s n
  match off with
  | 0x000 => some (roFields [(1, b2n b.isSome), (1, b2n x.retired), (1, 0), (5, 0), (4, b.getD 0), (4, 0), (16, x.bonds), (10, 512 - x.rowsUsed), (8, 128 - x.colsUsed)])
  | 0x008 => some { base := 0, rc := [
      sliceRc n 0 32 x.corr (fun v x => { x with corr := x.corr - v }), sliceRc n 32 16 x.uncorr (fun v x => { x with uncorr := x.uncorr - v }),
      sliceRc n 48 16 x.poison (fun v x => { x with poison := x.poison - v })] }
  | _ => none

/-! ### Power, clock and time -/

/-- An integer in w bits of two's complement, saturating. -/
def clampW (w : Nat) (i : Int) : Nat := wrap w (max (-(2 : Int) ^ (w - 1)) (min i ((2 : Int) ^ (w - 1) - 1)))

/-- An RC counter of the power state. -/
def powRc (lo w val : Nat) (f : Nat → Pow → Pow) : RcField := { lo := lo, w := w, val := val, sub := fun v s => s.onPow (f v) }

/-- An RC counter of the time state. -/
def timRc (lo val : Nat) (f : Nat → Tim → Tim) : RcField := { lo := lo, w := 16, val := val, sub := fun v s => s.onTim (f v) }

/-- The peak limit acts, or acted in the last 10 ms. -/
def edpRecent (s : State) : Bool := s.pow.edpOn || (match s.pow.edpAt with | none => false | some t => decide (s.clk < t + 10_000_000))

def TimeState.code : TimeState → Nat | .free => 0 | .acquiring => 1 | .locked => 2 | .holdover => 3

/-- Whole seconds in the present holdover. -/
def holdoverS (s : State) : Nat := match s.tim.state with | .holdover => (s.clk - s.tim.holdAt) / 1_000_000_000 | .free => 0 | .acquiring => 0 | .locked => 0

/-- BAY_CLK(n) (R527). -/
def bayClkReg (s : State) (n : Nat) : RegView :=
  let c := s.clkOf n
  { base := packW [(12, c.mhz), (1, b2n (logicalOf s n).isNone), (1, b2n (quietShelf s n).isSome), (2, 0), (10, c.mv)]
    rc := [powRc 32 32 c.stretches (fun v p => { p with bays := tupd {} p.bays n (fun c => { c with stretches := c.stretches - v }) })] }

/-- PACE_CFG's fields lie in their ranges. -/
def paceCfgOk (v : Word) : Bool :=
  decide (bits v 6 4 ≤ 4) && decide (2 ≤ bits v 15 8) && decide (bits v 15 8 ≤ 50) && decide (10 ≤ bits v 57 48) && decide (bits v 57 48 ≤ 1000)

/-- A write of PACE_CFG; while EN is 1 it changes EN only (R509). The group point is formed again (R514). -/
def paceCfgWrite (v : Word) (s : State) : State :=
  if paceEn s then settleGroup (s.setDreg (powBase + 0x400) (s.paceCfg &&& ~~~1 ||| v &&& 1))
  else if paceCfgOk v then settleGroup (s.setDreg (powBase + 0x400) (v &&& 0x03FF_FFFF_FFFF_FF73)) else s

/-- A write of PACE_MEMBER(m), ignored while PACE_CFG.EN is 1 (R509): an entry that changes starts unheard. -/
def paceMemberWrite (m : Nat) (v : Word) (s : State) : State :=
  if paceEn s || v &&& 0x1_FFFF == memberReg s m then s
  else settleGroup ((s.setDreg (powBase + 0x500 + 8 * m) (v &&& 0x1_FFFF)).onPow (fun p => { p with members := tdel p.members m }))

/-- The registers of the pace controller (R527). -/
def powerReg (s : State) (off : Nat) : Option RegView :=
  let p := s.pow
  let t := s.tim
  match off with
  | 0x0000 => some (rwReg (BitVec.ofNat 64 s.capW) 0xFFFF pwrCapWrite)
  | 0x0008 => some { base := packW [(4, oppNow s), (4, p.ceiling), (4, p.group), (1, b2n p.capped), (1, b2n p.thermal), (1, b2n (edpRecent s)), (1, b2n p.cfgErr),
                       (16, p.draw_), (16, p.effCap), (16, p.ceded)]
                     write := fun v s => if bit v 15 then s.onPow (fun p => { p with cfgErr := false }) else s }
  | 0x0010 => some (roReg (BitVec.ofNat 64 p.energy))
  | 0x0018 => some { base := s.dreg (powBase + 0x18) 0x3201 &&& 0xFF01, rw := 0xFF01
                     rc := [powRc 32 32 p.wakes (fun v p => { p with wakes := p.wakes - v })]
                     write := fun v s => if bits v 15 8 < 10 then s else s.setDreg (powBase + 0x18) (v &&& 0xFF01) }
  | 0x0020 => some { base := packW [(8, clampW 8 p.tj), (8, bits (s.dreg (powBase + 0x20) 0x6400) 15 8), (1, b2n p.thermal), (7, 0), (8, p.sensor)], rw := 0xFF00
                     write := fun v s => if bits v 15 8 < 85 ∨ 115 < bits v 15 8 then s else s.setDreg (powBase + 0x20) (v &&& 0xFF00) }
  | 0x0400 => some (rwReg s.paceCfg 0x03FF_FFFF_FFFF_FF73 paceCfgWrite)
  | 0x0408 => some { base := packW [(7, (liveMembers s).length), (1, b2n (favExcess s)), (7, favHeard s)]
                     rc := [powRc 16 16 p.lost (fun v p => { p with lost := p.lost - v }), powRc 32 16 p.bad (fun v p => { p with bad := p.bad - v }),
                            powRc 48 16 p.steps (fun v p => { p with steps := p.steps - v })] }
  | 0x0800 => some (rwReg s.timeCfg 0xFFFF_FFFF_00FF_03F7 timeCfgWrite)
  | 0x0808 => some { base := packW [(3, t.state.code), (2, t.source), (1, b2n t.stepBy.isSome), (1, b2n t.setRefused), (1, 0), (24, clampW 24 t.offset), (32, holdoverS s)]
                     write := fun v s => if bit v 6 then s.onTim (fun t => { t with setRefused := false }) else s }
  | 0x0810 => some (roReg (BitVec.ofNat 64 s.epoch))
  | 0x0818 => some { base := 0, wide := true, write := fun v s => lockSettle (epochSet v s) }
  | 0x0820 => some { base := 0, rc := [
      timRc 0 t.ppsMissed (fun v t => { t with ppsMissed := t.ppsMissed - v }), timRc 16 t.ptpDiscards (fun v t => { t with ptpDiscards := t.ptpDiscards - v }),
      timRc 32 t.rejected (fun v t => { t with rejected := t.rejected - v }), timRc 48 t.holdovers (fun v t => { t with holdovers := t.holdovers - v })] }
  | _ =>
    if 0x0100 ≤ off ∧ off < 0x0188 then some (bayClkReg s ((off - 0x0100) / 8))
    else if 0x0200 ≤ off ∧ off < 0x0268 then
      let i := (off - 0x0200) / 8
      some (roFields [(12, if i ≤ s.oppTop then oppMhz i else 0), (4, 0), (10, Config.oppMv i)])
    else if 0x0500 ≤ off ∧ off < 0x0700 then some (rwReg (memberReg s ((off - 0x0500) / 8)) 0x1_FFFF (paceMemberWrite ((off - 0x0500) / 8)))
    else none

/-- What a shelf sees at an offset of the power block (R527). -/
def powerView (s : State) (off : Nat) : Option RegView :=
  match off with
  | 0x0808 => some (roFields [(3, s.tim.state.code), (2, s.tim.source)])
  | 0x0810 => some (roReg (BitVec.ofNat 64 s.epoch))
  | _ => (powerReg s off).map (fun _ => roReg 0)

/-! ### Health -/

/-- A sample in units of 1 / m, within w bits. -/
def scaled (m w : Nat) (v : Rat) : Nat := min (v * (m : Rat)).floor.toNat (2 ^ w - 1)

/-- The last value of unit u of a mechanism. -/
def lastOf (s : State) (m u : Nat) : Rat := tget 0 s.health.last (unitKey m u)

/-- An RC counter of the hub. -/
def healthRc (lo w val : Nat) (f : Nat → Health → Health) : RcField := { lo := lo, w := w, val := val, sub := fun v s => s.onHealth (f v) }

/-- HLTH_CFG's window lies in its range. -/
def hlthCfgOk (v : Word) : Bool := decide (7 ≤ bits v 7 0) && decide (bits v 7 0 ≤ 90)

/-- The health registers (R558). -/
def healthReg (s : State) (off : Nat) : Option RegView :=
  let h := s.health
  match off with
  | 0x0000 => some { base := packW [(8, h.alert), (8, h.unit)], write := fun v s => s.onHealth (fun h => { h with alert := h.alert &&& (255 - bits v 7 0) }) }
  | 0x0008 => some (devRw s 0xE0_0008 0xFF 0xFF)
  | 0x0010 => some (roFields [(16, h.eol.weeks), (16, h.eol.low), (16, h.eol.high), (4, h.eolMech), (8, h.eol.unit)])
  | 0x0018 => some (devRw s 0xE0_0018 0x7F_FFFF_FFFF 0x4_0400_1A1C hlthCfgOk)
  | 0x0020 => some { base := 0, rc := [
      healthRc 0 16 h.size (fun v h => { h with size := h.size - v }), healthRc 16 16 h.gate (fun v h => { h with gate := h.gate - v }),
      healthRc 32 16 h.view (fun v h => { h with view := h.view - v })] }
  | _ =>
    if 0x0108 ≤ off ∧ off < 0x0138 then
      let x := tget ({} : Predict) h.mechs ((off - 0x0100) / 8)
      some (roFields [(16, x.weeks), (16, x.low), (16, x.high), (8, x.unit), (8, min x.days 255)])
    else if 0x0200 ≤ off ∧ off < 0x0288 then
      let n := (off - 0x0200) / 8
      some { base := packW [(12, scaled 100 12 (lastOf s 1 n)), (12, scaled 100 12 (lastOf s 2 n))]
             rc := [healthRc 24 16 (tget 0 h.psCorr n) (fun v h => { h with psCorr := tupd 0 h.psCorr n (· - v) }),
                    healthRc 40 8 (tget 0 h.psUncorr n) (fun v h => { h with psUncorr := tupd 0 h.psUncorr n (· - v) })] }
    else if 0x0300 ≤ off ∧ off < 0x0388 then
      let n := (off - 0x0300) / 8
      some (roFields [(16, scaled 10 16 (lastOf s 3 n)), (16, tget 0 h.group n)])
    else if 0x0400 ≤ off ∧ off < 0x0620 then
      let l := (off - 0x0400) / 8
      some (roFields [(8, scaled 1 8 (lastOf s 4 l)), (8, laneBase s l)])
    else none

/-- What shelf k sees at an offset of the health block: HLTH_SHELF (R559). -/
def healthView (s : State) (k off : Nat) : Option RegView :=
  let c := (s.shelf k).counts
  match off with
  | 0x0000 => some { base := 0, rc := [
      countsRc k 0 16 c.psCorr true (fun n c => { c with psCorr := c.psCorr - n }), countsRc k 16 8 c.psUncorr true (fun n c => { c with psUncorr := c.psUncorr - n }),
      countsRc k 24 16 c.access true (fun n c => { c with access := c.access - n })] }
  | _ => (healthReg s off).map (fun _ => roReg 0)

/-! ### Mailbox blocks -/

/-- The mailbox block of function f (R409, R419). -/
def mailboxReg (s : State) (f off : Nat) : Option RegView :=
  let m := (s.fn f).mbx
  match off with
  | 0x0000 => some { base := packW [(1, 0), (1, b2n m.irqEn)], rw := 2, write := mbxCtlWrite f }
  | 0x0008 => some { base := packW [(1, b2n m.busy), (1, b2n m.done), (1, b2n m.overrun), (5, 0), (8, m.last)]
                     write := fun v s => s.onMbx f (fun m => { m with done := m.done && !bit v 1, overrun := m.overrun && !bit v 2 }) }
  | _ =>
    if 0x1000 ≤ off ∧ off < 0x2000 then
      some (rwReg (BitVec.ofNat 64 (field m.req (off - 0x1000) 8)) (BitVec.allOnes 64) (fun v => mbxReqWrite f (off - 0x1000) (toLe 8 v.toNat)))
    else if 0x2000 ≤ off ∧ off < 0x3000 then some (roReg (if m.busy then 0 else BitVec.ofNat 64 (field m.resp (off - 0x2000) 8)))
    else none

/-- The level of DBG_DOUT: low while the debug port is closed (R580). [log 274 DESIGN CHOICE] -/
def dbgDout (s : State) : Bool := s.dev.dbgOpen && Config.dbgOut s.clk

end Sys2Proof.Machine
end

