-- ==== Sys2Proof/Machine/Registers.lean ====
section
/-!
DEFINITION. Accesses of host software to BAR0 (R12-R14, R403, R405, R407, R414, R556, R560-R563): REGISTER_READ, REGISTER_WRITE and
DOORBELL_WRITE.
-/
namespace Sys2Proof.Machine

/-- The logical sequencer of each physical one of physical bay n (R342). [log 266 DEDUCED] -/
def logicalSeq (s : State) (n i : Nat) : Option Nat :=
  let l := tget [0, 1, 2, 3] s.dev.seqMap n
  if l.contains i then some (l.findIdx (· == i)) else none

/-- The shelf of logical bay b, and the bay's index in that shelf. [log 197 DEDUCED] -/
def bayPlace (s : State) (b : Nat) : Option (Nat × Nat) :=
  (List.range 8).findSome? (fun k => if (s.shelf k).bays.contains b then some (k, (s.shelf k).bays.findIdx (· == b)) else none)

/-- A shelf's block as the physical function sees it; that of an undefined shelf takes no write. [log 197 DEDUCED, 264 DEDUCED] -/
def pfShelfReg (s : State) (k off : Nat) : Option RegView :=
  (shelfReg s k off).map (fun r => latchView s k off (if (s.shelf k).desc.isSome then r else { r with write := fun _ s => s }))

/-- A register of the block of physical bay n as the physical function sees it; its shelf's latched counters read as that shelf sees
them (R460). [log 197 DEDUCED] -/
def pfBayReg (s : State) (n off : Nat) : Option RegView :=
  let b := logicalOf s n
  let r := bayReg s b n 5 (logicalSeq s n) off
  match b.bind (fun b => (bayPlace s b)) with
  | none => r
  | some (k, i) =>
    let off := if off < 0x4000 then off else 0x4000 + ((logicalSeq s n ((off - 0x4000) / 0x200)).getD 4) * 0x200 + off % 0x200
    r.map (latchView s k (bayView i + off))

/-- The register that the physical function sees at an aligned offset (R405). [log 264 DEDUCED] -/
def pfReg (s : State) (off : Nat) : Option RegView :=
  if off < 0x10_0000 then globalReg s off
  else if off < 0x18_0000 then pfShelfReg s ((off - 0x10_0000) / 0x1_0000) (off % 0x1_0000)
  else if off < 0x20_0000 then none
  else if off < 0x31_0000 then
    pfBayReg s ((off - 0x20_0000) / 0x1_0000) (off % 0x1_0000)
  else if off < 0x40_0000 then none
  else if off < 0x41_0000 then portReg s ((off - 0x40_0000) / 0x1000) (off % 0x1000)
  else if off < tpBase then none
  else if off < 0x80_0000 then transportReg s (off - tpBase)
  else if off < 0x88_0000 then cellarReg s ((off - 0x80_0000) / 0x1_0000) (off % 0x1_0000)
  else if off = 0x88_0000 then some (devRw s 0x88_0000 0x3FF 0 (fun v => decide (bits v 9 0 ≤ 575)))
  else if off < 0xA0_0000 then none
  else if off < 0xA1_1000 then loftReg s ((off - 0xA0_0000) / 0x1000) (off % 0x1000)
  else if off < 0xC0_0000 then none
  else if off < 0xE0_0000 then powerReg s (off - 0xC0_0000)
  else if off < 0x100_0000 then healthReg s (off - 0xE0_0000)
  else if off < 0x200_0000 then mailboxReg s 0 (off - 0x100_0000)
  else none

/-- A bay register in the view of shelf k (R140, R342). -/
def shelfBayReg (s : State) (k off : Nat) : Option RegView :=
  match (s.shelf k).bayOf ((off - 0x20_0000) / 0x1_0000) with
  | none => none
  | some b => (bayReg s (some b) (s.physOf b) 4 some (off % 0x1_0000)).map (latchView s k off)

/-- The register that the virtual function of shelf k sees at an aligned offset (R405). [log 266 DEDUCED] -/
def vfReg (s : State) (k off : Nat) : Option RegView :=
  let fixed (r : Option RegView) : Option RegView := r.map (fun r => roReg r.value)
  if off < 0x100 then fixed (globalReg s off)
  else if off = 0x880 + 8 * k then fixed (globalReg s off)
  else if off < 0x10_0000 then none
  else if off < 0x18_0000 then
    if (off - 0x10_0000) / 0x1_0000 = k then (shelfReg s k (off % 0x1_0000)).map (latchView s k (off % 0x1_0000)) else none
  else if off < 0x20_0000 then none
  else if off < 0x30_0000 then shelfBayReg s k off
  else if off < 0xC0_0000 then none
  else if off < 0xE0_0000 then powerView s (off - 0xC0_0000)
  else if off < 0x100_0000 then (healthView s k (off - 0xE0_0000)).map (latchView s k off)
  else if off < 0x200_0000 then mailboxReg s (k + 1) (off - 0x100_0000)
  else none

/-- The register that function f sees at an aligned offset. -/
def fnReg (s : State) (f off : Nat) : Option RegView := if f = 0 then pfReg s off else vfReg s (f - 1) off

/-- Count an access of function f (R556); a virtual function's also counts for its shelf (R559). -/
def countAccess (f : Nat) (h : Health → Health) (s : State) : State :=
  let s := s.onHealth h
  if f = 0 then s else s.onCounts (f - 1) (fun c => { c with access := sat 16 1 c.access })

/-- An access of the wrong size or alignment (R12). -/
def countSize (f : Nat) (s : State) : State := countAccess f (fun h => { h with size := sat 16 1 h.size }) s

/-- An access to an offset that holds no register, or outside a function's view (R405, R561). [log 266 DEDUCED] -/
def countView (f : Nat) (s : State) : State := countAccess f (fun h => { h with view := sat 16 1 h.view }) s

/-- The doorbell page and byte of an offset that function f sees (R405, R407). [log 164 DEDUCED, 267 DEDUCED] -/
def doorbellAt (f off : Nat) : Option (Nat × Nat) :=
  let p := (off - 0x200_0000) / 0x1_0000
  if 0x200_0000 ≤ off ∧ p < 8 ∧ off % 0x1_0000 < 0x800 ∧ (f = 0 ∨ f = p + 1) then some (p, off % 0x1_0000) else none

/-- What becomes of an access before it meets a register: no response, nothing (a read returns zero), a count under R414, or the access. -/
inductive Gate where
  | silent | zero | nonTee | pass
  deriving DecidableEq, Repr

/-- An offset of the security mailbox block (R405). -/
def mailboxAt (off : Nat) : Bool := decide (0x100_0000 ≤ off) && decide (off < 0x200_0000)

/-- The way of an access of function f to an offset (R400, R403, R414, R530). [log 168 PRESUMED, 175 DEDUCED] -/
def gate (s : State) (f off : Nat) (t : Option (BitVec 3)) : Gate :=
  if !responds s f then .silent
  else if globalOnly s && !(decide (off < 0x10_0000) || mailboxAt off) then .silent
  else if !fnServed s f && !mailboxAt off then .zero
  else match teeCheck s f t with
    | .pass => .pass
    | .drop => .zero
    | .nonTee => if (doorbellAt f off).isSome then .pass else .nonTee

/-- A read of n bytes at a BAR0 offset that reaches the function's view. [log 267 DEDUCED] -/
def regRead (f off n : Nat) (s : State) : State :=
  if (doorbellAt f off).isSome then hostReturn (zeros n) false s
  else match lanesOf off n with
    | none => hostReturn (zeros n) false (countSize f s)
    | some l => match fnReg s f (off / 8 * 8) with
      | none => hostReturn (zeros n) false (countView f s)
      | some r =>
        let (v, s) := r.read l s
        hostReturn (toLe n v.toNat) false s

/-- REGISTER_READ: n bytes at a BAR0 offset by function f, with the T bit on a stream or without. -/
def registerRead (f off n : Nat) (t : Option (BitVec 3)) (s : State) : State :=
  match gate s f off t with
  | .silent => s
  | .zero => hostReturn (zeros n) false s
  | .nonTee => hostReturn (zeros n) false (countNonTee f s)
  | .pass => regRead f off n s

def execRegisterRead (f : BitVec 4) (off : BitVec 26) (n : BitVec 7) (t : Option (BitVec 3)) (s : State) : Out :=
  .next (registerRead f.toNat off.toNat n.toNat t s)

/-- A doorbell write of n bytes at byte x of the page of shelf k (R407). [log 164 DEDUCED, 174 DEDUCED] -/
def doorbell (k x n : Nat) (v : Word) (s : State) : State :=
  if n = 8 ∧ x % 8 = 0 ∧ bit ((s.shelf k).reg rNotifyCfg) 0 then notifyWord k (x / 8) v.toNat s
  else s.onCounts k (fun c => { c with dbDisc := sat 16 1 c.dbDisc })

/-- A write of n bytes at a BAR0 offset that reaches the function's view. -/
def regWrite (f off n : Nat) (v : Word) (s : State) : State :=
  match doorbellAt f off with
  | some (k, x) => doorbell k x n v s
  | none => match lanesOf off n with
    | none => countSize f s
    | some l => match fnReg s f (off / 8 * 8) with
      | none => countView f s
      | some r => r.put l v s

/-- REGISTER_WRITE: n bytes of v at a BAR0 offset by function f. -/
def registerWrite (f off n : Nat) (v : Word) (t : Option (BitVec 3)) (s : State) : State :=
  match gate s f off t with
  | .silent => s
  | .zero => s
  | .nonTee => countNonTee f s
  | .pass => regWrite f off n v s

def execRegisterWrite (f : BitVec 4) (off : BitVec 26) (n : BitVec 7) (v : Word) (t : Option (BitVec 3)) (s : State) : Out :=
  .next (registerWrite f.toNat off.toNat n.toNat v t s)

/-- DOORBELL_WRITE: a 64-bit write of v to DB(d) of the page of shelf k by function f (R407). -/
def execDoorbellWrite (f : BitVec 4) (k : BitVec 3) (d : BitVec 8) (v : Word) (t : Option (BitVec 3)) (s : State) : Out :=
  .next (registerWrite f.toNat (0x200_0000 + k.toNat * 0x1_0000 + d.toNat * 8) 8 v t s)

end Sys2Proof.Machine
end

