-- ==== Sys2Proof/Machine/ConfigSpace.lean ====
section
/-!
DEFINITION. What each function's configuration space and BAR4 read (R401, R402, R404, R408).
-/
namespace Sys2Proof.Machine

/-- The values of a configuration header and of Device Capabilities (R401). -/
structure PciHeader where
  vendor     : Nat
  device     : Nat
  classCode  : Nat
  revision   : Nat
  subsystem  : Nat
  function   : Nat
  maxPayload : Nat
  tagBits    : Nat
  deriving DecidableEq, Repr

/-- The configuration header of function f; the Vendor ID of a VF reads all ones, and its Device ID is the VF Device ID of
SR-IOV (R401). [log 176 DEDUCED] -/
def pciHeader (f : Nat) : PciHeader :=
  { vendor := if f = 0 then 0x1F3A else 0xFFFF, device := if f = 0 then 0x0A20 else 0x0A21, classCode := 0x12_0000
    revision := Config.fuseStepping % 256, subsystem := Config.subsystemId.toNat, function := f, maxPayload := 512, tagBits := 14 }

/-- The capabilities that the device implements (R402). -/
inductive Capability where
  | pciExpress | powerManagement | msix | advancedErrorReporting | ari | srIov | resizableBar | vfResizableBar | deviceSerial
  | doe | ide | teeIo
  deriving DecidableEq, Repr

/-- Function f implements a capability: SR-IOV, the Resizable BARs, the serial number and DOE belong to the PF. -/
def hasCapability (f : Nat) : Capability → Bool
  | .pciExpress => true | .powerManagement => true | .msix => true | .advancedErrorReporting => true | .ari => true
  | .srIov => f == 0 | .resizableBar => f == 0 | .vfResizableBar => f == 0 | .deviceSerial => f == 0 | .doe => f == 0 | .ide => f == 0
  | .teeIo => true

/-- TotalVFs and InitialVFs, First VF Offset and VF Stride, and the VF page sizes in bytes of SR-IOV (R401, R402). -/
def totalVfs : Nat := 8
def initialVfs : Nat := 8
def firstVfOffset : Nat := 1
def vfStride : Nat := 1
def vfPageSizes : List Nat := [0x1000, 0x1_0000]

/-- The VF page size in force. -/
def vfPageSize (s : State) : Nat := if s.host.vfPage64 then 0x1_0000 else 0x1000

/-- The Device Serial Number: the device identity of the Global block (R402). -/
def deviceSerial : Nat := Config.deviceId.toNat

/-- The largest payload function f sends, and the largest read request it issues, in bytes (R401). -/
def payloadMax (s : State) (f : Nat) : Nat := min 512 (128 * 2 ^ (s.fn f).payload)
def readRequestMax (s : State) (f : Nat) : Nat := min 4096 (128 * 2 ^ (s.fn f).readReq)

/-- The pending-bit array of function f: bit v for an event of vector v that waits. -/
def pendingBits (x : Fn) : Nat := (x.waiting.map (fun v => 2 ^ v)).sum

/-- The 64-bit word of BAR4 at an offset: an MSI-X entry holds its address at 0, its data at 8 and its Mask bit at 12; the PBA stands at
0x8000 (R404). [log 166 DESIGN CHOICE] -/
def bar4Read (s : State) (f off : Nat) : Nat :=
  let x := s.fn f
  let v := off / 16
  let e := tget (0, 0) x.table v
  if off < 0x1000 then (if off % 16 = 0 then e.1 else if off % 16 = 8 then e.2 + 2 ^ 32 * b2n (!x.unmasked.contains v) else 0)
  else if 0x8000 ≤ off ∧ off < 0x8020 ∧ off % 8 = 0 then (pendingBits x / 2 ^ (8 * (off - 0x8000))) % 2 ^ 64
  else 0

end Sys2Proof.Machine
end

