-- ==== Sys2Proof/Machine/I3c.lean ====
section
/-!
DEFINITION. The management port (R584-R586).
-/
namespace Sys2Proof.Machine

/-- Change the port. -/
def State.onI3c (s : State) (f : I3c → I3c) : State := { s with i3c := f s.i3c }

/-- The port answers from the start of S0 until PWRGD_IN falls (R584); the start begins with POWER_ON. [log 271 DEDUCED] -/
def i3cAnswers (s : State) : Bool := s.dev.pwrgd

/-- The 80 bytes of the registers that the port reads (R585). -/
def i3cRegs (s : State) : Bytes :=
  let word (r : Option RegView) : Bytes := match r with | none => zeros 8 | some r => toLe 8 r.value.toNat
  toLe 8 Config.deviceId.toNat ++ toLe 8 globalPart.toNat ++ toLe 8 (startStatus s).toNat ++ toLe 8 (globalLcs s).toNat ++
  word (powerReg s 0x20) ++ word (powerReg s 0x00) ++ word (powerReg s 0x08) ++ word (healthReg s 0x00) ++ word (healthReg s 0x10) ++
  toLe 8 (secTamper s).toNat

/-- I3C_DYNAMIC_ADDRESS: SETDASA or ENTDAA gives the port address a. [log 272 DEDUCED] -/
def execI3cDynamicAddress (a : BitVec 7) (s : State) : Out :=
  .next (if i3cAnswers s then s.onI3c (fun i => { i with dyn := some a.toNat }) else s)

/-- I3C_PRIVATE_WRITE: 2 bytes set the offset; 10 bytes to offset 0x28 write PWR_CAP; any other write is ignored (R585). -/
def execI3cPrivateWrite (b : Bytes) (s : State) : Out :=
  .next (
    if !i3cAnswers s then s
    else if b.length = 2 then s.onI3c (fun i => { i with off := field b 0 2 })
    else if b.length = 10 ∧ field b 0 2 = 0x28 then pwrCapWrite (BitVec.ofNat 64 (field b 2 8)) s
    else s)

/-- I3C_PRIVATE_READ: n bytes from the offset upward; offsets above 0x4F read zero (R585). [log 271 DEDUCED] -/
def execI3cPrivateRead (n : BitVec 8) (s : State) : Out :=
  .next (if i3cAnswers s then s.onI3c (fun i => { i with read := slice (i3cRegs s ++ zeros (i.off + n.toNat)) i.off n.toNat }) else s)

/-- I3C_ENEC: the controller enables in-band interrupts (R586). [log 272 DEDUCED] -/
def execI3cEnec (s : State) : Out := .next (if i3cAnswers s then s.onI3c (fun i => { i with enec := true }) else s)

/-- The port sends the lowest in-band interrupt that is pending. [log 272 DEDUCED] -/
def i3cSend (s : State) : State :=
  match s.i3c.waiting with
  | [] => s
  | b :: l => if i3cAnswers s && s.i3c.dyn.isSome then s.onI3c (fun i => { i with waiting := l, sent := b :: i.sent }) else s

end Sys2Proof.Machine
end

