-- ==== Sys2Proof/Machine/Mmio.lean ====
section
/-!
DEFINITION. Accesses of sequencer code to the device MMIO range (R36, R39, R40, R443 SEQ_VIEW, R561).
-/
namespace Sys2Proof.Machine

/-- The blocks that the shelf descriptor opens to sequencer code (R443). -/
def seqOpens (s : State) (k i : Nat) : Bool := match (s.shelf k).desc with | none => false | some d => nbit d.seqView i

/-- The shelf of sequencer q. -/
def mmioShelf (s : State) (q : Nat) : Nat := (shelfOf s (q / 4)).getD 0

/-- Whether an offset lies in the block of shelf k. -/
def inShelfBlock (k off : Nat) : Bool := decide (0x10_0000 + k * 0x1_0000 ≤ off) && decide (off < 0x11_0000 + k * 0x1_0000)

/-- Whether sequencer q may access a BAR0 offset at all (R39); any other raises ADDRESS. [log 265 DEDUCED] -/
def mmioOk (s : State) (q off : Nat) : Bool :=
  let k := mmioShelf s q
  if inShelfBlock k off then
    seqOpens s k 0 && ((shelfReg s k (off / 8 * 8 % 0x1_0000)).isNone || seqReach (off % 0x1_0000) != .none)
  else if 0x20_0000 ≤ off ∧ off < 0x30_0000 then seqOpens s k 1 && decide ((off - 0x20_0000) / 0x1_0000 < (s.shelf k).bays.length)
  else if 0xC0_0000 ≤ off ∧ off < 0xE0_0000 then seqOpens s k 2
  else if 0xE0_0000 ≤ off ∧ off < 0x100_0000 then seqOpens s k 3
  else false

/-- A load of n bytes: the value, zero where the access has no effect. [log 121 DEDUCED, 265 DEDUCED] -/
def mmioRead (q off n : Nat) (s : State) : Word × State :=
  let k := mmioShelf s q
  match lanesOf off n with
  | none => (0, countSize (k + 1) s)
  | some l => match vfReg s k (off / 8 * 8) with
    | none => (0, countView (k + 1) s)
    | some r => r.read l s

/-- A store of n bytes; a register that sequencer code only reads keeps its value. [log 265 DEDUCED] -/
def mmioWrite (q off n : Nat) (v : Word) (s : State) : State :=
  let k := mmioShelf s q
  match lanesOf off n with
  | none => countSize (k + 1) s
  | some l => match vfReg s k (off / 8 * 8) with
    | none => countView (k + 1) s
    | some r => if inShelfBlock k off && seqReach (off % 0x1_0000) == .read then s else r.put l v s

end Sys2Proof.Machine
end

