-- ==== Sys2Proof/Machine/KisMem.lean ====
section
/-!
DEFINITION. The instructions that touch memory, queues and time (R305-R316): loads and the store
buffer, AMO, SYNC, DLD and DSV, TAKE, ISSUE, the waits and their wakes, NOTE and PEND.
-/
namespace Sys2Proof.Machine

/-! ### The store buffer (R305, R306) -/

/-- The shelf that sequencer q serves. -/
def seqShelf (s : State) (q : Nat) : Nat := (shelfOf s (q / 4)).getD 0

/-- Perform one store at its memory or register. -/
def performStore (q : Nat) (e : PendingStore) (s : State) : State :=
  match mmio? e.addr with
  | some off => mmioWrite q off e.data.length (BitVec.ofNat 64 (leNat e.data)) s
  | none => vwrite s (seqShelf s q) e.addr e.data

/-- Perform the oldest store of the buffer. -/
def performOldest (q : Nat) (s : State) : State :=
  match (s.seq q).stores with
  | [] => s
  | e :: r => performStore q e (s.onSeq q (fun x => { x with stores := r }))

/-- Perform every store of the buffer in program order: what SYNC waits for. -/
def performAux : Nat → Nat → State → State
  | 0, _, s => s
  | n + 1, q, s => performAux n q (performOldest q s)

def performStores (q : Nat) (s : State) : State := performAux (s.seq q).stores.length q s

/-- A store retires into the buffer of 16 entries; a full buffer first performs its oldest. [log 114 DEDUCED] -/
def bufferStore (q : Nat) (addr : Nat) (data : Bytes) (s : State) : State :=
  let s := if (s.seq q).stores.length < 16 then s else performOldest q s
  s.onSeq q (fun x => { x with stores := x.stores ++ [{ addr := addr, data := data }] })

/-- The byte at an address as the sequencer's own earlier stores leave it (R305). -/
def forward (l : List PendingStore) (a : Nat) (v : Byte) : Byte :=
  l.foldl (fun v e => if e.addr ≤ a ∧ a < e.addr + e.data.length then e.data.getD (a - e.addr) 0 else v) v

/-! ### Addresses -/

/-- gA + IMM. -/
def ea (x : Seq) (a : BitVec 5) (imm : BitVec 32) : Nat := (x.gr a + simm imm).toNat

/-- An access of n bytes that sequencer q may make (R38, R39, R114). -/
def seqAccess (s : State) (q a n : Nat) : Bool :=
  match mmio? a with
  | some off => mmioOk s q off
  | none => openRange s (seqShelf s q) a n

/-- The base of the bay store of sequencer q's own bay, in the shelf's view. -/
def ownStore (s : State) (q : Nat) : Nat := storeAddr ((s.shelf (seqShelf s q)).bayIndex (q / 4)) 0

/-- n bytes at a in the own bay's store, outside every closed range. -/
def inOwnStore (s : State) (q a n : Nat) : Bool :=
  within a n (ownStore s q) storeSize && openRange s (seqShelf s q) a n

/-- The island's own blocks of the device map: sequencers cannot reach them (R33, R405). [log 121 DEDUCED] -/
def islandAt (a : Nat) : Bool := match mmio? a with | some off => decide (0x100_0000 ≤ off) && decide (off < 0x200_0000) | none => false

/-- The gate of R33 counts an access that it turns away. [log 121 DEDUCED, 260 DESIGN CHOICE] -/
def gateCount (s : State) : State := { s with health := { s.health with gate := sat 16 1 s.health.gate } }

/-- Check alignment, then the address (R317), and go on. -/
def checked (q a n al : Nat) (f : State → State) (s : State) : State :=
  if a % al ≠ 0 then raise q cAlign (BitVec.ofNat 64 a) 0 s
  else if seqAccess s q a n then f s
  else raise q cAddress (BitVec.ofNat 64 a) 0 (if islandAt a then gateCount s else s)

/-- Wait for w. -/
def waitFor (q : Nat) (w : Wait) (s : State) : State := s.onSeq q (fun x => { x with run := .waiting, wait := w })

/-- Raise the fault of a read that returned bad data (R317). [log 113 DEDUCED, 115 DEDUCED] -/
def dataFault (q a : Nat) (st : Status) (s : State) : State :=
  raise q (match st with
    | .poisoned => cPoisoned
    | .uncorrectable => cUncorrectable | .ok => cUncorrectable | .provisional => cUncorrectable
    | .windowRevoked => cUncorrectable | .retryExhausted => cUncorrectable | .remoteFault => cUncorrectable
    | .noBin => cUncorrectable | .keysetMismatch => cUncorrectable | .noiseExhausted => cUncorrectable
    | .paramUnsupported => cUncorrectable | .verdictReject => cUncorrectable | .lateCrate => cUncorrectable
    | .specRefused => cUncorrectable | .deniedAttribute => cUncorrectable | .tamperAbort => cUncorrectable
    | .keyRetired => cUncorrectable | .shelfFenced => cUncorrectable) (BitVec.ofNat 64 a) 0 s

/-! ### Loads and stores (R305) -/

/-- LD (R303, R305): issues the load; it retires when its data returns. [log 113 DEDUCED] -/
def execLd (q : Nat) (p : Pred) (size : BitVec 2) (sx : Bool) (d a : BitVec 5) (imm : BitVec 32) (s : State) : Out :=
  .next (kis q (wordI 0x08 (size.toNat + 4 * b2n sx) p d a imm) p (fun s =>
    let n := 2 ^ size.toNat
    let ad := ea (s.seq q) a imm
    checked q ad n n (waitFor q (.load d n sx ad)) s) s)

/-- The value a load of n bytes returns, extended. -/
def loadValue (n : Nat) (sx : Bool) (v : Nat) : Word :=
  if sx then BitVec.ofInt 64 (sext (8 * n) v) else BitVec.ofNat 64 v

/-- The memory bytes that a load of sequencer q takes, and the status of the read: its own earlier stores are forwarded (R305), and what
a command in flight writes reads as a free value and raises no fault (R316). [log 120 DEDUCED] -/
def loadBytes (q a n : Nat) (s : State) : Status × Bytes × State :=
  let k := seqShelf s q
  let own (i : Nat) (v : Byte) : Byte := forward (s.seq q).stores (a + i) v
  if (inProgress s k).any (fun r => overlap a n r.1 r.2) then
    let (mix, s') := drawBytes n s
    (.ok, (List.range n).map (fun i =>
      own i (if (inProgress s k).any (fun r => overlap (a + i) 1 r.1 r.2) then mix.getD i 0 else vbyte s k (a + i))), s')
  else (vstat s k a n, (List.range n).map (fun i => own i (vbyte s k (a + i))), noteRead k a n s)

/-- A blocked load's data returns: it retires, or raises the fault of the data (R305, R317). [log 113 DEDUCED, 120 DEDUCED] -/
def loadReturn (q : Nat) (s : State) : State :=
  match (s.seq q).wait with
  | .load d n sx a =>
    match mmio? a with
    | some off =>
      let r := mmioRead q off n (performStores q s)
      retireWith q (fun x => x.setG d (loadValue n sx (r.1.toNat % 2 ^ (8 * n)))) r.2
    | none =>
      let r := loadBytes q a n s
      if r.1 = .ok then retireWith q (fun x => x.setG d (loadValue n sx (leNat r.2.1))) r.2.2 else dataFault q a r.1 r.2.2
  | .loadDesc d a =>
    match mmio? a with
    | some off =>
      let r := mmioRead q off 32 (performStores q s)
      retireWith q (fun x => x.setD d {}) r.2
    | none =>
      let r := loadBytes q a 32 s
      if r.1 = .ok then retireWith q (fun x => x.setD d (imgParse r.2.1)) r.2.2 else dataFault q a r.1 r.2.2
  | .none => s | .queueFull _ _ => s | .counter _ _ _ _ => s | .epoch _ => s | .take _ _ _ => s
  | .waypoint _ _ => s | .sync => s

/-- LOAD_RETURN (R305). -/
def execLoadReturn (q : Nat) (s : State) : Out := .next (loadReturn q s)

/-- ST (R303, R305). -/
def execSt (q : Nat) (p : Pred) (size : BitVec 2) (d a : BitVec 5) (imm : BitVec 32) (s : State) : Out :=
  .next (kis q (wordI 0x09 size.toNat p d a imm) p (fun s =>
    let n := 2 ^ size.toNat
    let ad := ea (s.seq q) a imm
    checked q ad n n (fun s => retireWith q id (bufferStore q ad (toLe n ((s.seq q).gr d).toNat) s)) s) s)

/-- DLD (R299): loads a 32-byte image; the load returns as any load. [log 112 DEDUCED] -/
def execDld (q : Nat) (p : Pred) (d a : BitVec 5) (imm : BitVec 32) (s : State) : Out :=
  .next (kis q (wordI 0x18 0 p d a imm) p (fun s =>
    let ad := ea (s.seq q) a imm
    checked q ad 32 32 (waitFor q (.loadDesc d ad)) s) s)

/-- DSV (R299): stores the image of dD. [log 112 DEDUCED] -/
def execDsv (q : Nat) (p : Pred) (d a : BitVec 5) (imm : BitVec 32) (s : State) : Out :=
  .next (kis q (wordI 0x18 1 p d a imm) p (fun s =>
    let ad := ea (s.seq q) a imm
    checked q ad 32 32 (fun s => retireWith q id (bufferStore q ad (imgBytes ((s.seq q).dr d)) s)) s) s)

/-- The word of an AMO and its effect: f gives the new value from the old (R307). The sequencer's
earlier stores are performed first, so that accesses to the line keep program order (R35). [log 113 DEDUCED] -/
def amo (minor : Nat) (f : Seq → Word → Word) (q : Nat) (p : Pred) (d a b : BitVec 5) (s : State) : State :=
  kis q (wordR 0x0A minor p d a b) p (fun s =>
    let ad := ((s.seq q).gr a).toNat
    let k := seqShelf s q
    if ad % 8 ≠ 0 then raise q cAlign (BitVec.ofNat 64 ad) 0 s
    else if (inLoft (s.shelf k) ad 8 || inStore (s.shelf k) ad 8) && openRange s k ad 8 then
      let s := performStores q s
      let st := vstat s k ad 8
      let s := noteRead k ad 8 s
      if st = .ok then
        let old := BitVec.ofNat 64 (leNat (vread s k ad 8))
        let s := vwrite s k ad (toLe 8 (f (s.seq q) old).toNat)
        retireWith q (fun x => x.setG d old) s
      else dataFault q ad st s
    else raise q cAddress (BitVec.ofNat 64 ad) 0 (if islandAt ad then gateCount s else s)) s

/-- AMO.ADD (R307): gD ← M; M ← M + gB. -/
def execAmoAdd (q : Nat) (p : Pred) (d a b : BitVec 5) (s : State) : Out :=
  .next (amo 0 (fun x m => m + x.gr b) q p d a b s)

/-- AMO.CAS (R307): t ← M; if t = gD then M ← gB; gD ← t. -/
def execAmoCas (q : Nat) (p : Pred) (d a b : BitVec 5) (s : State) : Out :=
  .next (amo 1 (fun x m => if m = x.gr d then x.gr b else m) q p d a b s)

/-- SYNC (R306): retires at once with an empty store buffer; otherwise it waits. -/
def execSync (q : Nat) (p : Pred) (s : State) : Out :=
  .next (kis q (wordR 0x0B 0 p 0 0 0) p (fun s =>
    if (s.seq q).stores.isEmpty then retireWith q id s else waitFor q .sync s) s)

/-- SYNC_RETIRE (R306): the earlier stores are performed and the waiting SYNC retires. -/
def execSyncRetire (q : Nat) (s : State) : Out :=
  .next (if (s.seq q).wait == .sync then retireWith q id (performStores q s) else s)

/-! ### Records (R103, R310) -/

/-- The bytes of a crate record (R101). -/
def recordBytes (r : CrateRecord) : Bytes :=
  toLe 8 r.logSeq ++ toLe 8 r.time ++ toLe 4 r.client ++ toLe 1 r.kind ++ toLe 1 r.sigScheme ++ toLe 1 r.ring ++
  zeros 1 ++ toLe 8 r.entryOffset ++ toLe 4 r.payloadLen ++ toLe 4 r.proofLen ++ toLe 4 r.trailerLen ++
  toLe 4 r.elemCount ++ toLe 4 r.coordOffset ++ zeros 12

/-- Take the oldest record of the inbox to a bay-store address and retire with pD set. [log 113 DEDUCED] -/
def takeRecord (q : Nat) (pd : BitVec 5) (a : Nat) (s : State) : State :=
  match (s.seq q).inbox with
  | [] => s
  | r :: rest =>
    let s := performStores q s
    let s := vwrite s (seqShelf s q) a (recordBytes r)
    retireWith q (fun x => { x.setP pd.toNat true with inbox := rest }) s

/-- TAKE (R103, R310): no wait; an empty inbox clears pD. -/
def execTake (q : Nat) (p : Pred) (d a : BitVec 5) (s : State) : Out :=
  .next (kis q (wordR 0x28 0 p d a 0) p (fun s =>
    let ad := ((s.seq q).gr a).toNat
    if ad % 64 = 0 && inOwnStore s q ad 64 then
      if (s.seq q).inbox.isEmpty then retireWith q (fun x => x.setP d.toNat false) s
      else takeRecord q d ad s
    else raise q cAddress (BitVec.ofNat 64 ad) 0 s) s)

/-- TAKE.W (R310): waits for a record, or for epoch time to reach gB. -/
def execTakeW (q : Nat) (p : Pred) (d a b : BitVec 5) (s : State) : Out :=
  .next (kis q (wordR 0x28 1 p d a b) p (fun s =>
    let ad := ((s.seq q).gr a).toNat
    let t := (s.seq q).gr b
    if ad % 64 = 0 && inOwnStore s q ad 64 then
      let s := performStores q s
      if (s.seq q).inbox.isEmpty then
        if t ≠ 0 ∧ t.toNat ≤ s.epoch then retireWith q (fun x => x.setP d.toNat false) s
        else waitFor q (.take d ad t) s
      else takeRecord q d ad s
    else raise q cAddress (BitVec.ofNat 64 ad) 0 s) s)

/-- TAKE_W_WAKE (R310): a record has arrived, or the deadline comes. [log 114 DEDUCED] -/
def execTakeWWake (q : Nat) (s : State) : Out :=
  .next (match (s.seq q).wait with
    | .take pd a t =>
      if !(s.seq q).inbox.isEmpty then takeRecord q pd a s
      else if t ≠ 0 then retireWith q (fun x => x.setP pd.toNat false) (s.toEpoch t.toNat)
      else s
    | .none => s | .load _ _ _ _ => s | .loadDesc _ _ => s | .queueFull _ _ => s | .counter _ _ _ _ => s
    | .epoch _ => s | .waypoint _ _ => s | .sync => s)

/-! ### Issuing (R311, R324, R338, R340) -/

/-- A queue is full: 256 entries held. -/
def Queue.full (u : Queue) : Bool := decide (256 ≤ u.entries.length)

/-- Place a descriptor in queue n of sequencer q; a FENCE records what each queue holds (R338), and one that no unit takes is refused once it is
the head (R335). -/
def enqueue (q n : Nat) (desc : Bytes) (s : State) : State :=
  let marks := if field desc 0 1 = 0x3D then (List.range 12).map (fun i => (s.queue q i).placed) else []
  s.onQueue q n (fun u => Queue.absorb n 32 { u with
    entries := u.entries ++ [{ desc := desc, marks := marks }], wp := (u.wp + 1) % 512, placed := u.placed + 1 })

/-- ISSUE (R311): reads the descriptor and places it, or waits for a free entry. [log 115 DEDUCED] -/
def execIssue (q : Nat) (p : Pred) (n : BitVec 4) (a : BitVec 5) (imm : BitVec 32) (s : State) : Out :=
  .next (kis q (wordI 0x30 n.toNat p 0 a imm) p (fun s =>
    let ad := ea (s.seq q) a imm
    if ad % 64 ≠ 0 then raise q cAlign (BitVec.ofNat 64 ad) 0 s
    else if inOwnStore s q ad 64 then
      let s := performStores q s
      let k := seqShelf s q
      let st := vstat s k ad 64
      let s := noteRead k ad 64 s
      if st = .ok then
        let desc := vread s k ad 64
        if (s.queue q n.toNat).full then waitFor q (.queueFull n.toNat desc) s
        else retireWith q id (enqueue q n.toNat desc s)
      else dataFault q ad st s
    else raise q cAddress (BitVec.ofNat 64 ad) 0 s) s)

/-- ISSUE_QUEUE_ROOM (R340): the queue has a free entry; the waiting ISSUE enqueues and retires. -/
def execIssueQueueRoom (q : Nat) (s : State) : Out :=
  .next (match (s.seq q).wait with
    | .queueFull n desc => if (s.queue q n).full then s else retireWith q id (enqueue q n desc s)
    | .none => s | .load _ _ _ _ => s | .loadDesc _ _ => s | .counter _ _ _ _ => s | .take _ _ _ => s
    | .epoch _ => s | .waypoint _ _ => s | .sync => s)

/-! ### Waits on counters and time (R312, R314) -/

/-- CWAIT (R312). -/
def execCwait (q : Nat) (p : Pred) (n : BitVec 4) (d a b : BitVec 5) (s : State) : Out :=
  .next (kis q (wordR 0x31 (0x10 + n.toNat) p d a b) p (fun s =>
    let s := performStores q s
    let target := ((s.seq q).gr a).setWidth 32
    let t := (s.seq q).gr b
    if reaches (s.queue q n.toNat).count target then retireWith q (fun x => x.setP d.toNat true) s
    else if t ≠ 0 ∧ t.toNat ≤ s.epoch then retireWith q (fun x => x.setP d.toNat false) s
    else waitFor q (.counter d n.toNat target t) s) s)

/-- CWAIT_WAKE (R312): the counter has reached the value, or the deadline comes. [log 114 DEDUCED] -/
def execCwaitWake (q : Nat) (s : State) : Out :=
  .next (match (s.seq q).wait with
    | .counter pd n target t =>
      if reaches (s.queue q n).count target then retireWith q (fun x => x.setP pd.toNat true) s
      else if t ≠ 0 then retireWith q (fun x => x.setP pd.toNat false) (s.toEpoch t.toNat)
      else s
    | .none => s | .load _ _ _ _ => s | .loadDesc _ _ => s | .queueFull _ _ => s | .take _ _ _ => s
    | .epoch _ => s | .waypoint _ _ => s | .sync => s)

/-- EPOCH (R314): gD ← epoch time. -/
def execEpoch (q : Nat) (p : Pred) (d : BitVec 5) (s : State) : Out :=
  .next (kis q (wordR 0x38 0 p d 0 0) p (fun s => retireWith q (fun x => x.setG d (BitVec.ofNat 64 s.epoch)) s) s)

/-- Wait until epoch time is at least t, as a SYNC first. -/
def epochWait (q : Nat) (t : Word) (s : State) : State :=
  let s := performStores q s
  if t.toNat ≤ s.epoch then retireWith q id s else waitFor q (.epoch t) s

/-- EPOCHWAIT (R314). -/
def execEpochwait (q : Nat) (p : Pred) (a : BitVec 5) (s : State) : Out :=
  .next (kis q (wordR 0x38 1 p 0 a 0) p (fun s => epochWait q ((s.seq q).gr a) s) s)

/-- The schedule entry e of sequencer q's shelf. -/
def schedOf (s : State) (q e : Nat) : SchedEntry := tget {} (s.shelf (seqShelf s q)).sched e

/-- EPOCHWAIT.S (R314): the time of a schedule entry; an entry without a time raises SCHEDULE. -/
def execEpochwaitS (q : Nat) (p : Pred) (e : BitVec 8) (s : State) : Out :=
  .next (kis q (wordI 0x38 2 p 0 0 (e.zeroExtend 32)) p (fun s =>
    if (schedOf s q e.toNat).kind = 0 then raiseBare q cSchedule 0 s
    else epochWait q (schedOf s q e.toNat).time s) s)

/-- EPOCHWAIT_WAKE (R314): epoch time reaches the awaited time. [log 114 DEDUCED] -/
def execEpochwaitWake (q : Nat) (s : State) : Out :=
  .next (match (s.seq q).wait with
    | .epoch t => retireWith q id (s.toEpoch t.toNat)
    | .none => s | .load _ _ _ _ => s | .loadDesc _ _ => s | .queueFull _ _ => s | .take _ _ _ => s
    | .counter _ _ _ _ => s | .waypoint _ _ => s | .sync => s)

/-- SCHED (R314): gD ← time of a schedule entry. -/
def execSched (q : Nat) (p : Pred) (d : BitVec 5) (e : BitVec 8) (s : State) : Out :=
  .next (kis q (wordI 0x38 3 p d 0 (e.zeroExtend 32)) p (fun s =>
    if (schedOf s q e.toNat).kind = 0 then raiseBare q cSchedule 0 s
    else retireWith q (fun x => x.setG d (schedOf s q e.toNat).time) s) s)

/-! ### Waypoints, notes and the end of a phase -/

/-- Whether sequencer q runs in a round, not in a service run (R315). -/
def inRound (s : State) (q : Nat) : Bool :=
  (s.shelf (seqShelf s q)).round.active && !(s.shelf (seqShelf s q)).prog.service

/-- WAYPOINT (R315): waits for a waypoint whose cut comes after it; outside a round it raises PHASE. -/
def execWaypoint (q : Nat) (p : Pred) (d : BitVec 5) (s : State) : Out :=
  .next (kis q (wordR 0x39 0 p d 0 0) p (fun s =>
    if inRound s q then waitFor q (.waypoint d (s.shelf (seqShelf s q)).wpt.cuts) (performStores q s)
    else raiseBare q cPhase 0 s) s)

/-- WAYPOINT_WAKE (R315): a waypoint whose cut comes after the instruction began is complete and, with BUDDY, acknowledged. [log 120 DEDUCED] -/
def execWaypointWake (q : Nat) (s : State) : Out :=
  .next (match (s.seq q).wait with
    | .waypoint d after =>
      let h := s.shelf (seqShelf s q)
      match h.wpt.ends.find? (fun e => decide (after < e.1)) with
      | some e => retireWith q (fun x => x.setG d (BitVec.ofNat 64 e.2)) s
      | none => s
    | .none => s | .load _ _ _ _ => s | .loadDesc _ _ => s | .queueFull _ _ => s | .take _ _ _ => s
    | .counter _ _ _ _ => s | .epoch _ => s | .sync => s)

/-- WAYPOINT.C (R315): the cut time of the last completed waypoint of the round, or 0. -/
def execWaypointC (q : Nat) (p : Pred) (d : BitVec 5) (s : State) : Out :=
  .next (kis q (wordR 0x39 1 p d 0 0) p (fun s =>
    if inRound s q then
      let w := (s.shelf (seqShelf s q)).wpt
      retireWith q (fun x => x.setG d (BitVec.ofNat 64 (if w.valid then w.doneTime else 0))) s
    else raiseBare q cPhase 0 s) s)

/-- NOTE (R313): SEQ_NOTE ← gA and the program interrupt. -/
def execNote (q : Nat) (p : Pred) (a : BitVec 5) (s : State) : Out :=
  .next (kis q (wordR 0x3F 4 p 0 a 0) p (fun s =>
    let s := performStores q s
    let s := s.onSeq q (fun x => { x with note := x.gr a, noteLost := x.noteLost || x.noteUnread, noteUnread := true })
    retireWith q id (signalShelf (seqShelf s q) 2 s)) s)

/-- PEND (R296, R318): the sequencer ends its part of the phase; handler mode ends. -/
def execPend (q : Nat) (p : Pred) (s : State) : Out :=
  .next (kis q (wordR 0x3F 1 p 0 0 0) p (fun s =>
    let s := performStores q s
    s.onSeq q (fun x => { x.retire with run := .idle, pended := true, hmode := false })) s)

end Sys2Proof.Machine
end

