-- ==== Sys2Proof/Machine/Dispatch.lean ====
section
/-!
DEFINITION. The meaning of every command, one arm for each constructor, in the order of the opcode table.
-/
namespace Sys2Proof.Machine

/-- The effect of a command on everything but the queue. [log 2 DESIGN CHOICE, 4 DESIGN CHOICE, 270 DEDUCED] -/
def exec (i : Instr) (s : State) : Host.Outcome State Fault Refusal :=
  match i with
  | .powerOn x => Sys2Proof.Machine.execPowerOn x s
  | .perstLAssert => Sys2Proof.Machine.execPerstLAssert s
  | .globalResetCold x => Sys2Proof.Machine.execGlobalResetCold x s
  | .globalResetWarm x => Sys2Proof.Machine.execGlobalResetWarm x s
  | .islandWatchdogReset x => Sys2Proof.Machine.execIslandWatchdogReset x s
  | .refclkLoss c x => Sys2Proof.Machine.execRefclkLoss c x s
  | .pwrgdInFall sleep => Sys2Proof.Machine.execPwrgdInFall sleep s
  | .lockWaitTimeout => Sys2Proof.Machine.execLockWaitTimeout s
  | .journalMirror ok => Sys2Proof.Machine.execJournalMirror ok s
  | .tamperAlarm n op => Sys2Proof.Machine.execTamperAlarm n op s
  | .rootRemask => Sys2Proof.Machine.execRootRemask s
  | .thermalThrottleStep => Sys2Proof.Machine.execThermalThrottleStep s
  | .thermalTrip => Sys2Proof.Machine.execThermalTrip s
  | .pacePredictTick l d avg uj tj sensor temps => Sys2Proof.Machine.execPacePredictTick l d avg uj tj sensor temps s
  | .oppStep n => Sys2Proof.Machine.execOppStep n s
  | .droopDetect n ramp => Sys2Proof.Machine.execDroopDetect n ramp s
  | .stretchEnd n => Sys2Proof.Machine.execStretchEnd n s
  | .oppStepResume n => Sys2Proof.Machine.execOppStepResume n s
  | .edpLimit w => Sys2Proof.Machine.execEdpLimit w s
  | .currentSlopeTick a => Sys2Proof.Machine.execCurrentSlopeTick a s
  | .latticeGate n => Sys2Proof.Machine.execLatticeGate n s
  | .latticeWake n => Sys2Proof.Machine.execLatticeWake n s
  | .pwrCapWrite v => Sys2Proof.Machine.execPwrCapWrite v s
  | .paceHeartbeatSend => Sys2Proof.Machine.execPaceHeartbeatSend s
  | .ceilingRaiseHold => Sys2Proof.Machine.execCeilingRaiseHold s
  | .pacePacketReceive chan fcs f => Sys2Proof.Machine.execPacePacketReceive chan fcs f s
  | .paceCeilingEffective m => Sys2Proof.Machine.execPaceCeilingEffective m s
  | .paceMemberStale m => Sys2Proof.Machine.execPaceMemberStale m s
  | .quietDwellExpiry k => Sys2Proof.Machine.execQuietDwellExpiry k s
  | .ppsEdge rising => Sys2Proof.Machine.execPpsEdge rising s
  | .ptpMessage chan fcs f => Sys2Proof.Machine.execPtpMessage chan fcs f s
  | .timeSourceLoss => Sys2Proof.Machine.execTimeSourceLoss s
  | .holdoverStep => Sys2Proof.Machine.execHoldoverStep s
  | .epochSetWrite v => Sys2Proof.Machine.execEpochSetWrite v s
  | .coarseCountReload => Sys2Proof.Machine.execCoarseCountReload s
  | .schedMarkFire k e => Sys2Proof.Machine.execSchedMarkFire k e s
  | .refreshWindowOpen k e => Sys2Proof.Machine.execRefreshWindowOpen k e s
  | .refreshWindowClose k e => Sys2Proof.Machine.execRefreshWindowClose k e s
  | .schedKeyRetire k e => Sys2Proof.Machine.execSchedKeyRetire k e s
  | .schedKeyRetireRetry k e => Sys2Proof.Machine.execSchedKeyRetireRetry k e s
  | .schedDoorbell k e => Sys2Proof.Machine.execSchedDoorbell k e s
  | .waypointCut k => Sys2Proof.Machine.execWaypointCut k s
  | .waypointComplete k => Sys2Proof.Machine.execWaypointComplete k s
  | .buddyAck k => Sys2Proof.Machine.execBuddyAck k s
  | .roundStart k v => Sys2Proof.Machine.execRoundStart k v s
  | .roundCancel k v => Sys2Proof.Machine.execRoundCancel k v s
  | .openBegin k => Sys2Proof.Machine.execOpenBegin k s
  | .phaseComplete k => Sys2Proof.Machine.execPhaseComplete k s
  | .releaseSignaturesDone k => Sys2Proof.Machine.execReleaseSignaturesDone k s
  | .drbgReseed b first retry => Sys2Proof.Machine.execDrbgReseed b first retry s
  | .cutOff k => Sys2Proof.Machine.execCutOff k s
  | .freeze k => Sys2Proof.Machine.execFreeze k s
  | .cohortDigestReceive k => Sys2Proof.Machine.execCohortDigestReceive k s
  | .exchangeDeadline k => Sys2Proof.Machine.execExchangeDeadline k s
  | .roundDeadline k => Sys2Proof.Machine.execRoundDeadline k s
  | .releaseFlip k => Sys2Proof.Machine.execReleaseFlip k s
  | .relAckWrite k v => Sys2Proof.Machine.execRelAckWrite k v s
  | .ringCreate k ring addr => Sys2Proof.Machine.execRingCreate k ring addr s
  | .ringDestroy k ring => Sys2Proof.Machine.execRingDestroy k ring s
  | .rejlogCfgWrite k v => Sys2Proof.Machine.execRejlogCfgWrite k v s
  | .clogCfgWrite k v => Sys2Proof.Machine.execClogCfgWrite k v s
  | .recordDeliver k r => Sys2Proof.Machine.execRecordDeliver k r s
  | .crateSettle k seq => Sys2Proof.Machine.execCrateSettle k seq s
  | .caskEnable b ci v => Sys2Proof.Machine.execCaskEnable b ci v s
  | .caskDisable b ci => Sys2Proof.Machine.execCaskDisable b ci s
  | .kegInitDone b ci => Sys2Proof.Machine.execKegInitDone b ci s
  | .caskScrubDone b ci => Sys2Proof.Machine.execCaskScrubDone b ci s
  | .kegSelWrite b ci v => Sys2Proof.Machine.execKegSelWrite b ci v s
  | .heldCommandRelease b n => Sys2Proof.Machine.execHeldCommandRelease b n s
  | .segmentRetraction b => Sys2Proof.Machine.execSegmentRetraction b s
  | .commandComplete q n => Sys2Proof.Machine.execCommandComplete q n s
  | .foldA q n => Sys2Proof.Machine.execFoldA q n s
  | .foldO q n => Sys2Proof.Machine.execFoldO q n s
  | .foldP q n => Sys2Proof.Machine.execFoldP q n s
  | .spill q n => Sys2Proof.Machine.execSpill q n s
  | .drainW q n => Sys2Proof.Machine.execDrainW q n s
  | .drainK q n => Sys2Proof.Machine.execDrainK q n s
  | .xstreamM q n => Sys2Proof.Machine.execXstreamM q n s
  | .shakeM q n => Sys2Proof.Machine.execShakeM q n s
  | .noise q n => Sys2Proof.Machine.execNoise q n s
  | .seal q n => Sys2Proof.Machine.execSeal q n s
  | .pcomb q n => Sys2Proof.Machine.execPcomb q n s
  | .commit q n => Sys2Proof.Machine.execCommit q n s
  | .retract q n => Sys2Proof.Machine.execRetract q n s
  | .sigv q n => Sys2Proof.Machine.execSigv q n s
  | .flpv q n => Sys2Proof.Machine.execFlpv q n s
  | .lagrIn q n => Sys2Proof.Machine.execLagrIn q n s
  | .lagr q n => Sys2Proof.Machine.execLagr q n s
  | .ecdh q n => Sys2Proof.Machine.execEcdh q n s
  | .xstream q n => Sys2Proof.Machine.execXstream q n s
  | .shake q n => Sys2Proof.Machine.execShake q n s
  | .digest q n => Sys2Proof.Machine.execDigest q n s
  | .ntt q n => Sys2Proof.Machine.execNtt q n s
  | .intt q n => Sys2Proof.Machine.execIntt q n s
  | .modmul q n => Sys2Proof.Machine.execModmul q n s
  | .keysw q n => Sys2Proof.Machine.execKeysw q n s
  | .pdec q n => Sys2Proof.Machine.execPdec q n s
  | .refresh q n => Sys2Proof.Machine.execRefresh q n s
  | .refreshResume q n => Sys2Proof.Machine.execRefreshResume q n s
  | .refreshStageDone k j => Sys2Proof.Machine.execRefreshStageDone k j s
  | .refreshSlotFree k slot => Sys2Proof.Machine.execRefreshSlotFree k slot s
  | .optstep q n => Sys2Proof.Machine.execOptstep q n s
  | .rmaWr q n => Sys2Proof.Machine.execRmaWr q n s
  | .rmaRd q n => Sys2Proof.Machine.execRmaRd q n s
  | .tsend q n => Sys2Proof.Machine.execTsend q n s
  | .postrecv q n => Sys2Proof.Machine.execPostrecv q n s
  | .waitq q n => Sys2Proof.Machine.execWaitq q n s
  | .fence q n => Sys2Proof.Machine.execFence q n s
  | .queueNop q n => Sys2Proof.Machine.execQueueNop q n s
  | .qrecWrite q v => Sys2Proof.Machine.execQrecWrite q v s
  | .verifierBatchSend k j => Sys2Proof.Machine.execVerifierBatchSend k j s
  | .verifierFlush k j => Sys2Proof.Machine.execVerifierFlush k j s
  | .groupEnvelopeReceive k => Sys2Proof.Machine.execGroupEnvelopeReceive k s
  | .relayTailWrite k v => Sys2Proof.Machine.execRelayTailWrite k v s
  | .shareRefreshStart k slot => Sys2Proof.Machine.execShareRefreshStart k slot s
  | .shareRefreshRevert k slot => Sys2Proof.Machine.execShareRefreshRevert k slot s
  | .shareRefreshAbort k slot => Sys2Proof.Machine.execShareRefreshAbort k slot s
  | .shareRefreshDeadline k => Sys2Proof.Machine.execShareRefreshDeadline k s
  | .psetLoad k entry addr => Sys2Proof.Machine.execPsetLoad k entry addr s
  | .psetUnload k entry => Sys2Proof.Machine.execPsetUnload k entry s
  | .ksetLoad k entry addr => Sys2Proof.Machine.execKsetLoad k entry addr s
  | .ksetUnload k entry => Sys2Proof.Machine.execKsetUnload k entry s
  | .progLoad k addr => Sys2Proof.Machine.execProgLoad k addr s
  | .serviceRunStart k addr => Sys2Proof.Machine.execServiceRunStart k addr s
  | .serviceRunStop k addr => Sys2Proof.Machine.execServiceRunStop k addr s
  | .add q p d a b => Sys2Proof.Machine.execAdd q p d a b s
  | .sub q p d a b => Sys2Proof.Machine.execSub q p d a b s
  | .and q p d a b => Sys2Proof.Machine.execAnd q p d a b s
  | .or q p d a b => Sys2Proof.Machine.execOr q p d a b s
  | .xor q p d a b => Sys2Proof.Machine.execXor q p d a b s
  | .sll q p d a b => Sys2Proof.Machine.execSll q p d a b s
  | .srl q p d a b => Sys2Proof.Machine.execSrl q p d a b s
  | .sra q p d a b => Sys2Proof.Machine.execSra q p d a b s
  | .mul q p d a b => Sys2Proof.Machine.execMul q p d a b s
  | .mulhu q p d a b => Sys2Proof.Machine.execMulhu q p d a b s
  | .divu q p d a b => Sys2Proof.Machine.execDivu q p d a b s
  | .remu q p d a b => Sys2Proof.Machine.execRemu q p d a b s
  | .min q p d a b => Sys2Proof.Machine.execMin q p d a b s
  | .max q p d a b => Sys2Proof.Machine.execMax q p d a b s
  | .minu q p d a b => Sys2Proof.Machine.execMinu q p d a b s
  | .maxu q p d a b => Sys2Proof.Machine.execMaxu q p d a b s
  | .clz q p d a => Sys2Proof.Machine.execClz q p d a s
  | .popc q p d a => Sys2Proof.Machine.execPopc q p d a s
  | .addi q p d a imm => Sys2Proof.Machine.execAddi q p d a imm s
  | .andi q p d a imm => Sys2Proof.Machine.execAndi q p d a imm s
  | .ori q p d a imm => Sys2Proof.Machine.execOri q p d a imm s
  | .xori q p d a imm => Sys2Proof.Machine.execXori q p d a imm s
  | .slli q p d a imm => Sys2Proof.Machine.execSlli q p d a imm s
  | .srli q p d a imm => Sys2Proof.Machine.execSrli q p d a imm s
  | .srai q p d a imm => Sys2Proof.Machine.execSrai q p d a imm s
  | .muli q p d a imm => Sys2Proof.Machine.execMuli q p d a imm s
  | .movi q p d imm => Sys2Proof.Machine.execMovi q p d imm s
  | .movk q p k d imm => Sys2Proof.Machine.execMovk q p k d imm s
  | .cmp q p c d a b => Sys2Proof.Machine.execCmp q p c d a b s
  | .cmpi q p c d a imm => Sys2Proof.Machine.execCmpi q p c d a imm s
  | .pand q p d a b => Sys2Proof.Machine.execPand q p d a b s
  | .por q p d a b => Sys2Proof.Machine.execPor q p d a b s
  | .pxor q p d a b => Sys2Proof.Machine.execPxor q p d a b s
  | .pnot q p d a => Sys2Proof.Machine.execPnot q p d a s
  | .pset q p d v => Sys2Proof.Machine.execPset q p d v s
  | .pmov q p d => Sys2Proof.Machine.execPmov q p d s
  | .pld q p a => Sys2Proof.Machine.execPld q p a s
  | .ld q p size sx d a imm => Sys2Proof.Machine.execLd q p size sx d a imm s
  | .loadReturn q => Sys2Proof.Machine.execLoadReturn q s
  | .st q p size d a imm => Sys2Proof.Machine.execSt q p size d a imm s
  | .amoAdd q p d a b => Sys2Proof.Machine.execAmoAdd q p d a b s
  | .amoCas q p d a b => Sys2Proof.Machine.execAmoCas q p d a b s
  | .sync q p => Sys2Proof.Machine.execSync q p s
  | .syncRetire q => Sys2Proof.Machine.execSyncRetire q s
  | .b q p imm => Sys2Proof.Machine.execB q p imm s
  | .call q p imm => Sys2Proof.Machine.execCall q p imm s
  | .brr q p a => Sys2Proof.Machine.execBrr q p a s
  | .callr q p a => Sys2Proof.Machine.execCallr q p a s
  | .dld q p d a imm => Sys2Proof.Machine.execDld q p d a imm s
  | .dsv q p d a imm => Sys2Proof.Machine.execDsv q p d a imm s
  | .dget q p d a f => Sys2Proof.Machine.execDget q p d a f s
  | .dset q p d a f => Sys2Proof.Machine.execDset q p d a f s
  | .dadv q p d a => Sys2Proof.Machine.execDadv q p d a s
  | .dcpy q p d a => Sys2Proof.Machine.execDcpy q p d a s
  | .crd q p d j => Sys2Proof.Machine.execCrd q p d j s
  | .cwr q p a j => Sys2Proof.Machine.execCwr q p a j s
  | .take q p d a => Sys2Proof.Machine.execTake q p d a s
  | .takeW q p d a b => Sys2Proof.Machine.execTakeW q p d a b s
  | .takeWWake q => Sys2Proof.Machine.execTakeWWake q s
  | .issue q p n a imm => Sys2Proof.Machine.execIssue q p n a imm s
  | .issueQueueRoom q => Sys2Proof.Machine.execIssueQueueRoom q s
  | .cread q p d n => Sys2Proof.Machine.execCread q p d n s
  | .cwait q p n d a b => Sys2Proof.Machine.execCwait q p n d a b s
  | .cwaitWake q => Sys2Proof.Machine.execCwaitWake q s
  | .epoch q p d => Sys2Proof.Machine.execEpoch q p d s
  | .epochwait q p a => Sys2Proof.Machine.execEpochwait q p a s
  | .epochwaitS q p e => Sys2Proof.Machine.execEpochwaitS q p e s
  | .epochwaitWake q => Sys2Proof.Machine.execEpochwaitWake q s
  | .sched q p d e => Sys2Proof.Machine.execSched q p d e s
  | .waypoint q p d => Sys2Proof.Machine.execWaypoint q p d s
  | .waypointWake q => Sys2Proof.Machine.execWaypointWake q s
  | .waypointC q p d => Sys2Proof.Machine.execWaypointC q p d s
  | .nop q p => Sys2Proof.Machine.execNop q p s
  | .pend q p => Sys2Proof.Machine.execPend q p s
  | .trap q p code => Sys2Proof.Machine.execTrap q p code s
  | .eret q p => Sys2Proof.Machine.execEret q p s
  | .note q p a => Sys2Proof.Machine.execNote q p a s
  | .portModeWrite n v => Sys2Proof.Machine.execPortModeWrite n v s
  | .channelTrained c => Sys2Proof.Machine.execChannelTrained c s
  | .laneFailure l => Sys2Proof.Machine.execLaneFailure l s
  | .channelDown c => Sys2Proof.Machine.execChannelDown c s
  | .frameDiscard chan fcs f => Sys2Proof.Machine.execFrameDiscard chan fcs f s
  | .neighborSolicitation chan fcs f => Sys2Proof.Machine.execNeighborSolicitation chan fcs f s
  | .dataPacketReceive chan fcs f => Sys2Proof.Machine.execDataPacketReceive chan fcs f s
  | .dataPacketSend key => Sys2Proof.Machine.execDataPacketSend key s
  | .ackReceive chan fcs f => Sys2Proof.Machine.execAckReceive chan fcs f s
  | .ackDelayExpiry snode seq => Sys2Proof.Machine.execAckDelayExpiry snode seq s
  | .retransmitTimeout key => Sys2Proof.Machine.execRetransmitTimeout key s
  | .pathSuspectEnd node path => Sys2Proof.Machine.execPathSuspectEnd node path s
  | .ratePeriod => Sys2Proof.Machine.execRatePeriod s
  | .lingerExpiry snode seq => Sys2Proof.Machine.execLingerExpiry snode seq s
  | .receiveAbandon snode seq => Sys2Proof.Machine.execReceiveAbandon snode seq s
  | .tpTimerWrite v => Sys2Proof.Machine.execTpTimerWrite v s
  | .tpRateWrite v => Sys2Proof.Machine.execTpRateWrite v s
  | .destCfgWrite j v => Sys2Proof.Machine.execDestCfgWrite j v s
  | .winRegister k addr => Sys2Proof.Machine.execWinRegister k addr s
  | .winRevoke k addr => Sys2Proof.Machine.execWinRevoke k addr s
  | .winQuery k addr => Sys2Proof.Machine.execWinQuery k addr s
  | .binCancel k j => Sys2Proof.Machine.execBinCancel k j s
  | .binQuery k j => Sys2Proof.Machine.execBinQuery k j s
  | .unexpectedAgeExpiry k id => Sys2Proof.Machine.execUnexpectedAgeExpiry k id s
  | .evtTailWrite k v => Sys2Proof.Machine.execEvtTailWrite k v s
  | .doorbellWrite f k d v t => Sys2Proof.Machine.execDoorbellWrite f k d v t s
  | .bar2Read f x n t => Sys2Proof.Machine.execBar2Read f x n t s
  | .bar2Write f x b t => Sys2Proof.Machine.execBar2Write f x b t s
  | .registerWrite f off n v t => Sys2Proof.Machine.execRegisterWrite f off n v t s
  | .info f => Sys2Proof.Machine.execInfo f s
  | .echo f => Sys2Proof.Machine.execEcho f s
  | .keyGenerate f => Sys2Proof.Machine.execKeyGenerate f s
  | .keyLoad f => Sys2Proof.Machine.execKeyLoad f s
  | .keyRetire f => Sys2Proof.Machine.execKeyRetire f s
  | .keyClear f => Sys2Proof.Machine.execKeyClear f s
  | .keyQuery f => Sys2Proof.Machine.execKeyQuery f s
  | .pubkeyGet f => Sys2Proof.Machine.execPubkeyGet f s
  | .attest f => Sys2Proof.Machine.execAttest f s
  | .attestLast f => Sys2Proof.Machine.execAttestLast f s
  | .keyRelease f => Sys2Proof.Machine.execKeyRelease f s
  | .certGet f => Sys2Proof.Machine.execCertGet f s
  | .modelLoad f => Sys2Proof.Machine.execModelLoad f s
  | .modelPageArrive k j ok page => Sys2Proof.Machine.execModelPageArrive k j ok page s
  | .modelFree f => Sys2Proof.Machine.execModelFree f s
  | .fwUpdate f => Sys2Proof.Machine.execFwUpdate f s
  | .fwCommitSvn f => Sys2Proof.Machine.execFwCommitSvn f s
  | .lcsNonce f => Sys2Proof.Machine.execLcsNonce f s
  | .lcsAdvance f => Sys2Proof.Machine.execLcsAdvance f s
  | .debugSet f => Sys2Proof.Machine.execDebugSet f s
  | .certInstall f => Sys2Proof.Machine.execCertInstall f s
  | .fwKeyRevoke f => Sys2Proof.Machine.execFwKeyRevoke f s
  | .shelfDefine f => Sys2Proof.Machine.execShelfDefine f s
  | .shelfQuery f => Sys2Proof.Machine.execShelfQuery f s
  | .tenantSwitch f => Sys2Proof.Machine.execTenantSwitch f s
  | .quietSet f => Sys2Proof.Machine.execQuietSet f s
  | .mailboxFixedRelease f => Sys2Proof.Machine.execMailboxFixedRelease f s
  | .spdmRequest b => Sys2Proof.Machine.execSpdmRequest b s
  | .getMeasurements index nonce => Sys2Proof.Machine.execGetMeasurements index nonce s
  | .ideKmKeyProg n set_ sub rx key => Sys2Proof.Machine.execIdeKmKeyProg n set_ sub rx key s
  | .ideKmKSetGo n set_ sub rx => Sys2Proof.Machine.execIdeKmKSetGo n set_ sub rx s
  | .ideKmKSetStop n set_ sub rx => Sys2Proof.Machine.execIdeKmKSetStop n set_ sub rx s
  | .ideKmQuery => Sys2Proof.Machine.execIdeKmQuery s
  | .ideIntegrityFailure n => Sys2Proof.Machine.execIdeIntegrityFailure n s
  | .lockInterfaceRequest k stream msix => Sys2Proof.Machine.execLockInterfaceRequest k stream msix s
  | .startInterfaceRequest k => Sys2Proof.Machine.execStartInterfaceRequest k s
  | .stopInterfaceRequest k => Sys2Proof.Machine.execStopInterfaceRequest k s
  | .getDeviceInterfaceReport k => Sys2Proof.Machine.execGetDeviceInterfaceReport k s
  | .lockedConfigWrite f c => Sys2Proof.Machine.execLockedConfigWrite f c s
  | .flrVf f => Sys2Proof.Machine.execFlrVf f s
  | .flrPf => Sys2Proof.Machine.execFlrPf s
  | .linkDown => Sys2Proof.Machine.execLinkDown s
  | .patrolScrubLine line => Sys2Proof.Machine.execPatrolScrubLine line s
  | .celRetryFull k => Sys2Proof.Machine.execCelRetryFull k s
  | .contextSwitch k target => Sys2Proof.Machine.execContextSwitch k target s
  | .contextDelete k target => Sys2Proof.Machine.execContextDelete k target s
  | .bayFault b bist => Sys2Proof.Machine.execBayFault b bist s
  | .shelfRestore k => Sys2Proof.Machine.execShelfRestore k s
  | .warmRestore k => Sys2Proof.Machine.execWarmRestore k s
  | .takeover k v status image => Sys2Proof.Machine.execTakeover k v status image s
  | .wearSample m unit v group => Sys2Proof.Machine.execWearSample m unit v group s
  | .healthDayClose => Sys2Proof.Machine.execHealthDayClose s
  | .healthHourlyEval => Sys2Proof.Machine.execHealthHourlyEval s
  | .i3cDynamicAddress a => Sys2Proof.Machine.execI3cDynamicAddress a s
  | .i3cPrivateWrite b => Sys2Proof.Machine.execI3cPrivateWrite b s
  | .i3cPrivateRead n => Sys2Proof.Machine.execI3cPrivateRead n s
  | .i3cEnec => Sys2Proof.Machine.execI3cEnec s
  | .perstLRelease x => Sys2Proof.Machine.execPerstLRelease x s
  | .pcieLinkUp flit rate width => Sys2Proof.Machine.execPcieLinkUp flit rate width s
  | .configSpaceWrite f c => Sys2Proof.Machine.execConfigSpaceWrite f c s
  | .msixVectorUnmask f v => Sys2Proof.Machine.execMsixVectorUnmask f v s
  | .instructionFetchFault q => Sys2Proof.Machine.execInstructionFetchFault q s
  | .registerRead f off n t => Sys2Proof.Machine.execRegisterRead f off n t s
  | .cellarChannelLost k c => Sys2Proof.Machine.execCellarChannelLost k c s

end Sys2Proof.Machine
end

