-- ==== Sys2Proof/Machine/Tick.lean ====
section
/-!
DEFINITION. What happens with time while no command waits: the clock goes on, buffered stores are performed (R305), channel fences reach
their shelves (R435), context switches that wait are taken (R449), and the management port sends an interrupt (R586).
-/
namespace Sys2Proof.Machine

/-- One tick of 1 ns. [log 1 DESIGN CHOICE, 181 DESIGN CHOICE, 189 DESIGN CHOICE] -/
def tick (s : State) : State :=
  let s := advanceClk (s.clk + 1) s
  let s := (List.range 64).foldl (fun s q => performOldest q s) s
  let s := settleFences s
  let s := (List.range 8).foldl (fun s k => ctxSettle k s) s
  i3cSend s

end Sys2Proof.Machine
end

