-- ==== Sys2Proof/Safety.lean ====
section
/-!
DEFINITION. The words in which statements about the machine are written: a command that answers, what a step or a run meets, and what an
effect leaves alone.
-/
namespace Sys2Proof

open Sys2Proof.Machine

/-- The step of a state answers a next state that meets P. -/
def StepMeets (P : State → Prop) (s : State) : Prop := ∃ t, step s = .next t ∧ P t

/-- n steps from s all answer, and every state on the way meets P. -/
def RunMeets (P : State → Prop) : Nat → State → Prop
  | 0, s => P s
  | n + 1, s => P s ∧ ∃ t, step s = .next t ∧ RunMeets P n t

/-- Command c answers a next state on s, and it meets P. -/
def Answers (c : Instr) (s : State) (P : State → Prop) : Prop := ∃ t, exec c s = .next t ∧ P t

/-- Command c leaves s as it is. -/
def Idles (c : Instr) (s : State) : Prop := exec c s = .next s

/-- One more than x, in a counter of n bits that stays at its highest value. -/
def up (n x : Nat) : Nat := min (x + 1) (2 ^ n - 1)

/-! ### Sequencers -/

/-- Sequencer q is about to execute word w, which its program store holds without error, and its predicate holds (R293, R302). -/
def Runs (s : State) (q : Nat) (w : Word) (p : Pred) : Prop := atWord s q w = true ∧ fixedAt s q = false ∧ predHolds p (s.seq q) = true

/-- Nothing but sequencer q has changed: no other sequencer, no queue, no byte of memory, no other state. -/
def OnlySeq (q : Nat) (s t : State) : Prop := t = { s with seqs := t.seqs } ∧ ∀ r, r ≠ q → t.seq r = s.seq r

/-- An instruction of sequencer q has retired: PC is at the next word, one more instruction has retired (R298, R300). -/
def Retired (x y : Seq) : Prop := y.pc = x.pc + 8 ∧ y.retired = x.retired + 1 ∧ y.run = .running ∧ y.wait = .none

/-- The instruction has written v to gD and nothing else, g0 excepted (R298). -/
def WritesG (q : Nat) (d : BitVec 5) (v : Word) (s t : State) : Prop :=
  OnlySeq q s t ∧ Retired (s.seq q) (t.seq q) ∧
  t.seq q = { s.seq q with g := (t.seq q).g, pc := (t.seq q).pc, retired := (t.seq q).retired, run := .running, wait := .none } ∧
  (t.seq q).gr d = (if d = 0 then 0 else v) ∧ ∀ r, r ≠ d → (t.seq q).gr r = (s.seq q).gr r

/-- The instruction has written v to pD and nothing else, p0 excepted (R298). -/
def WritesP (q : Nat) (d : Nat) (v : Bool) (s t : State) : Prop :=
  OnlySeq q s t ∧ Retired (s.seq q) (t.seq q) ∧
  t.seq q = { s.seq q with p := (t.seq q).p, pc := (t.seq q).pc, retired := (t.seq q).retired, run := .running, wait := .none } ∧
  (t.seq q).pr d = (if d = 0 then true else v) ∧ ∀ r, r < 8 → r ≠ d → (t.seq q).pr r = (s.seq q).pr r

/-- The instruction has written v to dD and nothing else (R298). -/
def WritesD (q : Nat) (d : BitVec 5) (v : VDesc) (s t : State) : Prop :=
  OnlySeq q s t ∧ Retired (s.seq q) (t.seq q) ∧
  t.seq q = { s.seq q with d := (t.seq q).d, pc := (t.seq q).pc, retired := (t.seq q).retired, run := .running, wait := .none } ∧
  (t.seq q).dr d = v ∧ ∀ r, r ≠ d → (t.seq q).dr r = (s.seq q).dr r

/-- The instruction has gone to a target and written r31 where it is a call (R303, R309). -/
def Branches (q : Nat) (target : Word) (call : Bool) (s t : State) : Prop :=
  OnlySeq q s t ∧ (t.seq q).pc = target.toNat ∧ (t.seq q).retired = (s.seq q).retired + 1 ∧
  t.seq q = { s.seq q with g := (t.seq q).g, pc := target.toNat, retired := (t.seq q).retired, run := .running, wait := .none } ∧
  (call = true → (t.seq q).gr 31 = BitVec.ofNat 64 ((s.seq q).pc + 8)) ∧
  ∀ r, (call = false ∨ r ≠ 31) → (t.seq q).gr r = (s.seq q).gr r

/-! ### Engine commands -/

/-- Queue n of sequencer q presents the intact descriptor d of a kind to its unit, for shelf k, which is not fenced (R326, R327, R332, R542). -/
def Presents (s : State) (q n k kind : Nat) (d : Bytes) : Prop :=
  presents s q n kind = true ∧ headDesc s q n = d ∧ layoutOk d = true ∧ shelfOf s (q / 4) = some k ∧ (s.shelf k).fenced = false

/-- Entries l of queue QSEL n have been refused with PARAM_UNSUPPORTED: each is of no kind, or of one that the class does not take, and l' are
the commands in flight that they became (R326, R335). -/
def Refused (n : Nat) (l : List QEntry) (l' : List InFlight) : Prop :=
  (∀ e ∈ l, e.bad = false ∧ (kindDefined (dKind e.desc) && classOk n (dKind e.desc)) = false) ∧
  l'.map (·.desc) = l.map (·.desc) ∧ ∀ c ∈ l', c.result = some .paramUnsupported

/-- The head command of queue n of sequencer q has been accepted with result r: it has left its entry for the commands in flight, and the
counter has not moved (R324, R327, R329). Entries l behind it that no unit takes have been refused with it. -/
def Accepted (q n : Nat) (r : Option Status) (s t : State) : Prop :=
  (t.queue q n).wp = (s.queue q n).wp ∧ (t.queue q n).count = (s.queue q n).count ∧
  ∃ c l l', (s.queue q n).entries.tail = l ++ (t.queue q n).entries ∧ Refused n l l' ∧ (t.queue q n).rp = ((s.queue q n).rp + 1 + l.length) % 512 ∧
    (t.queue q n).inflight = (s.queue q n).inflight ++ c :: l' ∧ c.result = r ∧ c.desc = headDesc s q n

/-- The shelves' bays are as they were, but for the turns of their units (R328). -/
def SameBays (s t : State) : Prop := ∀ b, t.bay b = { s.bay b with turns := (t.bay b).turns }

/-- Tile SEL of Cask ci of bay b is a tile of its Keg, its rows lie in its area, and no line of the area or of the Keg carries an error mark. -/
def CaskSound (s : State) (b ci : Nat) : Prop :=
  let c := s.cask b ci
  c.sel ≤ c.tilesM1 ∧ (∀ r ∈ c.live, r < c.rows) ∧ (∀ i < c.areaAt.2, markOf s (storeAddr b (c.areaAt.1 + i)) = none) ∧
  ∀ i < c.kegAt.2, markOf s (loftAddr b (c.kegAt.1 + i)) = none

/-- Every line that n shelf-relative bytes of shelf k at a meet is in place and carries no mark (R35, R37). -/
def Clean (s : State) (k a n : Nat) : Prop := ∀ x ∈ (linesOf a n).filterMap (dev? s k), fencedAt s x = false ∧ markOf s x = none

/-! ### Mailbox requests (R409-R412) -/

/-- Function f's request with opcode op and payload p waits for the island, which serves it on its merits. -/
def Asks (s : State) (f op : Nat) (p : Bytes) : Prop :=
  mbxWaits s f op = true ∧ s.isl.lockdown = false ∧ reqOk (s.fn f).mbx = true ∧ fnServed s f = true ∧ reqPay (s.fn f).mbx = p

/-- The request of function f with opcode op has been answered with a status and a payload; FIXED_MBX holds the response back. -/
def Replied (f op : Nat) (st : Status) (pay : Bytes) (s t : State) : Prop :=
  let m := (s.fn f).mbx
  let r := respBytes op (reqTag m) st pay
  if fixedMbx s f then (t.fn f).mbx = { m with held := some r }
  else (t.fn f).mbx = { m with resp := r, busy := false, done := true, last := st.code, held := none }

/-- Memory reads alike in two states. -/
def SameMem (s t : State) : Prop := ∀ a, memGet t.mem a = memGet s.mem a

/-- Memory reads alike outside n bytes at x, where it reads as the bytes b. -/
def MemWritten (x : Nat) (b : Bytes) (s t : State) : Prop :=
  ∀ a, memGet t.mem a = if x ≤ a ∧ a < x + b.length then b.getD (a - x) 0 else memGet s.mem a

end Sys2Proof
end

