-- ==== Sys2Proof/Certificates/Slice0/Obligations.lean ====
section
/-!
DEFINITION. The statements for the provers, family by family. Each docstring names the rules of the manual that the statement puts in Lean, or the
model's own choice that it rests on.
-/

open Sys2Proof Sys2Proof.Machine

/-! ### The machine as a whole -/

/-- Every command answers a next state, in every state and for every operand: what the spec turns away completes with the status, the discard or the exception that it names, and none stops the machine (the model's reading, log 7). What that state is, the statements below say command by command. -/
def Claim.EveryCommandCompletes : Prop :=
  ∀ (c : Instr) (s : State), ∃ t, exec c s = .next t

/-- Every command answers a next state, in every state: none ends in a fault or a refusal. -/
def Obligations.EveryCommandCompletes : Prop :=
  Claim.EveryCommandCompletes

/-- A step of a state with a command at the front of its queue is the command's effect on the state with the queue's rest; on an empty queue a nanosecond passes (the model's choice, log 1). -/
def Claim.StepRunsCommand : Prop :=
  (∀ (c : Instr) (rest : List Instr) (s : State), s.pending = c :: rest → step s = exec c { s with pending := rest }) ∧
  (∀ s : State, s.pending = [] → StepMeets (fun t => s.clk < t.clk ∧ t.pending = []) s)

/-- A step runs the command at the front of the queue on the rest; an empty queue lets time pass. -/
def Obligations.StepRunsCommand : Prop :=
  Claim.StepRunsCommand

/-- R5, R46, R53, R293, R299, R427, R458, R517, R571: after reset no shelf is defined, no round is active, no sequencer runs, memory lists nothing, no command waits, the device is not started. -/
def Claim.ResetState : Prop :=
  let s := State.reset
  s.pending = [] ∧ s.mem = [] ∧ s.marks = [] ∧ s.clk = 0 ∧ s.dev.ready = false ∧ s.dev.halted = false ∧ s.dev.pwrgd = false ∧ s.tim.state = .free ∧ s.tpEn = false ∧
  (∀ k, (s.shelf k).desc = none ∧ (s.shelf k).round.active = false ∧ (s.shelf k).round.outcome = .none_ ∧ (s.shelf k).prog.loaded = false) ∧
  (∀ q, (s.seq q).run = .idle ∧ (s.seq q).pc = 0 ∧ (s.seq q).hmode = false ∧ ∀ r, (s.seq q).gr r = 0) ∧
  (∀ q n, (s.queue q n).entries = [] ∧ (s.queue q n).count = 0) ∧ (∀ n, (s.slot n).cur = none ∧ (s.slot n).prev = none) ∧ ∀ b, (s.bay b).casks = []

/-- The memory's list is in its one canonical form. -/
def Claim.MemoryForm : Prop := ∀ s t : State, memWf s.mem = true → step s = .next t → memWf t.mem = true

/-- Every step keeps the memory in its canonical form. -/
def Obligations.MemoryForm : Prop :=
  Claim.MemoryForm

/-- The memory after reset is in the canonical form. -/
def Claim.ResetMemory : Prop := memWf State.reset.mem = true

/-- The state after reset: nothing defined, started, listed or held, and its memory in the canonical form. -/
def Obligations.ResetState : Prop :=
  Claim.ResetState ∧ Claim.ResetMemory

/-! ### Sequencer instructions (11_sequencer_isa.md) -/

/-- R303, R304: an R-format arithmetic instruction writes its result to gD, and nothing else changes. -/
def Claim.ScalarRegisterResults : Prop :=
  ∀ (q : Nat) (p : Pred) (d a b : BitVec 5) (s : State),
    (∀ e ∈ [
        (Instr.add, 0x00, fun x y : Word => x + y), (Instr.sub, 0x01, fun x y => x - y), (Instr.and, 0x02, fun x y => x &&& y),
        (Instr.or, 0x03, fun x y => x ||| y), (Instr.xor, 0x04, fun x y => x ^^^ y),
        (Instr.sll, 0x05, fun x y => x <<< (y.toNat % 64)), (Instr.srl, 0x06, fun x y => x >>> (y.toNat % 64)),
        (Instr.sra, 0x07, fun x y => x.sshiftRight (y.toNat % 64)), (Instr.mul, 0x08, fun x y => x * y),
        (Instr.mulhu, 0x09, fun x y => BitVec.ofNat 64 (x.toNat * y.toNat / 2 ^ 64)),
        (Instr.divu, 0x0A, fun x y => if y.toNat = 0 then BitVec.ofNat 64 (2 ^ 64 - 1) else BitVec.ofNat 64 (x.toNat / y.toNat)),
        (Instr.remu, 0x0B, fun x y => if y.toNat = 0 then x else BitVec.ofNat 64 (x.toNat % y.toNat)),
        (Instr.min, 0x0C, fun x y => if x.toInt ≤ y.toInt then x else y), (Instr.max, 0x0D, fun x y => if x.toInt ≤ y.toInt then y else x),
        (Instr.minu, 0x0E, fun x y => if x.toNat ≤ y.toNat then x else y), (Instr.maxu, 0x0F, fun x y => if x.toNat ≤ y.toNat then y else x)],
      Runs s q (wordR 0x01 e.2.1 p d a b) p →
      Answers (e.1 q p d a b) s (WritesG q d (e.2.2 ((s.seq q).gr a) ((s.seq q).gr b)) s)) ∧
    (Runs s q (wordR 0x01 0x10 p d a 0) p → ∃ n ≤ 64, Answers (.clz q p d a) s (WritesG q d (BitVec.ofNat 64 n) s) ∧
      ((s.seq q).gr a).toNat < 2 ^ (64 - n) ∧ (n < 64 → 2 ^ (63 - n) ≤ ((s.seq q).gr a).toNat)) ∧
    (Runs s q (wordR 0x01 0x11 p d a 0) p → Answers (.popc q p d a) s
      (WritesG q d (BitVec.ofNat 64 ((List.range 64).countP (fun i => ((s.seq q).gr a).getLsbD i))) s))

/-- R303, R304: an I-format arithmetic instruction and the moves write their result to gD, and nothing else changes. -/
def Claim.ScalarImmediateResults : Prop :=
  ∀ (q : Nat) (p : Pred) (d a : BitVec 5) (imm : BitVec 32) (s : State),
    (∀ e ∈ [
        (Instr.addi, 0x00, fun x y : Word => x + y), (Instr.andi, 0x02, fun x y => x &&& y), (Instr.ori, 0x03, fun x y => x ||| y),
        (Instr.xori, 0x04, fun x y => x ^^^ y), (Instr.slli, 0x05, fun x y => x <<< (y.toNat % 64)),
        (Instr.srli, 0x06, fun x y => x >>> (y.toNat % 64)), (Instr.srai, 0x07, fun x y => x.sshiftRight (y.toNat % 64)),
        (Instr.muli, 0x08, fun x y => x * y)],
      Runs s q (wordI 0x02 e.2.1 p d a imm) p →
      Answers (e.1 q p d a imm) s (WritesG q d (e.2.2 ((s.seq q).gr a) (imm.signExtend 64)) s)) ∧
    (Runs s q (wordI 0x03 0x00 p d 0 imm) p → Answers (.movi q p d imm) s (WritesG q d (imm.signExtend 64) s)) ∧
    (∀ (k : BitVec 2) (h : BitVec 16), Runs s q (wordI 0x03 (k.toNat + 1) p d 0 (h.zeroExtend 32)) p →
      ∃ v : Word, Answers (.movk q p k d h) s (WritesG q d v s) ∧ v.extractLsb' (16 * k.toNat) 16 = h ∧
        ∀ i, i < 64 → i / 16 ≠ k.toNat → v.getLsbD i = ((s.seq q).gr d).getLsbD i)

/-- Scalar instructions write their result to gD and change nothing else. -/
def Obligations.ScalarResults : Prop :=
  Claim.ScalarRegisterResults ∧ Claim.ScalarImmediateResults

/-- R303: compares and predicate operations write pD (PMOV gD, PLD p1 to p7), and nothing else changes. -/
def Claim.PredicateResults : Prop :=
  ∀ (q : Nat) (p : Pred) (d a b : BitVec 5) (imm : BitVec 32) (s : State),
    (∀ e ∈ [
        (Cond.eq, 0x00, fun x y : Word => decide (x.toNat = y.toNat)), (Cond.ne, 0x01, fun x y => decide (x.toNat ≠ y.toNat)),
        (Cond.lt, 0x02, fun x y => decide (x.toInt < y.toInt)), (Cond.ge, 0x03, fun x y => decide (y.toInt ≤ x.toInt)),
        (Cond.ltu, 0x04, fun x y => decide (x.toNat < y.toNat)), (Cond.geu, 0x05, fun x y => decide (y.toNat ≤ x.toNat))],
      (Runs s q (wordR 0x04 e.2.1 p d a b) p →
        Answers (.cmp q p e.1 d a b) s (WritesP q d.toNat (e.2.2 ((s.seq q).gr a) ((s.seq q).gr b)) s)) ∧
      (Runs s q (wordI 0x05 e.2.1 p d a imm) p →
        Answers (.cmpi q p e.1 d a imm) s (WritesP q d.toNat (e.2.2 ((s.seq q).gr a) (imm.signExtend 64)) s))) ∧
    (∀ e ∈ [
        (Instr.pand, 0x00, fun x y : Bool => x && y), (Instr.por, 0x01, fun x y => x || y), (Instr.pxor, 0x02, fun x y => x != y)],
      Runs s q (wordR 0x06 e.2.1 p d a b) p →
      Answers (e.1 q p d a b) s (WritesP q d.toNat (e.2.2 ((s.seq q).pr a.toNat) ((s.seq q).pr b.toNat)) s)) ∧
    (Runs s q (wordR 0x06 0x03 p d a 0) p → Answers (.pnot q p d a) s (WritesP q d.toNat (!(s.seq q).pr a.toNat) s)) ∧
    (∀ v : Bool, Runs s q (wordI 0x06 0x04 p d 0 (if v then 1 else 0)) p → Answers (.pset q p d v) s (WritesP q d.toNat v s)) ∧
    (Runs s q (wordR 0x06 0x05 p d 0 0) p → ∃ v : Word, Answers (.pmov q p d) s (WritesG q d v s) ∧
      ∀ i, i < 64 → v.getLsbD i = (decide (i < 8) && (s.seq q).pr i)) ∧
    (Runs s q (wordR 0x06 0x06 p 0 a 0) p → Answers (.pld q p a) s (fun t =>
      OnlySeq q s t ∧ Retired (s.seq q) (t.seq q) ∧ (t.seq q).g = (s.seq q).g ∧ (t.seq q).d = (s.seq q).d ∧
      (t.seq q).pr 0 = true ∧ ∀ i, 1 ≤ i → i < 8 → (t.seq q).pr i = ((s.seq q).gr a).getLsbD i))

/-- R303, R309: a branch to a multiple of 8 below TEXT_LEN goes there, CALL and CALLR write PC + 8 to g31 (CALLR after it has read gA), and nothing else changes. -/
def Claim.BranchResults : Prop :=
  ∀ (q : Nat) (p : Pred) (a : BitVec 5) (imm : BitVec 32) (s : State),
    let rel := BitVec.ofNat 64 (s.seq q).pc + 8 * imm.signExtend 64
    let legal := fun t : Word => t.toNat % 8 = 0 ∧ t.toNat < textLen s q
    (Runs s q (wordI 0x10 0x00 p 0 0 imm) p → legal rel → Answers (.b q p imm) s (Branches q rel false s)) ∧
    (Runs s q (wordI 0x10 0x01 p 0 0 imm) p → legal rel → Answers (.call q p imm) s (Branches q rel true s)) ∧
    (Runs s q (wordR 0x10 0x02 p 0 a 0) p → legal ((s.seq q).gr a) → Answers (.brr q p a) s (Branches q ((s.seq q).gr a) false s)) ∧
    (Runs s q (wordR 0x10 0x03 p 0 a 0) p → legal ((s.seq q).gr a) → Answers (.callr q p a) s (Branches q ((s.seq q).gr a) true s))

/-- R309, R317, R318: a branch to any other target raises FETCH, with EADDR the target, EPC the branch and no other effect. -/
def Claim.BranchFaults : Prop :=
  ∀ (q : Nat) (p : Pred) (a : BitVec 5) (imm : BitVec 32) (s : State),
    let x := s.seq q
    let rel := BitVec.ofNat 64 x.pc + 8 * imm.signExtend 64
    let legal := fun t : Word => t.toNat % 8 = 0 ∧ t.toNat < textLen s q
    let faults := fun (target : Word) (t : State) => OnlySeq q s t ∧
      t.seq q = { x with epc := BitVec.ofNat 64 x.pc, ecause := 2, eaddr := target, wait := .none, hmode := true, run := .running
                         pc := x.evec.toNat / 8 % 2 ^ 14 * 8 }
    x.hmode = false → x.evec.getLsbD 0 = true →
    (Runs s q (wordI 0x10 0x00 p 0 0 imm) p → ¬legal rel → Answers (.b q p imm) s (faults rel)) ∧
    (Runs s q (wordI 0x10 0x01 p 0 0 imm) p → ¬legal rel → Answers (.call q p imm) s (faults rel)) ∧
    (Runs s q (wordR 0x10 0x02 p 0 a 0) p → ¬legal (x.gr a) → Answers (.brr q p a) s (faults (x.gr a))) ∧
    (Runs s q (wordR 0x10 0x03 p 0 a 0) p → ¬legal (x.gr a) → Answers (.callr q p a) s (faults (x.gr a))) ∧
    (x.run = .running → textLen s q ≤ x.pc → Answers (.instructionFetchFault q) s (faults (BitVec.ofNat 64 x.pc)))

/-- A branch target outside the text or not a multiple of 8, and running past the text, raise FETCH. -/
def Obligations.BranchFaults : Prop :=
  Claim.BranchFaults

/-- R302: a sequencer instruction whose predicate does not hold retires with no effect. -/
def Claim.PredicatedOff : Prop :=
  ∀ (q : Nat) (p : Pred) (d a b : BitVec 5) (imm : BitVec 32) (n : BitVec 4) (j : BitVec 8) (h : BitVec 16) (s : State),
    predHolds p (s.seq q) = false →
    ∀ e ∈ [
        (Instr.add q p d a b, wordR 0x01 0x00 p d a b), (Instr.divu q p d a b, wordR 0x01 0x0A p d a b),
        (Instr.addi q p d a imm, wordI 0x02 0x00 p d a imm), (Instr.movi q p d imm, wordI 0x03 0x00 p d 0 imm),
        (Instr.cmp q p .lt d a b, wordR 0x04 0x02 p d a b), (Instr.pand q p d a b, wordR 0x06 0x00 p d a b),
        (Instr.ld q p 3 false d a imm, wordI 0x08 0x03 p d a imm), (Instr.st q p 3 d a imm, wordI 0x09 0x03 p d a imm),
        (Instr.amoAdd q p d a b, wordR 0x0A 0x00 p d a b), (Instr.sync q p, wordR 0x0B 0x00 p 0 0 0),
        (Instr.b q p imm, wordI 0x10 0x00 p 0 0 imm), (Instr.callr q p a, wordR 0x10 0x03 p 0 a 0),
        (Instr.dld q p d a imm, wordI 0x18 0x00 p d a imm), (Instr.dadv q p d a, wordR 0x18 0x04 p d a 0),
        (Instr.crd q p d j, wordI 0x20 0x00 p d 0 (j.zeroExtend 32)), (Instr.cwr q p a j, wordI 0x20 0x01 p 0 a (j.zeroExtend 32)),
        (Instr.takeW q p d a b, wordR 0x28 0x01 p d a b), (Instr.issue q p n a imm, wordI 0x30 n.toNat p 0 a imm),
        (Instr.cwait q p n d a b, wordR 0x31 (0x10 + n.toNat) p d a b), (Instr.epochwait q p a, wordR 0x38 0x01 p 0 a 0),
        (Instr.waypoint q p d, wordR 0x39 0x00 p d 0 0), (Instr.trap q p h, wordI 0x3F 0x02 p 0 0 (h.zeroExtend 32)),
        (Instr.eret q p, wordR 0x3F 0x03 p 0 0 0), (Instr.note q p a, wordR 0x3F 0x04 p 0 a 0), (Instr.pend q p, wordR 0x3F 0x01 p 0 0 0)],
      atWord s q e.2 = true → fixedAt s q = false →
      Answers e.1 s (fun t => OnlySeq q s t ∧ t.seq q = { s.seq q with pc := (s.seq q).pc + 8, retired := (s.seq q).retired + 1, run := .running, wait := .none })

/-- Predicates, predicated-off instructions and branches. -/
def Obligations.PredicatesAndBranches : Prop :=
  Claim.PredicateResults ∧ Claim.PredicatedOff ∧ Claim.BranchResults

/-- R308, R303: DGET, DSET, DADV and DCPY. -/
def Claim.DescriptorRegisterResults : Prop :=
  ∀ (q : Nat) (p : Pred) (d a : BitVec 5) (f : BitVec 4) (s : State),
    let x := s.seq q
    (Runs s q (wordI 0x18 0x02 p d a (f.zeroExtend 32)) p → f.toNat ≤ 8 →
      Answers (.dget q p d a f) s (WritesG q d
        (match f.toNat with
         | 0 => BitVec.ofNat 64 (x.dr a).base.toNat | 1 => BitVec.ofNat 64 (x.dr a).len.toNat | 2 => BitVec.ofNat 64 (x.dr a).rows.toNat
         | 3 => BitVec.ofInt 64 (x.dr a).stride.toInt | 4 => BitVec.ofNat 64 (x.dr a).off.toNat | 5 => BitVec.ofNat 64 (x.dr a).etype.toNat
         | 6 => BitVec.ofInt 64 (x.dr a).scaleE.toInt | 7 => BitVec.ofNat 64 (x.dr a).ring.toNat | _ => if (x.dr a).rsrc then 1 else 0) s)) ∧
    (Runs s q (wordI 0x18 0x03 p d a (f.zeroExtend 32)) p → f.toNat ≤ 8 →
      ∃ v, Answers (.dset q p d a f) s (WritesD q d v s) ∧
        v = { base := if f = 0 then BitVec.ofNat 48 (x.gr a).toNat else (x.dr d).base
              len := if f = 1 then BitVec.ofNat 32 (x.gr a).toNat else (x.dr d).len
              rows := if f = 2 then BitVec.ofNat 32 (x.gr a).toNat else (x.dr d).rows
              stride := if f = 3 then BitVec.ofNat 32 (x.gr a).toNat else (x.dr d).stride
              off := if f = 4 then BitVec.ofNat 32 (x.gr a).toNat else (x.dr d).off
              etype := if f = 5 then BitVec.ofNat 8 (x.gr a).toNat else (x.dr d).etype
              scaleE := if f = 6 then BitVec.ofNat 8 (x.gr a).toNat else (x.dr d).scaleE
              ring := if f = 7 then BitVec.ofNat 6 (x.gr a).toNat else (x.dr d).ring
              rsrc := if f = 8 then (x.gr a).getLsbD 0 else (x.dr d).rsrc }) ∧
    (Runs s q (wordR 0x18 0x04 p d a 0) p →
      ∃ v, Answers (.dadv q p d a) s (WritesD q d v s) ∧
        (let step := (x.gr a).toInt * (x.dr d).stride.toInt
         v = { x.dr d with
           base := if (x.dr d).rsrc then (x.dr d).base else BitVec.ofInt 48 ((x.dr d).base.toNat + step)
           off := if (x.dr d).rsrc then BitVec.ofInt 32 ((x.dr d).off.toNat + step) else (x.dr d).off })) ∧
    (Runs s q (wordR 0x18 0x05 p d a 0) p → Answers (.dcpy q p d a) s (WritesD q d (x.dr a) s)) ∧
    (8 < f.toNat → x.hmode = false → x.evec.getLsbD 0 = true → x.run = .running →
      fixedAt s q = false → (fetch s q = .word (wordI 0x18 0x02 p d a (f.zeroExtend 32)) ∨ fetch s q = .word (wordI 0x18 0x03 p d a (f.zeroExtend 32))) →
      Answers (.instructionFetchFault q) s (fun t => t = { s with seqs := t.seqs, draw := t.draw } ∧ (∀ r, r ≠ q → t.seq r = s.seq r) ∧
        t.seq q = { x with epc := BitVec.ofNat 64 x.pc, ecause := 1, eaddr := (t.seq q).eaddr, hmode := true, wait := .none
                           pc := x.evec.toNat / 8 % 2 ^ 14 * 8 }))

/-- Descriptor registers: fields read, set, stepped and copied; other field numbers raise ILLEGAL. -/
def Obligations.DescriptorRegisters : Prop :=
  Claim.DescriptorRegisterResults

/-- R300, R303, R312, R314, R315: CRD reads the control registers, CREAD a completion counter, EPOCH the epoch time, SCHED a schedule entry's time. -/
def Claim.ControlReadResults : Prop :=
  ∀ (q k : Nat) (p : Pred) (d : BitVec 5) (s : State), shelfOf s (q / 4) = some k →
    let x := s.seq q
    let h := s.shelf k
    let low := fun v : Nat => BitVec.ofNat 64 (if h.conf then v / 1024 * 1024 else v)
    (∀ e ∈ [
        (0x02, if h.round.active then BitVec.ofNat 64 h.round.desc.roundId else 0), (0x04, low x.retired),
        (0x05, BitVec.ofNat 64 x.inbox.length), (0x08, if x.hmode then (1 : Word) else 0), (0x09, x.epc), (0x0A, x.ecause), (0x0B, x.eaddr),
        (0x0C, x.evec), (0x10, tget 0 x.scratch 0), (0x11, tget 0 x.scratch 1), (0x12, tget 0 x.scratch 2), (0x13, tget 0 x.scratch 3)],
      Runs s q (wordI 0x20 0x00 p d 0 (BitVec.ofNat 32 e.1)) p → Answers (.crd q p d (BitVec.ofNat 8 e.1)) s (WritesG q d e.2 s)) ∧
    (Runs s q (wordI 0x20 0x00 p d 0 0) p → ∃ v : Word, Answers (.crd q p d 0) s (WritesG q d v s) ∧
      (q < 64 → h.bays.length ≤ 16 → h.bayIndex (q / 4) < 16 → k < 8 →
        v.toNat = q % 4 + 4 * h.bayIndex (q / 4) + 64 * k + 65536 * h.bays.length)) ∧
    (∀ n : BitVec 4, n.toNat ≤ 11 → Runs s q (wordR 0x31 n.toNat p d 0 0) p →
      Answers (.cread q p d n) s (WritesG q d (BitVec.ofNat 64 (s.queue q n.toNat).count.toNat) s)) ∧
    (Runs s q (wordR 0x38 0x00 p d 0 0) p → Answers (.epoch q p d) s (WritesG q d (BitVec.ofNat 64 s.epoch) s)) ∧
    (∀ e : BitVec 8, (tget {} h.sched e.toNat).kind ≠ 0 → Runs s q (wordI 0x38 0x03 p d 0 (e.zeroExtend 32)) p →
      Answers (.sched q p d e) s (WritesG q d (tget {} h.sched e.toNat).time s)) ∧
    (h.round.active = true → h.prog.service = false → Runs s q (wordR 0x39 0x01 p d 0 0) p →
      Answers (.waypointC q p d) s (WritesG q d (BitVec.ofNat 64 (if h.wpt.valid then h.wpt.doneTime else 0)) s)) ∧
    (Runs s q (wordI 0x20 0x00 p d 0 3) p → ∃ c ≥ x.cycle, Answers (.crd q p d 3) s (fun t =>
      t = { s with seqs := t.seqs, draw := t.draw } ∧ (∀ r, r ≠ q → t.seq r = s.seq r) ∧
      t.seq q = { x with g := (t.seq q).g, cycle := c, pc := x.pc + 8, retired := x.retired + 1, run := .running, wait := .none } ∧
      (t.seq q).gr d = (if d = 0 then 0 else low c) ∧ ∀ r, r ≠ d → (t.seq q).gr r = x.gr r)) ∧
    (Runs s q (wordR 0x3F 0x00 p 0 0 0) p → Answers (.nop q p) s (fun t =>
      OnlySeq q s t ∧ t.seq q = { x with pc := x.pc + 8, retired := x.retired + 1, run := .running, wait := .none }))

/-- R300: CWR writes ESTATUS, EPC, EVEC and SCRATCH0 to SCRATCH3, reserved bits staying zero, and no other register of the sequencer. -/
def Claim.ControlWriteResults : Prop :=
  ∀ (q : Nat) (p : Pred) (a : BitVec 5) (j : BitVec 8) (s : State), Runs s q (wordI 0x20 0x01 p 0 a (j.zeroExtend 32)) p →
    let x := s.seq q
    let v := x.gr a
    ((j = 0x08 ∨ j = 0x09 ∨ j = 0x0C ∨ (0x10 ≤ j.toNat ∧ j.toNat ≤ 0x13)) → Answers (.cwr q p a j) s (fun t =>
      OnlySeq q s t ∧ Retired x (t.seq q) ∧ (t.seq q).g = x.g ∧ (t.seq q).p = x.p ∧ (t.seq q).d = x.d ∧
      (t.seq q).ecause = x.ecause ∧ (t.seq q).eaddr = x.eaddr ∧
      (t.seq q).hmode = (if j = 0x08 then v.getLsbD 0 else x.hmode) ∧ (t.seq q).epc = (if j = 0x09 then v else x.epc) ∧
      (t.seq q).evec = (if j = 0x0C then BitVec.ofNat 64 (v.toNat % 2 + v.toNat / 8 % 2 ^ 14 * 8) else x.evec) ∧
      ∀ i, i < 4 → tget 0 (t.seq q).scratch i = if j.toNat = 0x10 + i then v else tget 0 x.scratch i)) ∧
    (¬(j = 0x08 ∨ j = 0x09 ∨ j = 0x0C ∨ (0x10 ≤ j.toNat ∧ j.toNat ≤ 0x13)) → x.hmode = false → x.evec.getLsbD 0 = true →
      Answers (.cwr q p a j) s (fun t => t = { s with seqs := t.seqs, draw := s.draw + 1 } ∧ (∀ r, r ≠ q → t.seq r = s.seq r) ∧
        t.seq q = { x with epc := BitVec.ofNat 64 x.pc, ecause := 1, eaddr := (t.seq q).eaddr, hmode := true, run := .running, wait := .none
                           pc := x.evec.toNat / 8 % 2 ^ 14 * 8 }))

/-- Control registers, counters and times are read into gD, and the writable ones written. -/
def Obligations.ControlRegisters : Prop :=
  Claim.ControlReadResults ∧ Claim.ControlWriteResults

/-! ### Sequencer instructions that touch memory, queues and time -/

/-- R305, R299: LD and DLD of an aligned, reachable address wait for their data, with nothing else changed. -/
def Claim.LoadResults : Prop :=
  ∀ (q k : Nat) (p : Pred) (size : BitVec 2) (sx : Bool) (d a : BitVec 5) (imm : BitVec 32) (s : State), shelfOf s (q / 4) = some k →
    let x := s.seq q
    let ad := (x.gr a + imm.signExtend 64).toNat
    let n := 2 ^ size.toNat
    let bytes := fun (ad n : Nat) => (List.range n).map (fun i => forward x.stores (ad + i) (vbyte s k (ad + i)))
    let waits := fun (w : Wait) (t : State) => OnlySeq q s t ∧ t.seq q = { x with run := .waiting, wait := w }
    let met := fun (ad n : Nat) => (inProgress s k).any (fun r => overlap ad n r.1 r.2)
    (Runs s q (wordI 0x08 (size.toNat + (if sx then 4 else 0)) p d a imm) p → ad % n = 0 → seqAccess s q ad n = true →
      Answers (.ld q p size sx d a imm) s (waits (.load d n sx ad))) ∧
    (Runs s q (wordI 0x18 0x00 p d a imm) p → ad % 32 = 0 → seqAccess s q ad 32 = true →
      Answers (.dld q p d a imm) s (waits (.loadDesc d ad))) ∧
    (∀ (m ad : Nat), x.wait = .load d m sx ad → mmio? ad = none → met ad m = true →
      ∃ l : Bytes, l.length = m ∧ (∀ i < m, met (ad + i) 1 = false → l.getD i 0 = (bytes ad m).getD i 0) ∧
        Answers (.loadReturn q) s (fun t => WritesG q d
          (if sx then BitVec.ofInt 64 (sext (8 * m) (leNat l)) else BitVec.ofNat 64 (leNat l)) { s with draw := t.draw } t)) ∧
    (∀ (m ad : Nat), x.wait = .load d m sx ad → mmio? ad = none → met ad m = false → vstat s k ad m = .ok →
      Answers (.loadReturn q) s (WritesG q d
        (if sx then BitVec.ofInt 64 (sext (8 * m) (leNat (bytes ad m))) else BitVec.ofNat 64 (leNat (bytes ad m))) (noteRead k ad m s))) ∧
    (∀ ad : Nat, x.wait = .loadDesc d ad → mmio? ad = none → met ad 32 = false → vstat s k ad 32 = .ok →
      Answers (.loadReturn q) s (WritesD q d (imgParse (bytes ad 32)) (noteRead k ad 32 s)))

/-- R307, R317: of a load, store or AMO, misalignment raises ALIGN before an unreachable address raises ADDRESS, each with EADDR the address, before any effect. -/
def Claim.AccessFaults : Prop :=
  ∀ (q k : Nat) (p : Pred) (size : BitVec 2) (d a b : BitVec 5) (imm : BitVec 32) (s : State), shelfOf s (q / 4) = some k →
    let x := s.seq q
    let ad := (x.gr a + imm.signExtend 64).toNat
    let n := 2 ^ size.toNat
    let faults := fun (cause addr : Word) (t : State) => OnlySeq q s t ∧
      t.seq q = { x with epc := BitVec.ofNat 64 x.pc, ecause := cause, eaddr := addr, wait := .none, hmode := true, run := .running
                         pc := x.evec.toNat / 8 % 2 ^ 14 * 8 }
    let amo := fun cause : Word =>
      (Runs s q (wordR 0x0A 0x00 p d a b) p → Answers (.amoAdd q p d a b) s (faults cause (x.gr a))) ∧
      (Runs s q (wordR 0x0A 0x01 p d a b) p → Answers (.amoCas q p d a b) s (faults cause (x.gr a)))
    let access := fun cause : Word =>
      (Runs s q (wordI 0x08 size.toNat p d a imm) p → Answers (.ld q p size false d a imm) s (faults cause (BitVec.ofNat 64 ad))) ∧
      (Runs s q (wordI 0x09 size.toNat p d a imm) p → Answers (.st q p size d a imm) s (faults cause (BitVec.ofNat 64 ad)))
    x.hmode = false → x.evec.getLsbD 0 = true →
    (ad % n ≠ 0 → access 3) ∧ (ad % n = 0 → seqAccess s q ad n = false → access 4) ∧
    ((x.gr a).toNat % 8 ≠ 0 → amo 3) ∧
    ((x.gr a).toNat % 8 = 0 → inLoft (s.shelf k) (x.gr a).toNat 8 = false → inStore (s.shelf k) (x.gr a).toNat 8 = false → amo 4)

/-- Loads wait and return their data; misalignment comes before an unreachable address. -/
def Obligations.LoadsAndAccessFaults : Prop :=
  Claim.LoadResults ∧ Claim.AccessFaults

/-- R305, R306, R299: ST and DSV add a store to the buffer, the oldest performed first where 16 stand in it, and write no byte themselves. -/
def Claim.StoreResults : Prop :=
  ∀ (q : Nat) (p : Pred) (size : BitVec 2) (d a : BitVec 5) (imm : BitVec 32) (s : State),
    let x := s.seq q
    let ad := (x.gr a + imm.signExtend 64).toNat
    let n := 2 ^ size.toNat
    let s₁ := if x.stores.length < 16 then s else performOldest q s
    let buffers := fun (data : Bytes) (t : State) => OnlySeq q s₁ t ∧
      t.seq q = { s₁.seq q with pc := (s₁.seq q).pc + 8, retired := (s₁.seq q).retired + 1, run := .running, wait := .none
                                stores := (s₁.seq q).stores ++ [{ addr := ad, data := data }] }
    (Runs s q (wordI 0x09 size.toNat p d a imm) p → ad % n = 0 → seqAccess s q ad n = true →
      Answers (.st q p size d a imm) s (buffers (toLe n (x.gr d).toNat))) ∧
    (Runs s q (wordI 0x18 0x01 p d a imm) p → ad % 32 = 0 → seqAccess s q ad 32 = true →
      Answers (.dsv q p d a imm) s (buffers (imgBytes (x.dr d)))) ∧
    (Runs s q (wordR 0x0B 0x00 p 0 0 0) p →
      Answers (.sync q p) s (fun t => OnlySeq q s t ∧
        t.seq q = if x.stores = [] then { x with pc := x.pc + 8, retired := x.retired + 1, run := .running, wait := .none }
          else { x with run := .waiting, wait := .sync })) ∧
    (x.wait = .sync → Answers (.syncRetire q) s (fun t =>
      t = (performStores q s).onSeq q (fun y => { y with pc := y.pc + 8, retired := y.retired + 1, run := .running, wait := .none })))

/-- R305, R38: when the one buffered store of a sequencer is performed, within one line that can be written, exactly its bytes of memory change. -/
def Claim.StorePerformed : Prop :=
  ∀ (q k x : Nat) (e : PendingStore) (s : State), shelfOf s (q / 4) = some k → (s.seq q).wait = .sync → (s.seq q).stores = [e] →
    mmio? e.addr = none → e.data ≠ [] → e.addr % 64 + e.data.length ≤ 64 → dev? s k e.addr = some x → fencedAt s x = false → markOf s x = none →
    Answers (.syncRetire q) s (fun t => (t.seq q).stores = [] ∧
      ∀ y, memGet t.mem y = if x ≤ y ∧ y < x + e.data.length then e.data.getD (y - x) 0 else memGet s.mem y)

/-- Stores are buffered, performed oldest first, and change only their own bytes. -/
def Obligations.StoresAndSync : Prop :=
  Claim.StoreResults ∧ Claim.StorePerformed

/-- R307: AMO.ADD and AMO.CAS at an 8-byte-aligned Loft or bay-store address read the word into gD and write the new word, and no other byte. -/
def Claim.AtomicResults : Prop :=
  ∀ (q k x : Nat) (p : Pred) (d a b : BitVec 5) (s : State), shelfOf s (q / 4) = some k →
    let ad := ((s.seq q).gr a).toNat
    let s₁ := performStores q s
    let old := BitVec.ofNat 64 (leNat (vread s₁ k ad 8))
    let gives := fun (new : Word) (t : State) =>
      (t.seq q).pc = (s₁.seq q).pc + 8 ∧ (t.seq q).gr d = (if d = 0 then 0 else old) ∧ (∀ r, r ≠ d → (t.seq q).gr r = (s₁.seq q).gr r) ∧
      ∀ y, memGet t.mem y = if x ≤ y ∧ y < x + 8 then (toLe 8 new.toNat).getD (y - x) 0 else memGet s₁.mem y
    ad % 8 = 0 → (inLoft (s.shelf k) ad 8 || inStore (s.shelf k) ad 8) = true → openRange s k ad 8 = true →
    shelfOf s₁ (q / 4) = some k → vstat s₁ k ad 8 = .ok → dev? s₁ k ad = some x → markOf s₁ x = none →
    (Runs s q (wordR 0x0A 0x00 p d a b) p → Answers (.amoAdd q p d a b) s (gives (old + (s₁.seq q).gr b))) ∧
    (Runs s q (wordR 0x0A 0x01 p d a b) p →
      Answers (.amoCas q p d a b) s (gives (if old = (s₁.seq q).gr d then (s₁.seq q).gr b else old)))

/-- R103, R310: TAKE, TAKE.W and TAKE_W_WAKE write the 64-byte record at the head of the inbox to the bay-store address gA, take it from the inbox and set pD. -/
def Claim.TakeResults : Prop :=
  ∀ (q k : Nat) (p : Pred) (d a b : BitVec 5) (s : State), shelfOf s (q / 4) = some k → (s.seq q).stores = [] →
    let x := s.seq q
    let ad := (x.gr a).toNat
    let gives := fun (pd : Nat) (ad : Nat) (r : CrateRecord) (rest : List CrateRecord) (t : State) =>
      t.mem = (vwrite s k ad (recordBytes r)).mem ∧ (t.seq q).inbox = rest ∧ (t.seq q).pr pd = true ∧
      (t.seq q).pc = x.pc + 8 ∧ (t.seq q).g = x.g ∧ (t.seq q).d = x.d
    (ad % 64 = 0 → inOwnStore s q ad 64 = true →
      (Runs s q (wordR 0x28 0x00 p d a 0) p →
        (x.inbox = [] → Answers (.take q p d a) s (WritesP q d.toNat false s)) ∧
        (∀ r rest, x.inbox = r :: rest → Answers (.take q p d a) s (gives d.toNat ad r rest))) ∧
      (Runs s q (wordR 0x28 0x01 p d a b) p →
        (x.inbox = [] → x.gr b ≠ 0 → (x.gr b).toNat ≤ s.epoch → Answers (.takeW q p d a b) s (WritesP q d.toNat false s)) ∧
        (x.inbox = [] → (x.gr b = 0 ∨ s.epoch < (x.gr b).toNat) → Answers (.takeW q p d a b) s (fun t => OnlySeq q s t ∧
          t.seq q = { x with run := .waiting, wait := .take d ad (x.gr b) })) ∧
        (∀ r rest, x.inbox = r :: rest → Answers (.takeW q p d a b) s (gives d.toNat ad r rest)))) ∧
    (∀ (pd : BitVec 5) (ad : Nat) (dl : Word) (r : CrateRecord) (rest : List CrateRecord), x.wait = .take pd ad dl → pd.toNat < 8 →
      x.inbox = r :: rest → Answers (.takeWWake q) s (gives pd.toNat ad r rest))

/-- Atomic operations and TAKE. -/
def Obligations.AtomicsAndTake : Prop :=
  Claim.AtomicResults ∧ Claim.TakeResults

/-- R311, R324: ISSUE of a descriptor that can be read places its 64 bytes at the end of the queue named, the write pointer moves on modulo 512. -/
def Claim.IssueResults : Prop :=
  ∀ (q k : Nat) (p : Pred) (n : BitVec 4) (a : BitVec 5) (imm : BitVec 32) (s : State), shelfOf s (q / 4) = some k → (s.seq q).stores = [] →
    let x := s.seq q
    let ad := (x.gr a + imm.signExtend 64).toNat
    let desc := vread s k ad 64
    let placed := fun (n : Nat) (desc : Bytes) (t : State) =>
      (∃ l l', (s.queue q n).entries.map (·.desc) ++ [desc] = (l ++ (t.queue q n).entries).map (·.desc) ∧ Refused n l l' ∧
        (t.queue q n).inflight = (s.queue q n).inflight ++ l') ∧ (t.queue q n).wp = ((s.queue q n).wp + 1) % 512 ∧
      (t.queue q n).count = (s.queue q n).count ∧ (t.seq q).pc = x.pc + 8 ∧ (t.seq q).g = x.g ∧ t.mem = s.mem ∧
      ∀ r m, m < 16 → ¬(r = q ∧ m = n) → t.queue r m = s.queue r m
    (Runs s q (wordI 0x30 n.toNat p 0 a imm) p → ad % 64 = 0 → inOwnStore s q ad 64 = true → vstat s k ad 64 = .ok → noteRead k ad 64 s = s →
      ((s.queue q n.toNat).entries.length < 256 → Answers (.issue q p n a imm) s (placed n.toNat desc)) ∧
      (256 ≤ (s.queue q n.toNat).entries.length → Answers (.issue q p n a imm) s (fun t => OnlySeq q s t ∧
        t.seq q = { x with run := .waiting, wait := .queueFull n.toNat desc }))) ∧
    (∀ (m : Nat) (b : Bytes), x.wait = .queueFull m b → m < 12 → (s.queue q m).entries.length < 256 →
      Answers (.issueQueueRoom q) s (placed m b))

/-- R312: a counter c reaches n when (c − n) mod 2^32 is below 2^31. -/
def Claim.CounterWaits : Prop :=
  ∀ (q : Nat) (p : Pred) (n : BitVec 4) (d a b : BitVec 5) (s : State), (s.seq q).stores = [] →
    let x := s.seq q
    let c := (s.queue q n.toNat).count.toNat
    let goal := (x.gr a).toNat % 2 ^ 32
    let late := x.gr b ≠ 0 ∧ (x.gr b).toNat ≤ s.epoch
    (Runs s q (wordR 0x31 (0x10 + n.toNat) p d a b) p →
      ((c + 2 ^ 32 - goal) % 2 ^ 32 < 2 ^ 31 → Answers (.cwait q p n d a b) s (WritesP q d.toNat true s)) ∧
      (2 ^ 31 ≤ (c + 2 ^ 32 - goal) % 2 ^ 32 → late → Answers (.cwait q p n d a b) s (WritesP q d.toNat false s)) ∧
      (2 ^ 31 ≤ (c + 2 ^ 32 - goal) % 2 ^ 32 → ¬late → Answers (.cwait q p n d a b) s (fun t => OnlySeq q s t ∧
        t.seq q = { x with run := .waiting, wait := .counter d n.toNat (BitVec.ofNat 32 goal) (x.gr b) }))) ∧
    (∀ (pd : BitVec 5) (m : Nat) (v : BitVec 32) (dl : Word), x.wait = .counter pd m v dl → pd.toNat < 8 →
      ((s.queue q m).count.toNat + 2 ^ 32 - v.toNat) % 2 ^ 32 < 2 ^ 31 →
      Answers (.cwaitWake q) s (WritesP q pd.toNat true s))

/-- R314, R315: EPOCHWAIT and EPOCHWAIT.S retire at once when epoch time has reached their time and wait otherwise, EPOCHWAIT_WAKE retires with the clock at it. -/
def Claim.TimeWaits : Prop :=
  ∀ (q k : Nat) (p : Pred) (d a : BitVec 5) (e : BitVec 8) (s : State), shelfOf s (q / 4) = some k → (s.seq q).stores = [] →
    let x := s.seq q
    let h := s.shelf k
    let waits := fun (w : Wait) (t : State) => OnlySeq q s t ∧ t.seq q = { x with run := .waiting, wait := w }
    let done_ := fun t : State => OnlySeq q s t ∧ t.seq q = { x with pc := x.pc + 8, retired := x.retired + 1, run := .running, wait := .none }
    let goal := (tget {} h.sched e.toNat).time
    (Runs s q (wordR 0x38 0x01 p 0 a 0) p →
      ((x.gr a).toNat ≤ s.epoch → Answers (.epochwait q p a) s done_) ∧
      (s.epoch < (x.gr a).toNat → Answers (.epochwait q p a) s (waits (.epoch (x.gr a))))) ∧
    (Runs s q (wordI 0x38 0x02 p 0 0 (e.zeroExtend 32)) p → (tget {} h.sched e.toNat).kind ≠ 0 →
      (goal.toNat ≤ s.epoch → Answers (.epochwaitS q p e) s done_) ∧
      (s.epoch < goal.toNat → Answers (.epochwaitS q p e) s (waits (.epoch goal)))) ∧
    (∀ v : Word, x.wait = .epoch v → Answers (.epochwaitWake q) s (fun t =>
      t = (s.toEpoch v.toNat).onSeq q (fun y => { y with pc := y.pc + 8, retired := y.retired + 1, run := .running, wait := .none }))) ∧
    (Runs s q (wordR 0x39 0x00 p d 0 0) p → h.round.active = true → h.prog.service = false →
      Answers (.waypoint q p d) s (waits (.waypoint d h.wpt.cuts))) ∧
    (∀ (after n t : Nat) (later : List (Nat × Nat)), x.wait = .waypoint d after → after < n → h.wpt.ends = (n, t) :: later →
      Answers (.waypointWake q) s (WritesG q d (BitVec.ofNat 64 t) s))

/-- ISSUE, counter waits and time waits. -/
def Obligations.IssueAndWaits : Prop :=
  Claim.IssueResults ∧ Claim.CounterWaits ∧ Claim.TimeWaits

/-- R313, R296, R318: NOTE writes SEQ_NOTE, records a value lost, and raises the shelf's program interrupt. -/
def Claim.NotePendEret : Prop :=
  ∀ (q k : Nat) (p : Pred) (a : BitVec 5) (s : State), shelfOf s (q / 4) = some k → (s.seq q).stores = [] →
    let x := s.seq q
    (Runs s q (wordR 0x3F 0x04 p 0 a 0) p → Answers (.note q p a) s (fun t =>
      t = (signalShelf k 2 s).onSeq q (fun _ => { x with
        note := x.gr a, noteLost := x.noteLost || x.noteUnread, noteUnread := true, pc := x.pc + 8, retired := x.retired + 1
        run := .running, wait := .none }))) ∧
    (Runs s q (wordR 0x3F 0x01 p 0 0 0) p → Answers (.pend q p) s (fun t => OnlySeq q s t ∧
      t.seq q = { x with pc := x.pc + 8, retired := x.retired + 1, run := .idle, wait := .none, pended := true, hmode := false })) ∧
    (Runs s q (wordR 0x3F 0x03 p 0 0 0) p → x.hmode = true → Answers (.eret q p) s (fun t => OnlySeq q s t ∧
      t.seq q = { x with pc := x.epc.toNat / 8 % 2 ^ 14 * 8, retired := x.retired + 1, run := .running, wait := .none, hmode := false }))

/-- R317, R318, R309: TRAP raises cause TRAP with its code in ECAUSE[31:16], and INSTRUCTION_FETCH_FAULT raises FETCH past the text with EADDR the PC. -/
def Claim.TrapAndFetchFaults : Prop :=
  ∀ (q : Nat) (p : Pred) (code : BitVec 16) (s : State),
    let x := s.seq q
    let faults := fun (cause : Word) (t : State) => (∀ r, r ≠ q → t.seq r = s.seq r) ∧ t.mem = s.mem ∧ t.queues = s.queues ∧ t.shelves = s.shelves ∧
      t.seq q = { x with epc := BitVec.ofNat 64 x.pc, ecause := cause, eaddr := (t.seq q).eaddr, wait := .none, hmode := true, run := .running
                         pc := x.evec.toNat / 8 % 2 ^ 14 * 8 }
    x.hmode = false → x.evec.getLsbD 0 = true →
    (Runs s q (wordI 0x3F 0x02 p 0 0 (code.zeroExtend 32)) p →
      Answers (.trap q p code) s (faults (BitVec.ofNat 64 (9 + 65536 * code.toNat)))) ∧
    (x.run = .running → fetch s q = .past → Answers (.instructionFetchFault q) s (fun t => faults 2 t ∧ (t.seq q).eaddr = BitVec.ofNat 64 x.pc)) ∧
    (∀ w, x.run = .running → fetch s q = .word w → fixedAt s q = false → wordOk w = false → Answers (.instructionFetchFault q) s (faults 1))

/-- R318: a fault in handler mode, or with no handler enabled, is unhandled. -/
def Claim.UnhandledFaultInService : Prop :=
  ∀ (q k : Nat) (p : Pred) (code : BitVec 16) (s : State), shelfOf s (q / 4) = some k → (s.shelf k).round.active = false →
    ((s.seq q).hmode = true ∨ (s.seq q).evec.getLsbD 0 = false) → Runs s q (wordI 0x3F 0x02 p 0 0 (code.zeroExtend 32)) p →
    Answers (.trap q p code) s (fun t =>
      (t.seq q).run = .stopped ∧ (t.seq q).epc = BitVec.ofNat 64 (s.seq q).pc ∧ (t.seq q).ecause = BitVec.ofNat 64 (9 + 65536 * code.toNat) ∧
      (t.seq q).g = (s.seq q).g ∧ (∀ r, r ≠ q → t.seq r = s.seq r) ∧ t.mem = s.mem ∧
      t.host = (signalShelf k 2 s).host)

/-- R294, R317, R556: an instruction whose word the program store corrects counts once for the physical bay and once for the shelf, is held corrected. -/
def Claim.CorrectedWord : Prop :=
  ∀ (q k : Nat) (p : Pred) (d a b : BitVec 5) (imm : BitVec 32) (n : BitVec 4) (s : State), shelfOf s (q / 4) = some k → fixedAt s q = true →
    let u := fetched q s
    (∀ e ∈ [
        (Instr.add q p d a b, wordR 0x01 0x00 p d a b), (Instr.addi q p d a imm, wordI 0x02 0x00 p d a imm),
        (Instr.movi q p d imm, wordI 0x03 0x00 p d 0 imm), (Instr.cmp q p .lt d a b, wordR 0x04 0x02 p d a b),
        (Instr.ld q p 3 false d a imm, wordI 0x08 0x03 p d a imm), (Instr.st q p 3 d a imm, wordI 0x09 0x03 p d a imm),
        (Instr.amoAdd q p d a b, wordR 0x0A 0x00 p d a b), (Instr.b q p imm, wordI 0x10 0x00 p 0 0 imm),
        (Instr.dld q p d a imm, wordI 0x18 0x00 p d a imm), (Instr.takeW q p d a b, wordR 0x28 0x01 p d a b),
        (Instr.issue q p n a imm, wordI 0x30 n.toNat p 0 a imm), (Instr.cwait q p n d a b, wordR 0x31 (0x10 + n.toNat) p d a b),
        (Instr.epochwait q p a, wordR 0x38 0x01 p 0 a 0), (Instr.waypoint q p d, wordR 0x39 0x00 p d 0 0),
        (Instr.note q p a, wordR 0x3F 0x04 p 0 a 0), (Instr.pend q p, wordR 0x3F 0x01 p 0 0 0)],
      atWord s q e.2 = true → exec e.1 s = exec e.1 u ∧ atWord u q e.2 = true) ∧
    fixedAt u q = false ∧ u.seqs = s.seqs ∧ u.mem = s.mem ∧ u.queues = s.queues ∧
    (u.shelf k).counts.psCorr = sat 16 1 (s.shelf k).counts.psCorr ∧
    tget 0 u.health.psCorr (s.physOf (q / 4)) = sat 16 1 (tget 0 s.health.psCorr (s.physOf (q / 4)))

/-- NOTE, PEND, ERET, traps and faults with and without a handler. -/
def Obligations.SequencerExceptions : Prop :=
  Claim.NotePendEret ∧ Claim.TrapAndFetchFaults ∧ Claim.UnhandledFaultInService ∧ Claim.CorrectedWord

/-- R301 and the worked words of the chapter. -/
def Claim.InstructionWords : Prop :=
  wordR 0x28 0x01 { qp := 0, qn := false } 1 4 5 = 0x280100_90A0000000 ∧
  wordI 0x10 0x00 { qp := 1, qn := true } 0 0 0x0000000B = 0x10003000_0000000B ∧
  wordI 0x10 0x00 { qp := 0, qn := false } 0 0 0xFFFFFFF5 = 0x10000000_FFFFFFF5 ∧
  wordI 0x30 0x02 { qp := 0, qn := false } 0 6 0x40 = 0x30020018_00000040 ∧
  wordOk 0x280100_90A0000000 = true ∧ wordOk 0x10003000_0000000B = true ∧ wordOk 0x30020018_00000040 = true ∧
  wordOk 0 = false ∧ wordOk 0x08070000_00000000 = false ∧ wordOk 0x300C0000_00000000 = false ∧ wordOk 0x02050000_00000040 = false

/-- Words of sequencer instructions are those of the encoding table. -/
def Obligations.InstructionWords : Prop :=
  Claim.InstructionWords

/-! ### Engine queues (12_engine_queues.md) -/

/-- R335, R337, R338: WAITQ with legal targets and FENCE with SCOPE 0 or 1 hold their queue in flight without a result, NOP completes OK at acceptance. -/
def Claim.QueueControlAccepted : Prop :=
  ∀ (q n k : Nat) (d : Bytes) (s : State),
    let takes := fun (r : Option Status) (t : State) => Accepted q n r s t ∧ t.mem = s.mem ∧ t.seqs = s.seqs ∧ t.shelves = s.shelves ∧ t.bays = s.bays
    (Presents s q n k 0x3C d →
      (∀ t, (s.shelf k).seqs[field d 8 1]? = some t → field d 9 1 ≤ 11 → ¬(t = q ∧ field d 9 1 = n) → Answers (.waitq q n) s (takes none)) ∧
      ((s.shelf k).seqs[field d 8 1]? = none → Answers (.waitq q n) s (takes (some .paramUnsupported))) ∧
      (11 < field d 9 1 → Answers (.waitq q n) s (takes (some .paramUnsupported))) ∧
      ((s.shelf k).seqs[field d 8 1]? = some q → field d 9 1 = n → Answers (.waitq q n) s (takes (some .paramUnsupported)))) ∧
    (Presents s q n k 0x3D d →
      Answers (.fence q n) s (takes (if field d 8 1 ≤ 1 then none else some .paramUnsupported))) ∧
    (Presents s q n k 0x3E d → Answers (.queueNop q n) s (takes (some .ok)))

/-- R329, R342: counting the oldest command in flight, where no record is due, adds exactly 1 to its queue's counter whatever its status. -/
def Claim.CompletionCounted : Prop :=
  ∀ (q n : Nat) (c : InFlight) (rest : List InFlight) (st : Status) (s : State),
    n < 12 → (s.queue q n).inflight = c :: rest → c.result = some st → (s.qerr q).qrec.getLsbD 0 = false →
    Answers (.commandComplete q n) s (fun t =>
      (t.queue q n).count = (s.queue q n).count + 1 ∧
      (∃ l l', (s.queue q n).entries = l ++ (t.queue q n).entries ∧ Refused n l l' ∧ (t.queue q n).inflight = rest ++ l') ∧
      (t.queue q n).halted = ((s.queue q n).halted || (c.desc.getD 1 0).getLsbD 1 && !(st == .ok || st == .provisional)) ∧
      (t.qerr q).first = (if (s.qerr q).first = 0 ∧ st ≠ .ok ∧ st ≠ .provisional then st.code else (s.qerr q).first) ∧
      (t.qerr q).nonok = (if st = .ok ∨ st = .provisional then (s.qerr q).nonok else min ((s.qerr q).nonok + 1) 65535) ∧
      t.seqs = s.seqs ∧ (c.kind ∉ [0x03, 0x12, 0x13, 0x14] → t.shelves = s.shelves ∧ t.mem = s.mem) ∧
      (∀ k x, shelfOf s (q / 4) = some k →
        (∀ e ∈ (s.shelf k).intake.rings, ∀ i < e.2.middleSize, dev? s k (e.2.middleBase + i) ≠ some x) → memGet t.mem x = memGet s.mem x) ∧
      ∀ r m, m < 16 → ¬(r = q ∧ m = n) → t.queue r m = s.queue r m)

/-- R339, R325, R335: with none in flight, a head entry that no unit takes completes in its place. -/
def Claim.UnacceptedCompletes : Prop :=
  ∀ (q n : Nat) (e : QEntry) (rest : List QEntry) (s : State),
    let u := s.queue q n
    let counts := fun (st : Status) (t : State) =>
      (t.queue q n).count = u.count + 1 ∧ (t.queue q n).recent.head? = some st ∧
      (∃ l, rest = l ++ (t.queue q n).entries ∧ Refused n l (t.queue q n).inflight ∧ (t.queue q n).rp = (u.rp + 1 + l.length) % 512) ∧
      t.seqs = s.seqs ∧ t.bays = s.bays ∧ (dKind e.desc ∉ [0x03, 0x12, 0x13, 0x14] → t.mem = s.mem)
    n < 12 → u.inflight = [] → u.entries = e :: rest → (s.qerr q).qrec.getLsbD 0 = false →
    (e.bad = true → Answers (.commandComplete q n) s (fun t => counts .uncorrectable t ∧ (t.queue q n).halted = u.halted ∧
      (t.qerr q).uncorr = min ((s.qerr q).uncorr + 1) 65535)) ∧
    (e.bad = false → u.halted = true → dKind e.desc ≠ 0x3D → Answers (.commandComplete q n) s (counts u.haltStatus)) ∧
    (e.bad = false → u.halted = false → (kindDefined (dKind e.desc) && classOk n (dKind e.desc)) = false → Answers (.commandComplete q n) s (counts .paramUnsupported))

/-- R330, R342: QREC takes EN and BASE_4K unless the area would leave the populated store, when the write is ignored and CFG_ERR is set. -/
def Claim.RecordAreaWrite : Prop :=
  ∀ (q : Nat) (v : Word) (s : State),
    Answers (.qrecWrite q v) s (fun t => t = { s with qerrs := t.qerrs } ∧ (∀ r, r ≠ q → t.qerr r = s.qerr r) ∧
      t.qerr q = if v.toNat / 4096 % 4096 * 4096 + 49152 ≤ 0xC00000
        then { s.qerr q with qrec := BitVec.ofNat 64 (v.toNat % 2 + v.toNat / 4096 % 4096 * 4096) }
        else { s.qerr q with cfgErr := true })

/-- Acceptance, completion, counting and records of queue commands. -/
def Obligations.QueueCommands : Prop :=
  Claim.QueueControlAccepted ∧ Claim.CompletionCounted ∧ Claim.UnacceptedCompletes ∧ Claim.RecordAreaWrite

/-! ### The host interface (15_host_interface.md, 18, 22) -/

/-- R413, R488: an SPDM request and GET_MEASUREMENTS are answered through the DOE mailbox, a FINISH_RSP brings the secured session up and an END_SESSION_ACK ends it. -/
def Claim.SpdmAndMeasurements : Prop :=
  ∀ (b nonce : Bytes) (index : BitVec 8) (s : State),
    let r := Config.spdmAnswer (b :: s.host.doe)
    (s.dev.halted = false → Answers (.spdmRequest b) s (fun t => t = { s with host := { s.host with
      doe := r :: s.host.doe, session := (if field r 1 1 = 0x65 then true else if field r 1 1 = 0x6C then false else s.host.session) } })) ∧
    (s.dev.halted = false → Answers (.getMeasurements index nonce) s (fun t => (∃ m, t.host.doe = m :: s.host.doe) ∧ t.host.session = s.host.session ∧ t.mem = s.mem ∧ t.chest = s.chest ∧
      t.shelves = s.shelves ∧ t.isl = s.isl)) ∧
    (s.dev.halted = true → Idles (.spdmRequest b) s ∧ Idles (.getMeasurements index nonce) s)

/-- R413, R414, R416: within a secured session IDE_KM programs a key, puts a programmed key into use, takes it out of use and answers a query. -/
def Claim.IdeKeys : Prop :=
  ∀ (n : BitVec 4) (set_ : BitVec 1) (sub : BitVec 2) (rx : Bool) (key : Bytes) (s : State),
    let i := set_.toNat * 6 + sub.toNat * 2 + (if rx then 1 else 0)
    let x := s.ide n.toNat
    let only := fun t : State => t = { s with host := { s.host with ide := t.host.ide, doe := t.host.doe } } ∧ (∃ m, t.host.doe = m :: s.host.doe) ∧
      ∀ j, j ≠ n.toNat → t.ide j = s.ide j
    (s.host.session = true → Answers (.ideKmKeyProg n set_ sub rx key) s (fun t => only t ∧ t.ide n.toNat = { x with keys := tput x.keys i key }) ∧
      (tmem x.keys i = true → Answers (.ideKmKSetGo n set_ sub rx) s (fun t => only t ∧ t.ide n.toNat = { x with going := insSet i x.going })) ∧
      (tmem x.keys i = false → Answers (.ideKmKSetGo n set_ sub rx) s (fun t => only t ∧ t.ide n.toNat = x)) ∧
      Answers (.ideKmKSetStop n set_ sub rx) s (fun t => only t ∧ i ∉ (t.ide n.toNat).going ∧ tmem (t.ide n.toNat).keys i = false) ∧
      Answers (.ideKmQuery) s (fun t => t = { s with host := { s.host with doe := Config.ideKmResponse [0, 1, 8] :: s.host.doe } })) ∧
    (s.host.session = false → Idles (.ideKmKeyProg n set_ sub rx key) s ∧ Idles (.ideKmKSetGo n set_ sub rx) s ∧
      Idles (.ideKmKSetStop n set_ sub rx) s ∧ Idles (.ideKmQuery) s) ∧
    Answers (.ideIntegrityFailure n) s (fun t => (t.ide n.toNat).insecure = true ∧ ((∀ k, k < 8 → (s.tdi k).isLocked = false) → t.mem = s.mem ∧ t.shelves = s.shelves) ∧ ∀ k, k < 8 →
      (if (s.tdi k).isLocked = true ∧ (s.tdi k).stream = n.toNat then (t.tdi k).state = .error ∧ (t.tdi k).cause = 2 else t.tdi k = s.tdi k))

/-- R414, R415, R416: LOCK_INTERFACE_REQUEST locks the TDI of a confidential shelf without round whose function's Memory Space and Bus Master are set over a Secure stream. -/
def Claim.TdiRequests : Prop :=
  ∀ (k : Nat) (stream : BitVec 3) (msix : Bool) (s : State),
    let x := s.tdi k
    let err := fun (code : Nat) (t : State) => t = { s with host := { s.host with doe := Config.tdispResponse [code, k, 1] :: s.host.doe } }
    let answered := fun (code : Nat) (t : State) => t.host.doe = Config.tdispResponse [code, k, 0] :: s.host.doe ∧ ∀ j, j ≠ k → t.tdi j = s.tdi j
    (s.host.session = true →
      (lockOk s k stream.toNat = true → Answers (.lockInterfaceRequest k stream msix) s (fun t => answered 1 t ∧ (t.tdi k).state = .locked ∧ (t.tdi k).stream = stream.toNat ∧
        (t.tdi k).msixLocked = msix ∧ t.mem = s.mem ∧ t.shelves = s.shelves)) ∧
      (lockOk s k stream.toNat = false → Answers (.lockInterfaceRequest k stream msix) s (err 1)) ∧
      (x.state = .locked → Answers (.startInterfaceRequest k) s (fun t => answered 2 t ∧ t.tdi k = { x with state := .run } ∧ t.mem = s.mem ∧ t.shelves = s.shelves)) ∧
      (x.state ≠ .locked → Answers (.startInterfaceRequest k) s (err 2)) ∧
      (∀ d, x.state ≠ .unlocked → (s.shelf k).desc = some d → Answers (.stopInterfaceRequest k) s (fun t => t.tdi k = {} ∧ (t.shelf k).desc = some d ∧ (t.shelf k).round.active = false ∧
        (∀ a, ownerAt s a = some k → memGet t.mem a = memGet [] a) ∧ t.host.doe = Config.tdispResponse [3, k, 0] :: s.host.doe)) ∧
      (x.state = .unlocked → Answers (.stopInterfaceRequest k) s (err 3)) ∧
      (x.isLocked = true → Answers (.getDeviceInterfaceReport k) s (fun t => ∃ m, t = { s with host := { s.host with doe := m :: s.host.doe } })) ∧
      (x.isLocked = false → Answers (.getDeviceInterfaceReport k) s (err 4))) ∧
    (s.host.session = false → Idles (.lockInterfaceRequest k stream msix) s ∧ Idles (.startInterfaceRequest k) s ∧
      Idles (.stopInterfaceRequest k) s ∧ Idles (.getDeviceInterfaceReport k) s)

/-- SPDM, IDE and TDISP requests. -/
def Obligations.SecuredHostLink : Prop :=
  Claim.SpdmAndMeasurements ∧ Claim.IdeKeys ∧ Claim.TdiRequests

/-- R400, R403, R408, R412, R415, R417, R418: an FLR of a virtual function has its request completed, empties its shelf and clears its MSI-X state and mailbox. -/
def Claim.FunctionResets : Prop :=
  ∀ (f : BitVec 4) (flit : Bool) (rate : BitVec 4) (width : BitVec 5) (s : State),
    let n := f.toNat
    let cleared := fun (n : Nat) (t : State) => (t.fn n).msixEn = false ∧ (t.fn n).unmasked = [] ∧ (t.fn n).waiting = [] ∧ (t.fn n).mbx = {}
    (∀ d, let u := completeRequest n s
      n ≠ 0 → fnExists s n = true → (u.shelf (n - 1)).desc = some d → Answers (.flrVf f) s (fun t => cleared n t ∧ (t.shelf (n - 1)).desc = some d ∧
      (t.shelf (n - 1)).round.active = false ∧ (∀ a, ownerAt u a = some (n - 1) → memGet t.mem a = memGet [] a) ∧
      ((u.tdi (n - 1)).isLocked = true → (t.tdi (n - 1)).state = .error ∧ (t.tdi (n - 1)).cause = 3))) ∧
    (fnExists s n = false → Idles (.flrVf f) s) ∧
    Answers (.flrPf) s (fun t => let u := completeRequest 0 s; cleared 0 t ∧ t = { u with host := { u.host with fns := t.host.fns } } ∧ ∀ j, j ≠ 0 → t.fn j = u.fn j) ∧
    Answers (.linkDown) s (fun t => t.host.vfEnable = false ∧ t.host.numVfs = 0 ∧ t.host.ide = [] ∧ t.host.session = false ∧ t.host.rate = 0 ∧
      (∀ k, k < 8 → (s.tdi k).isLocked = true → (t.tdi k).state = .error ∧ (t.tdi k).cause = 2) ∧
      ((∀ k, k < 8 → (s.tdi k).isLocked = false) → t = { detachLoads (fun _ => true) s with host := t.host } ∧ t.host.fns = [] ∧ t.host.tdis = s.host.tdis)) ∧
    let up := { s.host with flit := flit, noflit := !flit, width := width.toNat, rate := (if flit then rate.toNat else 1) }
    ((flit = true ∨ s.dev.recs = []) → Answers (.pcieLinkUp flit rate width) s (fun t => t = { s with host := up })) ∧
    (∀ r rest, flit = false → s.dev.recs = r :: rest →
      (tmem r.entries 11 = false → Answers (.pcieLinkUp flit rate width) s (fun t => t = { s with host := up })) ∧
      (tmem r.entries 11 = true → Answers (.pcieLinkUp flit rate width) s (fun t => t.mem = s.mem ∧ t.shelves = s.shelves ∧ t.host.noflit = true ∧ t.host.rate = 1 ∧
        ∃ r', t.dev.recs = r' :: rest ∧ (tget {} r'.entries 11).outcome = 3 ∧ (tget {} r'.entries 11).cause = 1 ∧ ∀ n, n ≠ 11 → tget {} r'.entries n = tget {} r.entries n)))

/-- R402, R403, R404, R408, R415: a configuration write of an existing function takes effect, a BAR without the address bits below its size. -/
def Claim.ConfigWrites : Prop :=
  ∀ (f : BitVec 4) (on : Bool) (v : BitVec 8) (a : Word) (data : BitVec 32) (s : State),
    let n := f.toNat
    let x := s.fn n
    let below := fun size a : Nat => a / size * size
    let only := fun t : State => t = { s with host := { s.host with fns := t.host.fns } } ∧ ∀ j, j ≠ n → t.fn j = s.fn j
    let told := fun (l : List Nat) (t : State) => t.host.sent = (l.map (fun v => (n, v))).reverse ++ s.host.sent ∧ (t.fn n).waiting = x.waiting.filter (fun v => !l.contains v)
    (fnExists s n = true → (n = 0 ∨ (s.tdi (n - 1)).isLocked = false) →
      Answers (.configSpaceWrite f (.busMaster on)) s (fun t => only t ∧ t.fn n = { x with master := on }) ∧
      Answers (.configSpaceWrite f (.memorySpace on)) s (fun t => only t ∧ t.fn n = { x with memSpace := on }) ∧
      Answers (.configSpaceWrite f (.d3hot on)) s (fun t => only t ∧ t.fn n = { x with d3hot := on }) ∧
      Answers (.configSpaceWrite f (.bar 2 a)) s (fun t => only t ∧ t.fn n = { x with bars := tput x.bars 2 (below x.bar2Size a.toNat) }) ∧
      Answers (.configSpaceWrite f (.bar2Size 9)) s (fun t => only t ∧ t.fn n = { x with bar2Size := 2 ^ 39, bars := tput x.bars 2 (below (2 ^ 39) (tget 0 x.bars 2)) }) ∧
      Answers (.configSpaceWrite f (.msixEnable true)) s (fun t => (t.fn n).msixEn = true ∧ told (x.waiting.filter (fun v => x.unmasked.contains v)) t ∧ t.mem = s.mem) ∧
      Answers (.msixVectorUnmask f ⟨v, a, data, true⟩) s (fun t => v.toNat ∉ (t.fn n).unmasked ∧ (∀ w, w ≠ v.toNat → (w ∈ (t.fn n).unmasked ↔ w ∈ x.unmasked)) ∧
        (t.fn n).table = tput x.table v.toNat (a.toNat / 4 * 4, data.toNat) ∧ t.mem = s.mem) ∧
      Answers (.msixVectorUnmask f ⟨v, a, data, false⟩) s (fun t => (t.fn n).unmasked = insSet v.toNat x.unmasked ∧ t.mem = s.mem ∧
        (t.fn n).table = tput x.table v.toNat (a.toNat / 4 * 4, data.toNat) ∧ (x.msixEn = true → told (x.waiting.filter (fun w => (insSet v.toNat x.unmasked).contains w)) t) ∧ (x.msixEn = false → told [] t))) ∧
    (fnExists s 0 = true → Answers (.configSpaceWrite 0 (.vfEnable true)) s (fun t => t = { s with host := { s.host with vfEnable := true } })) ∧
    (∀ c, fnExists s n = true → cfgLocked s n c = true → Answers (.lockedConfigWrite f c) s (fun t => (t.tdi (n - 1)).state = .error ∧ (t.tdi (n - 1)).cause = 1 ∧
      ∀ j, j ≠ n - 1 → t.tdi j = s.tdi j)) ∧
    (∀ c, cfgLocked s n c = false → Idles (.lockedConfigWrite f c) s) ∧
    (∀ c, fnExists s n = false → Idles (.configSpaceWrite f c) s ∧ Idles (.msixVectorUnmask f ⟨v, a, data, on⟩) s)

/-- Function resets, the link, and configuration space. -/
def Obligations.FunctionsAndConfig : Prop :=
  Claim.FunctionResets ∧ Claim.ConfigWrites

/-- R12, R13, R388, R403, R405, R407, R414, R556: an access that reaches a function's view reads or writes its register. -/
def Claim.RegisterAccesses : Prop :=
  ∀ (f : BitVec 4) (off : BitVec 26) (n : BitVec 7) (v : Word) (tee : Option (BitVec 3)) (s : State),
    let i := f.toNat
    let g := gate s i off.toNat tee
    let k := i - 1
    let returned := fun (b : Bytes) (t : State) => t.host.reads = (b, false) :: s.host.reads ∧ t.mem = s.mem ∧ t.seqs = s.seqs ∧ t.bays = s.bays
    let mine : BitVec 26 := BitVec.ofNat 26 (0x100000 + k * 0x10000 + 0x1930)
    let counted := fun (c : Health → Nat) (t : State) => c t.health = up 16 (c s.health) ∧ (i ≠ 0 → (t.shelf k).counts.access = up 16 (s.shelf k).counts.access)
    let db := fun (d : BitVec 8) => ((s.shelf k).reg 0x1930).toNat / 2 ^ 11 % 2 ^ 37 * 2048 + d.toNat * 8
    (g = .pass → off = 0 → n = 8 → Answers (.registerRead f off n tee) s (fun t => returned (toLe 8 Config.deviceId.toNat) t ∧ t = { s with host := t.host })) ∧
    (g = .pass → off = mine → n = 8 → 0 < i → i ≤ 8 → Answers (.registerWrite f off n v tee) s (fun t => t = s.setReg k 0x1930 (v &&& 0xFFFF_FFFF_F801)) ∧
      Answers (.registerRead f off n tee) s (returned (toLe 8 ((s.shelf k).reg 0x1930 &&& 0xFFFF_FFFF_F801).toNat))) ∧
    (∀ l r, g = .pass → doorbellAt i off.toNat = none → lanesOf off.toNat n.toNat = some l → fnReg s i (off.toNat / 8 * 8) = some r →
      Answers (.registerRead f off n tee) s (fun t => t.host.reads = (toLe n.toNat (r.read l s).1.toNat, false) :: (r.read l s).2.host.reads) ∧
      Answers (.registerWrite f off n v tee) s (fun t => t = r.put l v s)) ∧
    (g = .pass → doorbellAt i off.toNat = none → lanesOf off.toNat n.toNat = none → Answers (.registerRead f off n tee) s (fun t => returned (zeros n.toNat) t ∧ counted (·.size) t) ∧
      Answers (.registerWrite f off n v tee) s (fun t => counted (·.size) t ∧ t.mem = s.mem ∧ t.host = s.host)) ∧
    (g = .pass → doorbellAt i off.toNat = none → lanesOf off.toNat n.toNat ≠ none → fnReg s i (off.toNat / 8 * 8) = none →
      Answers (.registerRead f off n tee) s (fun t => returned (zeros n.toNat) t ∧ counted (·.view) t) ∧
      Answers (.registerWrite f off n v tee) s (fun t => counted (·.view) t ∧ t.mem = s.mem ∧ t.host = s.host)) ∧
    (g = .nonTee → Answers (.registerWrite f off n v tee) s (fun t => t = s.onCounts k (fun c => { c with nonTee := up 16 c.nonTee })) ∧
      Answers (.registerRead f off n tee) s (returned (zeros n.toNat))) ∧
    (g = .silent → Idles (.registerWrite f off n v tee) s ∧ Idles (.registerRead f off n tee) s) ∧
    (∀ (b : BitVec 3) (d : BitVec 8), b.toNat + 1 = i → gate s i (0x2000000 + k * 0x10000 + d.toNat * 8) tee = .pass →
      (((s.shelf k).reg 0x1930).getLsbD 0 = true → vstat s k (db d) 8 = .ok → Answers (.doorbellWrite f b d v tee) s (fun t =>
        t.mem = (vwrite s k (db d) (toLe 8 (leNat (vread s k (db d) 8) + v.toNat))).mem ∧ t.host = s.host ∧ t.bays = s.bays)) ∧
      (((s.shelf k).reg 0x1930).getLsbD 0 = false → Answers (.doorbellWrite f b d v tee) s (fun t => t = s.onCounts k (fun c => { c with dbDisc := up 16 c.dbDisc }))))

/-- R402, R406, R423, R436, R437: an access through BAR2 that reaches one line of the Cellar reads or writes it. -/
def Claim.Bar2Accesses : Prop :=
  ∀ (f : BitVec 4) (x : Nat) (n : BitVec 13) (b : Bytes) (tee : Option (BitVec 3)) (s : State),
    let i := f.toNat
    let open_ := linked s = true ∧ fnExists s i = true ∧ (s.fn i).d3hot = false ∧ globalOnly s = false ∧ fnServed s i = true ∧ teeCheck s i tee = .pass
    let zero := fun t : State => t.host.reads = (zeros n.toNat, false) :: s.host.reads ∧ t.mem = s.mem
    (∀ d y, open_ → apertureOf s i x n.toNat = some [(d, n.toNat, y)] → apertureBlock s false [(d, n.toNat, y)] = none → lineMark s (d / 64 * 64) = none →
      Answers (.bar2Read f x n tee) s (fun t => t = { s with host := { s.host with reads := (memRead s.mem d n.toNat, false) :: s.host.reads } })) ∧
    (∀ d y, open_ → apertureOf s i x b.length = some [(d, b.length, y)] → apertureBlock s true [(d, b.length, y)] = none → lineMark s d = none → b.length < 64 →
      Answers (.bar2Write f x b tee) s (fun t => t = { s with mem := t.mem } ∧ MemWritten d b s t)) ∧
    (∀ d y, open_ → apertureOf s i x n.toNat = some [(d, n.toNat, y)] → lineMark s (d / 64 * 64) = some .poisoned → apertureBlock s false [(d, n.toNat, y)] = none →
      Answers (.bar2Read f x n tee) s (fun t => t.mem = s.mem ∧ (∃ c, t.host.reads = (c, true) :: s.host.reads ∧ c.length = n.toNat) ∧ t.host.uncor = up 16 s.host.uncor)) ∧
    (∀ d y, open_ → apertureOf s i x n.toNat = some [(d, n.toNat, y)] → retiredAt s d = true → Answers (.bar2Read f x n tee) s zero) ∧
    (∀ d y, open_ → apertureOf s i x b.length = some [(d, b.length, y)] → retiredAt s d = true → Answers (.bar2Write f x b tee) s (fun t => t.mem = s.mem ∧
      (t.stack (pcOf d / 64)).retiredAcc = up 16 (s.stack (pcOf d / 64)).retiredAcc)) ∧
    (∀ d k a, open_ → apertureOf s i x b.length = some [(d, b.length, some (k, a))] → retiredAt s d = false → closedToHost s true k a b.length = true →
      Answers (.bar2Write f x b tee) s (fun t => t.mem = s.mem ∧ (t.shelf k).counts.bar2Disc = up 16 (s.shelf k).counts.bar2Disc)) ∧
    (open_ → apertureOf s i x b.length = none → Idles (.bar2Write f x b tee) s) ∧
    (open_ → apertureOf s i x n.toNat = none → Answers (.bar2Read f x n tee) s zero) ∧
    ((linked s = false ∨ (s.fn i).d3hot = true) → Idles (.bar2Read f x n tee) s ∧ Idles (.bar2Write f x b tee) s)

/-- Register, doorbell and Cellar accesses of host software. -/
def Obligations.HostAccesses : Prop :=
  Claim.RegisterAccesses ∧ Claim.Bar2Accesses

/-! ### Power, clocks and pace groups (19_power_clocks_time.md) -/

/-- R499, R500, R501: an active bay moves by one index towards its operating point. -/
def Claim.BayClocks : Prop :=
  ∀ (n : BitVec 5) (s : State),
    let i := n.toNat
    let x := s.clkOf i
    let want := 600 + 100 * runPoint s s.pow.group
    let active := i ∈ activeBays s
    let others := fun t : State => (∀ j, j ≠ i → t.clkOf j = s.clkOf j) ∧ t.mem = s.mem ∧ t.shelves = s.shelves ∧ t.seqs = s.seqs
    (active → x.stepping = false → x.stretched = false → x.droopAt = none → quietShelf s i = none →
      (x.mhz < want → Answers (.oppStep n) s (fun t => others t ∧ (t.clkOf i).mhz = min want (x.mhz + 100) ∧ (t.clkOf i).mv = mvAt (min want (x.mhz + 100)) false ∧ s.clk ≤ t.clk)) ∧
      (want < x.mhz → Answers (.oppStep n) s (fun t => others t ∧ (t.clkOf i).mhz = max want (x.mhz - 100) ∧ (t.clkOf i).mv = mvAt (max want (x.mhz - 100)) false ∧ s.clk ≤ t.clk))) ∧
    (active → x.stepping = false → x.stretched = true → quietShelf s i = none → x.mhz < want → Answers (.oppStep n) s (fun t => others t ∧
      t.clkOf i = { x with toMhz := min want (x.mhz + 100), toMv := mvAt (min want (x.mhz + 100)) false, stepping := true })) ∧
    (x.stepping = true → Answers (.oppStepResume n) s (fun t => others t ∧ (t.clkOf i).mhz = x.toMhz ∧ (t.clkOf i).mv = x.toMv ∧ (t.clkOf i).stepping = false ∧
      x.droopAt.getD 0 + 1000 ≤ t.clk)) ∧
    (x.stepping = false → Idles (.oppStepResume n) s) ∧
    (active → Answers (.droopDetect n none) s (fun t => others t ∧ t.clkOf i = { x with stretched := true, stretches := up 32 x.stretches, droopAt := some s.clk })) ∧
    (¬active → Idles (.oppStep n) s ∧ Idles (.droopDetect n none) s) ∧
    (x.stretched = true → s.pow.edpOn = false → Answers (.stretchEnd n) s (fun t => others t ∧ t.clkOf i = { x with stretched := false })) ∧
    ((x.stretched = false ∨ s.pow.edpOn = true) → Idles (.stretchEnd n) s)

/-- R497, R503, R504, R505: above the electrical design peak every active bay is stretched until the estimate falls below 95 %. -/
def Claim.PowerLimits : Prop :=
  ∀ (n : BitVec 5) (w a : Nat) (v : Word) (s : State),
    let i := n.toNat
    let x := s.clkOf i
    let c := s.pow.current
    let cap := v.toNat % 2 ^ 16
    let rest := fun t : State => t.mem = s.mem ∧ t.shelves = s.shelves ∧ t.seqs = s.seqs
    (s.peakW < w → Answers (.edpLimit w) s (fun t => rest t ∧ t.pow.edpOn = true ∧ t.pow.edpAt = some s.clk ∧ ∀ j ∈ activeBays s, (t.clkOf j).stretched = true ∧ (t.clkOf j).mhz = (s.clkOf j).mhz)) ∧
    (s.pow.edpOn = true → 100 * w < 95 * s.peakW → Answers (.edpLimit w) s (fun t => rest t ∧ t.pow.edpOn = false ∧ ∀ j ∈ activeBays s, (t.clkOf j).stretched = false)) ∧
    (w ≤ s.peakW → 95 * s.peakW ≤ 100 * w → Idles (.edpLimit w) s) ∧
    Answers (.currentSlopeTick a) s (fun t => rest t ∧ t.clk = s.clk + 100 ∧ t.pow = { s.pow with current := max (c - 15) (min (c + 15) a), slopeHold := max (c - 15) (min (c + 15) a) != a }) ∧
    (∀ b, logicalOf s i = some b → (s.dreg 0xC00018 0x3201).getLsbD 0 = true → latticeBusy s b = false → Answers (.latticeGate n) s (fun t => rest t ∧ t.clkOf i = { x with latGated := true })) ∧
    ((s.dreg 0xC00018 0x3201).getLsbD 0 = false → Idles (.latticeGate n) s) ∧
    (x.latGated = true → Answers (.latticeWake n) s (fun t => rest t ∧ t.clkOf i = { x with latGated := false } ∧ t.pow.wakes = up 32 s.pow.wakes ∧ t.clk = s.clk + 2000)) ∧
    (x.latGated = false → Idles (.latticeWake n) s) ∧
    (300 ≤ cap → cap ≤ s.capTop → Answers (.pwrCapWrite v) s (fun t => t = s.setDreg 0xC00000 (BitVec.ofNat 64 cap))) ∧
    ((cap < 300 ∨ s.capTop < cap) → Answers (.pwrCapWrite v) s (fun t => t = { s with pow := { s.pow with cfgErr := true } }))

/-- R459, R505, R506, R507, R512: a tick of the pace controller keeps what it measured. -/
def Claim.PowerPrediction : Prop :=
  ∀ (k l d avg uj : Nat) (tj : Int) (sensor : Nat) (temps : List Int) (s : State),
    let p := s.pow
    let cool := tj ≤ s.throttle - 3
    let s₁ : State := { s with pow := { p with draw_ := avg, energy := (p.energy + uj) % 2 ^ 64, tj := tj, sensor := sensor, temps := temps
                                               thermalCap := (if cool then none else p.thermalCap), thermal := p.thermal && !decide cool } }
    let c := (ceilingFor s₁ l d).1
    let down := min p.ceiling (thermalTop s) - 1
    Answers (.pacePredictTick l d avg uj tj sensor temps) s (fun t => t.mem = s.mem ∧ t.seqs = s.seqs ∧ t.pow.draw_ = avg ∧ t.pow.energy = (p.energy + uj) % 2 ^ 64 ∧ t.pow.tj = tj ∧
      t.pow.temps = temps ∧ t.pow.effCap = effCap s₁ ∧ t.pow.ceiling = min c p.ceiling ∧ t.pow.thermalCap = s₁.pow.thermalCap ∧
      (c ≤ p.ceiling → t.pow.raise = none) ∧ (p.ceiling < c → t.pow.raise = some (match p.raise with | none => (c, s.clk) | some (r, at_) => (min r c, at_)))) ∧
    (s.throttle < p.tj → p.thermal = false → 1 ≤ min p.ceiling (thermalTop s) → Answers (.thermalThrottleStep) s (fun t => t.mem = s.mem ∧ t.pow.thermal = true ∧
      t.pow.thermalCap = some down ∧ t.pow.throttleAt = s.clk ∧ t.pow.ceiling = down)) ∧
    (p.tj ≤ s.throttle - 3 → Idles (.thermalThrottleStep) s) ∧
    (∀ e, (s.shelf k).desc = some e → e.flags.testBit 1 = true → (s.shelf k).counts.quietMhz < e.quietMhz → p.thermal = false → Answers (.quietDwellExpiry k) s (fun t => t.mem = s.mem ∧
      (t.shelf k).counts.quietMhz = min e.quietMhz ((s.shelf k).counts.quietMhz + 100) ∧ (s.shelf k).counts.quietAt + 100000000 ≤ t.clk ∧ (t.shelf k).counts.quietAt = t.clk)) ∧
    ((s.shelf k).desc = none → Idles (.quietDwellExpiry k) s)

/-- R510, R511, R512, R513, R514: a heartbeat carries the next SEQ and what is ceded. -/
def Claim.PaceGroups : Prop :=
  ∀ (m : BitVec 6) (chan : Nat) (fcs : Bool) (f : Bytes) (s : State),
    let p := s.pow
    let x := s.member m.toNat
    let rest := fun t : State => t.mem = s.mem ∧ t.shelves = s.shelves ∧ t.seqs = s.seqs
    (paceEn s = true → s.tpEn = true → Answers (.paceHeartbeatSend) s (fun t => rest t ∧ t.pow = { p with ceded := cededW s, seqNo := (p.seqNo + 1) % 2 ^ 32 })) ∧
    (paceEn s = false → Idles (.paceHeartbeatSend) s) ∧
    (∀ c at_, p.raise = some (c, at_) → Answers (.ceilingRaiseHold) s (fun t => rest t ∧ t.pow.ceiling = c ∧ t.pow.raise = none ∧ t.pow.group = groupPoint t ∧ at_ + 10000000 ≤ t.clk)) ∧
    (p.raise = none → Idles (.ceilingRaiseHold) s) ∧
    (∀ c e r, x.next = (c, e) :: r → Answers (.paceCeilingEffective m) s (fun t => rest t ∧ t.member m.toNat = { x with ceiling := some c, next := r } ∧ t.pow.group = groupPoint t)) ∧
    (x.next = [] → Idles (.paceCeilingEffective m) s) ∧
    (x.live = true → (memberReg s m.toNat).getLsbD 16 = true → Answers (.paceMemberStale m) s (fun t => rest t ∧ t.member m.toNat = { x with live := false } ∧
      t.pow.lost = up 16 p.lost ∧ t.pow.group = groupPoint t ∧ x.heardAt + s.paceCfg.toNat / 2 ^ 8 % 2 ^ 8 * 1000000 ≤ t.clk)) ∧
    (x.live = false → Idles (.paceMemberStale m) s) ∧
    (∀ q, basdoOf s chan fcs f = some q → field q.bytes 0 1 = 0x13 →
      let b := q.bytes
      let eff := beNat (slice b 0x20 8)
      (∀ j, paceEn s = true → paceFrom s b = some j → Answers (.pacePacketReceive chan fcs f) s (fun t => rest t ∧ (t.member j).seq = some (beNat (slice b 8 4)) ∧
        (t.member j).heardAt = s.clk ∧ (t.member j).live = true ∧ (t.member j).ceiling = (if eff ≤ s.epoch then some (field b 0xC 1) else (s.member j).ceiling) ∧
        (s.epoch < eff → (field b 0xC 1, eff) ∈ (t.member j).next) ∧ t.pow.group = groupPoint t)) ∧
      ((paceEn s = false ∨ paceFrom s b = none) → Answers (.pacePacketReceive chan fcs f) s (fun t => t = { s with pow := { p with bad := up 16 p.bad } }))) ∧
    (basdoOf s chan fcs f = none → Idles (.pacePacketReceive chan fcs f) s)

/-- Operating points, droops, limits, and pace groups. -/
def Obligations.PowerAndPace : Prop :=
  Claim.BayClocks ∧ Claim.PowerLimits ∧ Claim.PowerPrediction ∧ Claim.PaceGroups

/-! ### The Cellar's own work, health and the management port (16, 21, 23) -/

/-- R428, R432, R435: the patrol repairs a line with a correctable error and poisons one that cannot be corrected. -/
def Claim.CellarUpkeep : Prop :=
  ∀ (line : Nat) (k : BitVec 3) (c : BitVec 5) (s : State),
    let d := line * 64
    let i := d / stackSize
    let patrolled := i < 8 ∧ scrubOn s i = true ∧ (s.stack i).retired.testBit (pcOf d % 64) = false ∧ fencedAt s d = false
    let pair := 3 * 4 ^ c.toNat
    (patrolled → lastPatrolled s i line = false →
      (markOf s d = none → Idles (.patrolScrubLine line) s) ∧
      (markOf s d = some .corrected → Answers (.patrolScrubLine line) s (fun t => markOf t d = none ∧ t.mem = s.mem ∧ (t.stack i).corr = up 32 (s.stack i).corr)) ∧
      (markOf s d = some .uncorrectable → Answers (.patrolScrubLine line) s (fun t => markOf t d = some .poisoned ∧ t.mem = s.mem ∧ t.health.alert.testBit 2 = true))) ∧
    (patrolled → lastPatrolled s i line = true → markOf s d = none → Answers (.patrolScrubLine line) s (fun t => t.mem = s.mem ∧ t.marks = s.marks ∧
      (t.stack i).passes = ((s.stack i).passes + 1) % 2 ^ 32)) ∧
    (8 ≤ i → Idles (.patrolScrubLine line) s) ∧
    Answers (.celRetryFull k) s (fun t => t = { s with dev := { s.dev with retryFull := insSet k.toNat s.dev.retryFull } }) ∧
    ((s.stack k.toNat).retired &&& pair ≠ pair → Answers (.cellarChannelLost k c) s (fun t => (∀ p, pair.testBit p = true → (t.stack k.toNat).fenced.testBit p = true) ∧
      ∀ p i, pair.testBit p = true → (s.stack k.toNat).fenced.testBit p = false → pcOwner s (k.toNat * 64 + p) = some i → i < 8 → (t.shelf i).state = .fenced ∧
        ∀ q ∈ (s.shelf i).seqs, (t.seq q).run = .idle ∨ (t.seq q).run = .stopped)) ∧
    ((s.stack k.toNat).retired &&& pair = pair → Idles (.cellarChannelLost k c) s)

/-- R552, R553, R557: a sample is kept as the unit's last and among the day's. -/
def Claim.HealthHistory : Prop :=
  ∀ (unit : BitVec 7) (v : Rat) (group : BitVec 16) (s : State),
    let u := unit.toNat
    let h := s.health
    let taken := fun (m u : Nat) (v : Rat) (t : State) => tget 0 t.health.last (m * 256 + u) = v ∧ tget [] t.health.today (m * 256 + u) = v :: tget [] h.today (m * 256 + u) ∧
      (∀ j, j ≠ m * 256 + u → tget [] t.health.today j = tget [] h.today j) ∧ t.mem = s.mem ∧ t.shelves = s.shelves
    let day := s.epoch / 86400000000000
    (u < 17 → Answers (.wearSample 1 unit v group) s (taken 1 u v) ∧ Answers (.wearSample 2 unit v group) s (taken 2 u v) ∧
      Answers (.wearSample 3 unit v group) s (fun t => taken 3 u v t ∧ tget 0 t.health.group u = group.toNat)) ∧
    (17 ≤ u → Idles (.wearSample 1 unit v group) s) ∧
    (u < 68 → laneUp s u = true → Answers (.wearSample 4 unit v group) s (fun t => taken 4 u v t ∧ (2 * v < (laneBase s u : Rat) → t.health.alert.testBit 5 = true))) ∧
    Answers (.wearSample 6 unit v group) s (taken 6 0 (s.svnLeft : Rat)) ∧
    (∀ key l, h.hist = [] → h.today = [(key, l)] → l ≠ [] → key / 256 ≠ 5 → key / 256 ≠ 6 → Answers (.healthDayClose) s (fun t => t.health.day = day ∧ t.health.today = [] ∧
      t.health.mirrored = some t.health.hist ∧ tget [] t.health.hist key = [(day, l.sum / (l.length : Rat))] ∧ t.mem = s.mem ∧ t.shelves = s.shelves)) ∧
    ((∀ k, k < 8 → (s.stack k).errs = []) → Idles (.healthHourlyEval) s) ∧
    (∀ k p, k < 8 → p < 64 → s.hlthCfg.toNat / 2 ^ 16 % 2 ^ 16 <
      ((s.stack k).errs.filter (fun e => !e.bad && decide (s.clk < e.at_ + 3600000000000) && pcOf (e.line * 64) == k * 64 + p)).length →
      Answers (.healthHourlyEval) s (fun t => t.health.alert.testBit 1 = true ∧ t.mem = s.mem ∧ t.shelves = s.shelves ∧ t.stackTab = s.stackTab))

/-- R584, R585, R586: the powered management port takes a dynamic address, an offset of 2 bytes, a write of PWR_CAP at 0x28, and the enabling of interrupts. -/
def Claim.ManagementPort : Prop :=
  ∀ (a : BitVec 7) (b : Bytes) (n : BitVec 8) (s : State),
    (s.dev.pwrgd = true →
      Answers (.i3cDynamicAddress a) s (fun t => t = { s with i3c := { s.i3c with dyn := some a.toNat } }) ∧
      Answers (.i3cEnec) s (fun t => t = { s with i3c := { s.i3c with enec := true } }) ∧
      (b.length = 2 → Answers (.i3cPrivateWrite b) s (fun t => t = { s with i3c := { s.i3c with off := leNat b } })) ∧
      (b.length = 10 → field b 0 2 = 0x28 → 300 ≤ field b 2 2 → field b 2 2 ≤ s.capTop → Answers (.i3cPrivateWrite b) s (fun t => t = s.setDreg 0xC00000 (BitVec.ofNat 64 (field b 2 2)))) ∧
      (b.length ≠ 2 → b.length ≠ 10 → Idles (.i3cPrivateWrite b) s) ∧
      (s.i3c.off = 0 → n = 8 → Answers (.i3cPrivateRead n) s (fun t => t = { s with i3c := { s.i3c with read := toLe 8 Config.deviceId.toNat } })) ∧
      (0x50 ≤ s.i3c.off → Answers (.i3cPrivateRead n) s (fun t => t = { s with i3c := { s.i3c with read := zeros n.toNat } }))) ∧
    (s.dev.pwrgd = false → Idles (.i3cDynamicAddress a) s ∧ Idles (.i3cPrivateWrite b) s ∧
      Idles (.i3cPrivateRead n) s ∧ Idles (.i3cEnec) s)

/-! ### Epoch time and the schedule (22_time_and_schedule.md) -/

/-- R518, R519, R520: an edge of PPS_IN of the selected polarity measures epoch time's offset to the nearest second. -/
def Claim.PpsEdges : Prop :=
  ∀ (rise : Bool) (s : State), s.dev.atLock = none → ppsOn s = true →
    let off : Int := ((s.epoch : Int) + sext 16 (s.timeCfg.toNat / 2 ^ 32 % 2 ^ 16) + 500000000) % 1000000000 - 500000000
    let only := fun t : State => t.mem = s.mem ∧ t.seqs = s.seqs ∧ t.shelves = s.shelves ∧ t.bays = s.bays ∧ t.clk = s.clk
    (rise = s.timeCfg.getLsbD 1 → Idles (.ppsEdge rise) s) ∧
    (rise ≠ s.timeCfg.getLsbD 1 → 1000000 < off.natAbs → Answers (.ppsEdge rise) s (fun t => only t ∧ t.epoch = s.epoch ∧
      t.tim = { s.tim with ppsMissed := up 16 s.tim.ppsMissed })) ∧
    (rise ≠ s.timeCfg.getLsbD 1 → s.tim.secondsKnown = true → off.natAbs ≤ 1000000 → s.tim.state = .free → anyRound s = false → Answers (.ppsEdge rise) s (fun t => only t ∧
      (t.epoch : Int) = ((s.epoch : Int) - off) % 2 ^ 64 ∧ t.tim.state = .acquiring ∧ t.tim.lastPps = some s.clk)) ∧
    (rise ≠ s.timeCfg.getLsbD 1 → s.tim.secondsKnown = true → off.natAbs < 1000000 → s.tim.state = .locked → Answers (.ppsEdge rise) s (fun t => only t ∧
      t.epoch = s.epoch ∧ t.tim.state = .locked ∧ t.tim.slew = off ∧ t.tim.lastPps = some s.clk))

/-- R518: an Announce of the configured domain is followed where no master is. -/
def Claim.PtpMessages : Prop :=
  ∀ (c : Nat) (f b : Bytes) (s : State), s.dev.atLock = none → chanUp s c = true → frameKind s c true f = .ptp b →
    let only := fun t : State => t = { s with tim := t.tim } ∧ t.epoch = s.epoch
    let dropped := fun t : State => only t ∧ t.tim = { s.tim with ptpDiscards := up 16 s.tim.ptpDiscards }
    (field b 4 1 ≠ s.timeCfg.toNat / 2 ^ 16 % 256 → Answers (.ptpMessage c true f) s dropped) ∧
    (field b 1 1 % 16 ≠ 2 → Answers (.ptpMessage c true f) s dropped) ∧
    (ptpOk s b = true → field b 0 1 % 16 = 0xB → (field b 7 1).testBit 3 = true → s.tim.ptp.master = none → Answers (.ptpMessage c true f) s (fun t => only t ∧
      t.tim.ptp.master = some (slice b 44 20) ∧ t.tim.ptp.port = slice b 20 10 ∧ t.tim.ptp.announced = s.clk)) ∧
    (ptpOk s b = true → field b 0 1 % 16 = 0 → s.tim.ptp.master ≠ none → slice b 20 10 = s.tim.ptp.port → (field b 6 1).testBit 1 = true →
      Answers (.ptpMessage c true f) s (fun t => only t ∧ t.tim.ptp.awaiting = true ∧ t.tim.ptp.syncSeq = beNat (slice b 30 2) ∧ t.tim.ptp.syncAt = s.epoch ∧
        t.tim.lastSync = some s.clk)) ∧
    (ptpOk s b = true → field b 0 1 % 16 = 0 → slice b 20 10 ≠ s.tim.ptp.port → Answers (.ptpMessage c true f) s dropped)

/-- R520, R521, R522: EPOCH_SET in FREE or HOLDOVER with no round active makes epoch time its value, in HOLDOVER, and is refused otherwise. -/
def Claim.EpochChanges : Prop :=
  ∀ (v : Word) (s : State),
    let only := fun t : State => t.mem = s.mem ∧ t.seqs = s.seqs ∧ t.shelves = s.shelves ∧ t.bays = s.bays
    let free := s.tim.state = .free ∨ s.tim.state = .holdover
    (s.dev.atLock = none → free → anyRound s = false → Answers (.epochSetWrite v) s (fun t => only t ∧ t.clk = s.clk ∧ t.epoch = v.toNat ∧ t.tim.state = .holdover)) ∧
    (s.dev.atLock = none → (¬free ∨ anyRound s = true) → Answers (.epochSetWrite v) s (fun t => t = { s with tim := { s.tim with setRefused := true } })) ∧
    (s.tim.state = .locked → Answers (.timeSourceLoss) s (fun t => only t ∧ t.tim.state = .holdover ∧ t.tim.source = 0 ∧ t.tim.ptp.master = none ∧
      t.tim.holdovers = up 16 s.tim.holdovers ∧ lossAt s ≤ t.clk)) ∧
    (s.tim.state ≠ .locked → Idles (.timeSourceLoss) s ∧ Idles (.coarseCountReload) s) ∧
    (∀ off, s.tim.stepBy = some off → anyRound s = false → Answers (.holdoverStep) s (fun t => only t ∧ (t.epoch : Int) = ((s.epoch : Int) - off) % 2 ^ 64 ∧ t.tim.stepBy = none)) ∧
    ((s.tim.stepBy = none ∨ anyRound s = true) → Idles (.holdoverStep) s) ∧
    (s.tim.state = .locked → Answers (.coarseCountReload) s (fun t => only t ∧ t.tim.coarse = some (t.epoch, t.clk)))

/-- PPS edges, PTP messages and changes of epoch time. -/
def Obligations.EpochTime : Prop :=
  Claim.PpsEdges ∧ Claim.PtpMessages ∧ Claim.EpochChanges

/-- R522, R529, R530: when the wait for the lock runs out in HOLDOVER, a start whose measurements and attestation keys are right is ready. -/
def Claim.LockWaitEnds : Prop :=
  ∀ (x : Finds) (r : JRec) (rest : List JRec) (s : State), s.dev.atLock = some x → s.dev.halted = false → s.tim.state = .holdover → s.dev.recs = r :: rest →
    (x.measureOk = true → x.attestOk = true → Answers (.lockWaitTimeout) s (fun t => t.dev.ready = true ∧ t.dev.atLock = none ∧ t.dev.halted = false ∧ t.mem = s.mem ∧ t.shelves = s.shelves ∧
      ∃ r', t.dev.recs = r' :: rest ∧ r'.last = 15 ∧ (tget {} r'.entries 12).outcome = 3 ∧ (tget {} r'.entries 15).outcome = 1)) ∧
    (x.measureOk = false → Answers (.lockWaitTimeout) s (fun t => t.dev.halted = true ∧ t.dev.ready = s.dev.ready ∧ t.mem = s.mem ∧
      ∃ r', t.dev.recs = r' :: rest ∧ r'.last = 13 ∧ r'.result = 1 ∧ (tget {} r'.entries 13).outcome = 4))

/-- The wait for the lock at a start, Cellar upkeep, health history and the management port. -/
def Obligations.StartWaitsAndUpkeep : Prop :=
  Claim.LockWaitEnds ∧ Claim.CellarUpkeep ∧ Claim.HealthHistory ∧ Claim.ManagementPort

/-! ### Programs and service runs (11_sequencer_isa.md) -/

/-- R295, R297, R320, R321, R322: PROG_LOAD of an image that passes its checks loads it, and of any other leaves the program. -/
def Claim.ProgramCommands : Prop :=
  ∀ (k : Nat) (a : BitVec 42) (s : State),
    let h := s.shelf k
    let ad := a.toNat * 64
    let entry := h.prog.entries.getD 0 0xFFFFFFFF
    let refused := fun t : State => (t.shelf k).prog = { h.prog with result := Status.paramUnsupported.code } ∧ t.mem = s.mem ∧ t.seqs = s.seqs ∧
      t.queues = s.queues ∧ t.bays = s.bays ∧ (t.shelf k).round = h.round
    (h.round.active = true → Answers (.progLoad k a) s refused ∧ Answers (.serviceRunStart k a) s refused) ∧
    (h.round.active = false → serviceActive s k = false → h.ctx.pending = false → h.ctx.waiting = false →
      (∀ p, readImage s k ad = .ok p → Answers (.progLoad k a) s (fun t => (t.shelf k).prog = { p with addr := ad, result := Status.ok.code } ∧ t.mem = s.mem ∧
        t.seqs = s.seqs ∧ t.queues = s.queues ∧ t.bays = s.bays)) ∧
      (∀ st, readImage s k ad = .error st → Answers (.progLoad k a) s (fun t => (t.shelf k).prog = { h.prog with result := st.code } ∧ t.mem = s.mem ∧
        t.seqs = s.seqs ∧ t.queues = s.queues ∧ t.bays = s.bays)) ∧
      (h.prog.loaded = false → Answers (.serviceRunStart k a) s refused) ∧
      (h.prog.loaded = true → entry ≠ 0xFFFFFFFF → dataHitsCask s k = false → Answers (.serviceRunStart k a) s (fun t =>
        (t.shelf k).prog = { h.prog with service := true, stopping := false, result := Status.ok.code } ∧ t.bays = s.bays ∧ (t.shelf k).round = h.round ∧ t.queues = s.queues ∧
        t.mem = (copyData k s).mem ∧
        ∀ q ∈ h.seqs, (t.seq q).pc = entry ∧ (t.seq q).run = .running ∧ (t.seq q).hmode = false ∧ (t.seq q).g = [] ∧ (t.seq q).p = 1 ∧ (t.seq q).d = [] ∧
          (t.seq q).scratch = [])) ∧
      Answers (.serviceRunStop k a) s refused) ∧
    (serviceActive s k = true → Answers (.serviceRunStop k a) s (fun t => (t.shelf k).prog = { h.prog with stopping := true, result := Status.ok.code } ∧ t.mem = s.mem ∧
      t.queues = s.queues ∧ t.bays = s.bays ∧ ∀ q ∈ h.seqs, ((t.seq q).run = .idle ∨ (t.seq q).run = .stopped) ∧ (t.seq q).wait = .none))

/-- Programs are loaded, and service runs started and stopped. -/
def Obligations.ProgramCommands : Prop :=
  Claim.ProgramCommands

/-! ### Starts, resets, power and tamper (23_reset_start_and_recovery.md, 18_security_and_keys.md) -/

/-- R530, R535, R536, R571, R579: a power-on, a cold reset and the release of PERST_L begin a start on a device of which no memory, shelf, sequencer, queue, window, bin or Cask is kept. -/
def Claim.ColdStarts : Prop :=
  ∀ (x : Finds) (s : State),
    let wiped := fun t : State => t.mem = [] ∧ t.marks = [] ∧ t.shelves = [] ∧ t.seqs = [] ∧ t.queues = [] ∧ t.windows = [] ∧ t.bins = [] ∧ ∀ b, (t.bay b).casks = []
    let started := fun (kind : StartKind) (t : State) => wiped t ∧ t.dev.pwrgd = true ∧ t.dev.perst = true ∧ t.dev.held = none ∧ t.dev.kind = kind ∧
      (x.romOk = false → t.dev.halted = true ∧ t.dev.ready = false ∧
        ∃ r rest, t.dev.recs = r :: rest ∧ r.kind = kind ∧ r.result = 1 ∧ r.last = 1 ∧ (tget {} r.entries 0).outcome = 1 ∧ (tget {} r.entries 1).outcome = 4)
    let count := fun (n : Nat) (t : State) => t.startCount = (n + 1) % 2 ^ 32
    (s.dev.pwrgd = false → s.dev.vaon = false → Answers (.powerOn x) s (fun t => started .powerOn t ∧
      ∀ m, s.dev.mirror = some m → x.mirrorOk = true → count m.count t)) ∧
    (s.dev.pwrgd = false → s.dev.vaon = true → s.isl.alarm = false → Answers (.powerOn x) s (fun t => started .cold t ∧ count s.startCount t)) ∧
    (s.dev.pwrgd = true → Idles (.powerOn x) s) ∧
    (powered s = true → Answers (.globalResetCold x) s (fun t => started .cold t ∧ count s.startCount t)) ∧
    (powered s = false → Idles (.globalResetCold x) s) ∧
    (∀ kind, s.dev.pwrgd = true → s.dev.held = some kind → Answers (.perstLRelease x) s (fun t => started kind t ∧ count s.startCount t)) ∧
    (s.dev.held = none → Answers (.perstLRelease x) s (fun t => t = { s with dev := { s.dev with perst := true } })) ∧
    (s.dev.pwrgd = true → Answers (.perstLAssert) s (fun t => wiped t ∧ t.dev.perst = false ∧ t.dev.held = some .cold ∧ t.dev.ready = false ∧ t.startCount = s.startCount)) ∧
    (s.dev.pwrgd = false → Idles (.perstLAssert) s)

/-- Power-on, cold resets and PERST_L begin a start on an empty device. -/
def Obligations.ColdStarts : Prop :=
  Claim.ColdStarts

/-- R397, R536, R537, R574: a warm reset of a ready device, by GLOBAL_RESET, the watchdog or the loss of the system clock, empties Loft, bay stores, sequencers. -/
def Claim.WarmResets : Prop :=
  ∀ (x : Finds) (g : BitVec 2) (s : State),
    let warm := fun t : State => t.seqs = [] ∧ t.queues = [] ∧ t.startCount = (s.startCount + 1) % 2 ^ 32 ∧ t.dev.kind = .warm ∧
      (∀ b, (t.bay b).casks = []) ∧
      (∀ k, (t.shelf k).desc = (s.shelf k).desc ∧ (t.shelf k).round = (s.shelf k).round ∧ (∀ e ∈ (t.shelf k).intake.rings, e.2.entries = []) ∧
        (∀ off, off ∈ warmRegs → (t.shelf k).reg off = (s.shelf k).reg off) ∧ (∀ off, off ∉ warmRegs → (t.shelf k).reg off = 0)) ∧
      ((∀ k, k < 8 → (s.shelf k).refSlots = 0) → (∀ k, ∀ e ∈ (s.shelf k).intake.log, e.state ≠ .arriving) →
        ∀ a, memGet t.mem a = if loftBase ≤ a then memGet [] a else memGet s.mem a)
    let ready := powered s = true ∧ s.dev.ready = true
    (ready → Answers (.globalResetWarm x) s warm ∧ Answers (.islandWatchdogReset x) s warm ∧ Answers (.refclkLoss .sys x) s warm) ∧
    (¬ready → Idles (.globalResetWarm x) s ∧ Idles (.islandWatchdogReset x) s) ∧
    Answers (.refclkLoss .xtal x) s (fun t => t.dev.xtalLost = true ∧ t.tim.coarse = none ∧ t.mem = s.mem ∧ t.shelves = s.shelves ∧ t.seqs = s.seqs) ∧
    ((∀ i, i < 4 → (s.port (4 * g.toNat + i)).up < 16) → Answers (.refclkLoss (.sd g) x) s (fun t => (∀ i, i < 4 → (t.port (4 * g.toNat + i)).up = 0) ∧
      t.seqs = s.seqs ∧ t.bays = s.bays ∧ ∀ n, n / 4 ≠ g.toNat → t.port n = s.port n)) ∧
    Answers (.refclkLoss .pcie x) s (fun t => t.host.ide = [] ∧ t.host.session = false ∧ t.host.vfEnable = false ∧
      ((∀ k, k < 8 → (s.tdi k).isLocked = false) → t.mem = s.mem ∧ t.shelves = s.shelves))

/-- R469, R507, R535, R572, R578: when PWRGD_IN falls nothing outside the always-on domain stays, and no key or root share without VAON. -/
def Claim.PowerLoss : Prop :=
  ∀ (s : State),
    let wiped := fun t : State => t.mem = [] ∧ t.shelves = [] ∧ t.seqs = [] ∧ t.queues = [] ∧ t.bays = [] ∧ t.windows = []
    Answers (.pwrgdInFall true) s (fun t => wiped t ∧ t.dev.pwrgd = false ∧ t.dev.vaon = true ∧ t.isl.shares = s.isl.shares ∧
      ∀ n, 4 ≤ n → n ≤ 12 → (t.slot n) = s.slot n) ∧
    Answers (.pwrgdInFall false) s (fun t => wiped t ∧ t.dev.pwrgd = false ∧ t.dev.vaon = false ∧ t.isl.shares = none ∧ t.chest = []) ∧
    (∀ r rest, s.dev.pwrgd = true → s.dev.recs = r :: rest → Answers (.thermalTrip) s (fun t => wiped t ∧ t.dev.thermTrip = true ∧
      ∃ r', t.dev.recs = r' :: rest ∧ (tget {} r'.entries 15).outcome = 4 ∧ t.dev.mirror = some { recs := r' :: rest, repairs := s.dev.repairs, count := s.startCount })) ∧
    (s.dev.newRecord = true → Answers (.journalMirror true) s (fun t => t = { s with dev := t.dev } ∧ t.dev.newRecord = false ∧
      t.dev.mirror = some { recs := s.dev.recs, repairs := s.dev.repairs, count := s.startCount })) ∧
    (s.dev.newRecord = false → ∀ ok, Idles (.journalMirror ok) s) ∧
    (∀ a b, s.isl.shares = some (a, b) → a.length = 32 → b.length = 32 → Answers (.rootRemask) s (fun t =>
      ∃ a' b', t.isl.shares = some (a', b') ∧ a'.length = 32 ∧ b'.length = 32 ∧ xorBytes a' b' = xorBytes a b ∧ t.mem = s.mem ∧ t.shelves = s.shelves ∧ t.chest = s.chest))

/-- Warm resets keep what they must; power loss keeps only the always-on domain. -/
def Obligations.WarmResetsAndPowerLoss : Prop :=
  Claim.WarmResets ∧ Claim.PowerLoss

/-- R490, R491, R492, R495: a tamper alarm of a ready device puts it in LOCKDOWN. -/
def Claim.TamperLockdown : Prop :=
  ∀ (n : BitVec 3) (f : BitVec 4) (s : State), n.toNat < 5 → s.dev.pwrgd = true → s.dev.ready = true → s.isl.alarm = false →
    let locked := fun t : State => t.isl.lockdown = true ∧ t.chest = [] ∧ t.isl.sessions = [] ∧ t.tpEn = false ∧ t.isl.alarm = true ∧ t.isl.sensor = 2 ^ n.toNat ∧
      (∀ k, k < 8 → (t.shelf k).rel.key = [] ∧ (t.shelf k).round.active = false ∧ (t.shelf k).load = none ∧ (t.shelf k).prog.service = false)
    Answers (.tamperAlarm n .none) s (fun t => locked t ∧ t.isl.when_ = 1 ∧ t.isl.shares = s.isl.shares) ∧
    Answers (.tamperAlarm n (.mailbox f)) s (fun t => locked t ∧ t.isl.when_ = 2 ∧ t.isl.shares = none)

/-- A tamper alarm puts a ready device in LOCKDOWN. -/
def Obligations.TamperLockdown : Prop :=
  Claim.TamperLockdown

/-! ### The mailbox, keys, attestation, model pages, firmware and shelves (15, 18, 17) -/

/-- R409, R410, R411, R412, R461, R492: a request is answered with its tag, its status and payload. -/
def Claim.MailboxAnswers : Prop :=
  ∀ (f : BitVec 4) (p : Bytes) (s : State),
    let n := f.toNat
    let m := (s.fn n).mbx
    let only := fun t : State => t = { s with host := t.host }
    (Asks s n 1 p → Answers (.info f) s (fun t => only t ∧ ∃ b, Replied n 1 .ok b s t ∧ b.length = 16 ∧ field b 0 8 = Config.deviceId.toNat ∧ field b 8 1 = n ∧
      field b 9 1 = (if n = 0 then 0xFF else n - 1) ∧ field b 0xB 1 = s.lcs % 256)) ∧
    (Asks s n 2 p → Answers (.echo f) s (fun t => only t ∧ Replied n 2 .ok p s t)) ∧
    (mbxWaits s n 2 = true → s.isl.lockdown = true → Answers (.echo f) s (fun t => only t ∧ Replied n 2 .tamperAbort [] s t)) ∧
    (mbxWaits s n 2 = true → s.isl.lockdown = false → reqOk m = false → Answers (.echo f) s (fun t => only t ∧ Replied n 2 .paramUnsupported [] s t)) ∧
    (Asks s n 0x303 p → n ≠ 0 → Answers (.lcsNonce f) s (fun t => only t ∧ Replied n 0x303 .deniedAttribute [] s t)) ∧
    (mbxWaits s n 2 = false → Idles (.echo f) s) ∧
    (∀ r, m.held = some r → Answers (.mailboxFixedRelease f) s (fun t => t.mem = s.mem ∧ t.shelves = s.shelves ∧ m.goAt + 20000000 ≤ t.clk ∧
      (t.fn n).mbx = { m with resp := r, busy := false, done := true, last := field r 2 1, held := none })) ∧
    (m.held = none → Idles (.mailboxFixedRelease f) s)

/-- R478, R479, R489, R494: KEY_GENERATE, KEY_LOAD with a right known answer, plain for public keys or wrapped. -/
def Claim.KeyLoads : Prop :=
  ∀ (f : BitVec 4) (p : Bytes) (s : State),
    let n := f.toNat
    let i := field p 0 1
    let attr := BitVec.ofNat 64 (field p 8 8)
    let kind := attr.toNat / 2 ^ 22 % 16
    let moved := fun (i : Nat) (h : Half) (t : State) => t.slot i = { s.slot i with cur := some h, prev := (s.slot i).cur, curPages := 0, prevPages := (s.slot i).curPages } ∧ t.mem = s.mem ∧
      ∀ j, 16 ≤ j → j ≠ i → t.slot j = s.slot j
    let kept := fun t : State => t.mem = s.mem ∧ t.chest = s.chest
    let plain := zeroAt p 4 4 = true ∧ zeroAt p 0x2C 4 = true ∧ (slice p 0x40 (field p 3 1)).length = field p 3 1
    let data := slice p 0x40 (field p 3 1)
    let kat := slice p 0x10 16
    (Asks s n 0x101 p → zeroAt p 1 7 = true → kind ≠ 8 → kind ≠ 9 →
      (loadRefused s n i attr (kindBytes kind) = none → Answers (.keyGenerate f) s (fun t => ∃ key, Replied n 0x101 .ok (publicKey kind key) s t ∧ moved i { key := key, attr := attr } t ∧
        (kind ≠ 5 → kind ≠ 6 → key.length = 32))) ∧
      (∀ st, loadRefused s n i attr (kindBytes kind) = some st → Answers (.keyGenerate f) s (fun t => Replied n 0x101 st [] s t ∧ kept t))) ∧
    (Asks s n 0x102 p → plain → field p 1 1 = 0 → (kind = 8 ∨ kind = 9) → loadRefused s n i attr data.length = none →
      (katOf i (attr.toNat / 2 ^ 32) kind data = kat → Answers (.keyLoad f) s (fun t => Replied n 0x102 .ok [] s t ∧ moved i { key := data, attr := attr } t)) ∧
      (katOf i (attr.toNat / 2 ^ 32) kind data ≠ kat → Answers (.keyLoad f) s (fun t => Replied n 0x102 .verdictReject [] s t ∧ kept t))) ∧
    (∀ w, Asks s n 0x102 p → plain → field p 1 1 = 1 → bindCur s (field p 2 1) (mbxUse n [uUnwrap] [1]) = .ok w →
      let opened := gcmOpen w.key (slice p 0x20 12) (p.take 0x20) data (slice p 0x30 16)
      (opened = none → Answers (.keyLoad f) s (fun t => Replied n 0x102 .verdictReject [] s t ∧ kept t)) ∧
      (∀ key, opened = some key → loadRefused s n i attr key.length = none → katOf i (attr.toNat / 2 ^ 32) kind key = kat →
        Answers (.keyLoad f) s (fun t => Replied n 0x102 .ok [] s t ∧ moved i { key := key, attr := attr } t))) ∧
    (Asks s n 0x202 p → s.isl.sessions = [] → Answers (.keyRelease f) s (fun t => Replied n 0x202 .deniedAttribute [] s t ∧ kept t)) ∧
    (∀ x, Asks s n 0x202 p → s.isl.sessions = [(n, x)] →
      let s₁ := endSession n s
      let opened := hpkeOpen x.key (slice p 0 32) (ascii "KA2 key release" ++ toLe 8 devId ++ x.nonce) (slice p 32 80)
      (x.expiry < s.epoch → Answers (.keyRelease f) s (fun t => Replied n 0x202 .deniedAttribute [] s t ∧ t.isl.sessions = [] ∧ t.mem = s.mem ∧ ∀ j, 16 ≤ j → t.slot j = s.slot j)) ∧
      (s.epoch ≤ x.expiry → opened = none → Answers (.keyRelease f) s (fun t => Replied n 0x202 .verdictReject [] s t ∧ t.isl.sessions = [] ∧ t.mem = s.mem ∧
        ∀ j, 16 ≤ j → t.slot j = s.slot j)) ∧
      (∀ m, s.epoch ≤ x.expiry → opened = some m →
        let a := BitVec.ofNat 64 (field m 0x30 8)
        let kd := a.toNat / 2 ^ 22 % 16
        let l := kindBytes kd
        zeroAt m 0x39 7 = true → zeroAt m l (48 - l) = true → loadRefused s₁ n (field m 0x38 1) a (m.take l).length = none →
        katOf (field m 0x38 1) (a.toNat / 2 ^ 32) kd (m.take l) = slice p 112 16 →
        Answers (.keyRelease f) s (fun t => Replied n 0x202 .ok [] s t ∧ t.isl.sessions = [] ∧ moved (field m 0x38 1) { key := m.take l, attr := a } t)))

/-- R480, R481, R493: KEY_RETIRE zeroises the previous half once no page is left under it, or by FORCE, and keeps its generation as retired. -/
def Claim.KeyManagement : Prop :=
  ∀ (f : BitVec 4) (p : Bytes) (s : State),
    let n := f.toNat
    let i := field p 0 1
    let x := s.slot i
    let force := (field p 1 1).testBit 0
    let kept := fun t : State => t = { s with host := t.host }
    let others := fun t : State => t.mem = s.mem ∧ t.shelves = s.shelves ∧ ∀ j, j ≠ i → t.slot j = s.slot j
    (Asks s n 0x103 p → mayManage s n i = true → ∀ c h, x.cur = some c → x.prev = some h →
      ((x.prevPages = 0 ∨ force = true) → Answers (.keyRetire f) s (fun t => Replied n 0x103 .ok [] s t ∧ others t ∧
        t.slot i = { x with prev := none, prevPages := 0, retired := max x.retired h.gen })) ∧
      (x.prevPages ≠ 0 → force = false → Answers (.keyRetire f) s (fun t => Replied n 0x103 .paramUnsupported [] s t ∧ kept t))) ∧
    (Asks s n 0x103 p → mayManage s n i = true → x.prev = none → Answers (.keyRetire f) s (fun t => Replied n 0x103 .paramUnsupported [] s t ∧ kept t)) ∧
    (Asks s n 0x103 p → mayManage s n i = false → Answers (.keyRetire f) s (fun t => Replied n 0x103 .deniedAttribute [] s t ∧ kept t)) ∧
    (Asks s n 0x104 p → mayManage s n i = true → (x.curPages = 0 ∧ x.prevPages = 0 ∨ force = true) → Answers (.keyClear f) s (fun t => Replied n 0x104 .ok [] s t ∧ others t ∧
      (t.slot i).cur = none ∧ (t.slot i).prev = none ∧ x.retired ≤ (t.slot i).retired ∧ (∀ h, x.cur = some h ∨ x.prev = some h → h.gen ≤ (t.slot i).retired))) ∧
    (Asks s n 0x104 p → mayManage s n i = true → x.curPages ≠ 0 → force = false → Answers (.keyClear f) s (fun t => Replied n 0x104 .paramUnsupported [] s t ∧ kept t)) ∧
    (Asks s n 0x104 p → mayManage s n i = false → Answers (.keyClear f) s (fun t => Replied n 0x104 .deniedAttribute [] s t ∧ kept t)) ∧
    (Asks s n 0x105 p → mayManage s n i = true → Answers (.keyQuery f) s (fun t => kept t ∧ ∃ b, Replied n 0x105 .ok b s t ∧
      field b 0 1 = (match x.cur, x.prev with | none, none => 0 | some _, some _ => 2 | none, some _ => 1 | some _, none => 1) ∧
      (∀ h, x.cur = some h → field b 8 8 = h.attr.toNat) ∧ field b 0x14 4 = x.retired % 2 ^ 32)) ∧
    (Asks s n 0x105 p → 16 ≤ i → mayManage s n i = false → Answers (.keyQuery f) s (fun t => Replied n 0x105 .deniedAttribute [] s t ∧ kept t)) ∧
    (∀ h, Asks s n 0x106 p → mayManage s n i = true → x.cur = some h →
      ((h.kind = 8 ∨ h.kind = 9) → Answers (.pubkeyGet f) s (fun t => Replied n 0x106 .ok h.key s t ∧ kept t)) ∧
      (h.kind = 3 → Answers (.pubkeyGet f) s (fun t => Replied n 0x106 .ok (x25519 h.key basePoint) s t ∧ kept t)) ∧
      ((h.kind = 1 ∨ h.kind = 2) → Answers (.pubkeyGet f) s (fun t => Replied n 0x106 .paramUnsupported [] s t ∧ kept t))) ∧
    (Asks s n 0x106 p → 4 ≤ i → mayManage s n i = false → Answers (.pubkeyGet f) s (fun t => Replied n 0x106 .deniedAttribute [] s t ∧ kept t))

/-- Keys are loaded, generated, released, retired, cleared and queried. -/
def Obligations.ChestKeys : Prop :=
  Claim.KeyLoads ∧ Claim.KeyManagement

/-- R486, R487, R488, R493: ATTEST of a scope that the function may ask for answers a report whose signed bytes are those of R486 with the caller's nonce. -/
def Claim.Attestation : Prop :=
  ∀ (f : BitVec 4) (p : Bytes) (s : State),
    let n := f.toNat
    let scope := field p 32 1
    let nonce := slice (p ++ zeros 32) 0 32
    let fresh := (field p 33 1).testBit 0
    let kept := fun t : State => t = { s with host := t.host }
    (∀ ec pq, Asks s n 0x201 p → scopeOk n scope = true → (scope = 0xFF ∨ scope < 8) → fresh = false → (s.slot 1).cur = some ec → (s.slot 0).cur = some pq →
      Answers (.attest f) s (fun t => t.mem = s.mem ∧ t.chest = s.chest ∧ t.isl = s.isl ∧ ∃ r sig, Replied n 0x201 .ok r s t ∧ r = reportBody s scope nonce (zeros 32) 0 ++ sig)) ∧
    (∀ ec pq, Asks s n 0x201 p → scopeOk n scope = true → (scope = 0xFF ∨ scope < 8) → fresh = true → (s.slot 1).cur = some ec → (s.slot 0).cur = some pq →
      Answers (.attest f) s (fun t => t.mem = s.mem ∧ ∃ key r, Replied n 0x201 .ok r s t ∧ key.length = 32 ∧
        t.isl.sessions = tput s.isl.sessions n { key := key, nonce := nonce, expiry := s.epoch + 300000000000 } ∧ slice r 0x40 32 = x25519 key basePoint)) ∧
    (Asks s n 0x201 p → scopeOk n scope = false → Answers (.attest f) s (fun t => Replied n 0x201 .deniedAttribute [] s t ∧ kept t)) ∧
    (Asks s n 0x201 p → scopeOk n scope = true → scope < 8 → fresh = false → (s.slot 1).cur = none → Answers (.attest f) s (fun t => Replied n 0x201 .deniedAttribute [] s t ∧ kept t)) ∧
    (Asks s n 0x203 p → scopeOk n (field p 0 1) = true → field p 0 1 < 8 → (s.shelf (field p 0 1)).attest ≠ [] → Answers (.attestLast f) s (fun t =>
      Replied n 0x203 .ok (s.shelf (field p 0 1)).attest s t ∧ kept t)) ∧
    (Asks s n 0x203 p → scopeOk n (field p 0 1) = false → Answers (.attestLast f) s (fun t => Replied n 0x203 .deniedAttribute [] s t ∧ kept t)) ∧
    (∀ c, Asks s n 0x204 p → s.isl.cert = some c →
      (field p 0 1 = 0 → Answers (.certGet f) s (fun t => Replied n 0x204 .ok ((c.drop (field p 4 4)).take 4080) s t ∧ kept t)) ∧
      (field p 0 1 = 1 → Answers (.certGet f) s (fun t => Replied n 0x204 .ok (((c ++ s.isl.alias_).drop (field p 4 4)).take 4080) s t ∧ kept t)))

/-- Mailbox requests are answered; reports, certificates and INFO. -/
def Obligations.MailboxAndAttestation : Prop :=
  Claim.MailboxAnswers ∧ Claim.Attestation

/-- R483, R484, R485: MODEL_LOAD of a readable page list begins a load, which is answered later. -/
def Claim.ModelLoads : Prop :=
  ∀ (f : BitVec 4) (p : Bytes) (s : State),
    let n := f.toNat
    let k := field p 0 1
    let h := s.shelf k
    let pages := field p 4 4
    let list := field p 8 8
    let dst := field p 0x10 8
    let len := field p 0x18 8
    let es := chunks 16 (vread s k list (16 * pages))
    let fits := (n = 0 ∨ k + 1 = n) ∧ k < 8 ∧ h.desc ≠ none ∧ h.model = none ∧ h.load = none ∧ zeroAt p 2 2 = true ∧ 0 < pages ∧ pages ≤ 2 ^ 20 ∧ (pages - 1) * 65488 < len ∧
      len ≤ pages * 65488 ∧ dst % 0x10000 = 0 ∧ list % 64 = 0 ∧ inCellar h list (16 * pages) = true ∧ inCellar h dst (roundUp len 0x10000) = true ∧ openRange s k dst (roundUp len 0x10000) = true
    (Asks s n 0x210 p → fits → vstat s k list (16 * pages) = .ok → noteRead k list (16 * pages) s = s → (∀ e ∈ es.zipIdx, field e.1 0xC 4 = e.2) → Answers (.modelLoad f) s (fun t =>
      (t.shelf k).load = some { fn := n, tag := reqTag (s.fn n).mbx, slot := field p 1 1, dst := dst, len := len, gens := es.map (fun e => field e 8 4), addrs := es.map (fun e => field e 0 8) } ∧
      (t.fn n).mbx = (s.fn n).mbx ∧ t.mem = s.mem ∧ ∀ j, (t.slot j).cur = (s.slot j).cur ∧ (t.slot j).prev = (s.slot j).prev)) ∧
    (Asks s n 0x210 p → n ≠ 0 → k + 1 ≠ n → Answers (.modelLoad f) s (fun t => Replied n 0x210 .deniedAttribute [] s t ∧ t = { s with host := t.host })) ∧
    (Asks s n 0x210 p → n = 0 → pages = 0 → Answers (.modelLoad f) s (fun t => Replied n 0x210 .paramUnsupported [] s t ∧ t = { s with host := t.host })) ∧
    (∀ m, Asks s n 0x211 p → (n = 0 ∨ k + 1 = n) → h.model = some m → h.round.active = false → Answers (.modelFree f) s (fun t => Replied n 0x211 .ok [] s t ∧ (t.shelf k).model = none ∧
      t.mem = (vzero s k m.1 m.2).mem ∧ t.bays = s.bays)) ∧
    (Asks s n 0x211 p → (n = 0 ∨ k + 1 = n) → h.round.active = true → Answers (.modelFree f) s (fun t => Replied n 0x211 .paramUnsupported [] s t ∧ t = { s with host := t.host }))

/-- R484: the arrival of a page of a load. -/
def Claim.ModelPages : Prop :=
  ∀ (k i : Nat) (page : Bytes) (l : ModelLoad) (s : State), (s.shelf k).load = some l →
    let g := l.gens.getD i 0
    let host := i ∈ l.unread ∧ i < l.unread.headD 0 + 8 ∧ l.addrs.getD i 0 % 4096 = 0 ∧ page.length = 65536
    let right := field page 0 4 = 0x47504D4B ∧ field page 4 2 = 1 ∧ field page 8 4 = g ∧ field page 0xC 4 = i ∧ field page 0x10 4 = l.plainLen i
    let dropped := fun (st : Status) (t : State) => (t.shelf k).load = none ∧ (t.shelf k).model = (s.shelf k).model ∧ t.mem = (vzero s k l.dst (roundUp l.len 0x10000)).mem ∧
      ((s.fn l.fn).mbx.busy = true → fixedMbx s l.fn = false → (t.fn l.fn).mbx.resp = respBytes 0x210 l.tag st (toLe 4 i) ∧ (t.fn l.fn).mbx.done = true)
    (host → right → ∀ key, bindGen s l.slot g (modelUse k) = .ok key →
      let opened := gcmOpen key.key (slice page 0x14 12) (page.take 0x20) (page.drop 48) (slice page 0x20 16)
      (∀ m, opened = some m →
        let w := vwrite s k (l.dst + i * 65488) (m.take (l.plainLen i))
        (l.unread ≠ [i] → Answers (.modelPageArrive k i true page) s (fun t => (t.shelf k).load = some { l with read := i :: l.read } ∧ t.mem = w.mem ∧ (t.shelf k).model = (s.shelf k).model)) ∧
        (l.unread = [i] → Answers (.modelPageArrive k i true page) s (fun t => (t.shelf k).load = none ∧ (t.shelf k).model = some (l.dst, roundUp l.len 0x10000) ∧ t.mem = w.mem ∧
          (t.shelf k).modelDigest = sha3 (vread w k l.dst l.len) ∧
          ((s.fn l.fn).mbx.busy = true → fixedMbx s l.fn = false → (t.fn l.fn).mbx.resp = respBytes 0x210 l.tag .ok (t.shelf k).modelDigest ∧ (t.fn l.fn).mbx.done = true)))) ∧
      (opened = none → Answers (.modelPageArrive k i true page) s (dropped .verdictReject))) ∧
    (host → field page 0xC 4 ≠ i → Answers (.modelPageArrive k i true page) s (dropped .paramUnsupported)) ∧
    (host → Answers (.modelPageArrive k i false page) s (dropped .uncorrectable)) ∧
    (i ∉ l.unread → ∀ ok, Idles (.modelPageArrive k i ok page) s)

/-- R463, R464, R465, R466, R471, R472, R473: requests of the physical function. -/
def Claim.FirmwareCommands : Prop :=
  ∀ (f : BitVec 4) (p : Bytes) (s : State), f = 0 →
    let d := field p 0 8
    let n := field p 8 8
    let clean := fun (a n : Nat) => a + n ≤ cellarEnd ∧ ∀ x ∈ linesOf a n, lineMark s x = none
    let b := memRead s.mem d n
    let tok := memRead s.mem d 4787
    let mem := fun t : State => t.mem = s.mem ∧ t.shelves = s.shelves ∧ t.chest = s.chest
    let used := { s.isl with nonce := none }
    (Asks s 0 0x301 p → clean d n → Answers (.fwUpdate f) s (fun t => mem t ∧
      (if fwCause s b = 0 then Replied 0 0x301 .ok [] s t ∧ t.isl = { s.isl with flash := tput s.isl.flash (1 - s.isl.fwFlash) b, primary := some (1 - s.isl.fwFlash), lastPass := none }
       else Replied 0 0x301 .verdictReject [] s t ∧ t.isl = s.isl))) ∧
    (Asks s 0 0x301 p → cellarEnd < d + n → Answers (.fwUpdate f) s (fun t => Replied 0 0x301 .paramUnsupported [] s t ∧ mem t ∧ t.isl = s.isl)) ∧
    (Asks s 0 0x302 p → s.isl.debug = false → s.fuseSvn < fwSvn s.isl.fwImage → s.isl.fellBack = false → Answers (.fwCommitSvn f) s (fun t => mem t ∧
      Replied 0 0x302 .ok (toLe 1 (fwSvn s.isl.fwImage)) s t ∧ t.isl = { s.isl with svnFuse := some (fwSvn s.isl.fwImage) })) ∧
    (Asks s 0 0x302 p → s.isl.debug = true → Answers (.fwCommitSvn f) s (fun t => mem t ∧ Replied 0 0x302 .paramUnsupported [] s t ∧ t.isl = s.isl)) ∧
    (Asks s 0 0x303 p → Answers (.lcsNonce f) s (fun t => mem t ∧ ∃ x, x.length = 32 ∧ Replied 0 0x303 .ok x s t ∧ t.isl = { s.isl with nonce := some (x, s.epoch) })) ∧
    (Asks s 0 0x304 p → clean d 4787 → Answers (.lcsAdvance f) s (fun t => mem t ∧
      (if tokenOk s tok 1 = true then
        (if lcsAllowed s (field tok 7 1) = true then Replied 0 0x304 .ok [] s t ∧ t.isl = { used with lcsFuse := some (field tok 7 1), rootGone := s.isl.rootGone || field tok 7 1 == 5 }
         else Replied 0 0x304 .paramUnsupported [] s t ∧ t.isl = used)
       else Replied 0 0x304 .deniedAttribute [] s t ∧ t.isl = used))) ∧
    (Asks s 0 0x305 p → d = 0 → Answers (.debugSet f) s (fun t => mem t ∧ Replied 0 0x305 .ok [] s t ∧ t.isl = { s.isl with debugReq := false })) ∧
    (Asks s 0 0x305 p → d ≠ 0 → clean d 4787 → Answers (.debugSet f) s (fun t => mem t ∧
      (if tokenOk s tok 2 = true then
        (if s.lcs = 1 ∨ s.lcs = 4 then Replied 0 0x305 .ok [] s t ∧ t.isl = { used with debugReq := true } else Replied 0 0x305 .paramUnsupported [] s t ∧ t.isl = used)
       else Replied 0 0x305 .deniedAttribute [] s t ∧ t.isl = used))) ∧
    (Asks s 0 0x307 p → clean d 4787 → Answers (.fwKeyRevoke f) s (fun t => mem t ∧
      (if tokenOk s tok 3 = true then
        (if field tok 7 1 < 4 ∧ (List.range 4).filter (fun j => !s.keyRevoked j) ≠ [field tok 7 1] then Replied 0 0x307 .ok [] s t ∧
          t.isl = { used with revoked := insSet (field tok 7 1) s.isl.revoked } else Replied 0 0x307 .paramUnsupported [] s t ∧ t.isl = used)
       else Replied 0 0x307 .deniedAttribute [] s t ∧ t.isl = used))) ∧
    (∀ h, Asks s 0 0x306 p → n ≤ 0x10000 → clean d n → (s.slot 2).cur = some h → Answers (.certInstall f) s (fun t => mem t ∧
      (if Config.certKey b = some (p384Pub h.key) then Replied 0 0x306 .ok [] s t ∧ t.isl = { s.isl with cert := some b } else Replied 0 0x306 .verdictReject [] s t ∧ t.isl = s.isl)))

/-- Model pages are loaded; firmware, tokens and certificates kept. -/
def Obligations.ModelsAndFirmware : Prop :=
  Claim.ModelLoads ∧ Claim.ModelPages ∧ Claim.FirmwareCommands

/-- R443, R444, R445, R451: SHELF_DEFINE of a right descriptor makes its shelf READY and empty. -/
def Claim.ShelfCommands : Prop :=
  ∀ (f : BitVec 4) (p : Bytes) (s : State), f = 0 →
    let k := field p 0 1
    let kept := fun t : State => t = { s with host := t.host }
    let d := parseShelf p
    let i := field p 6 1
    (Asks s 0 0x401 p → shelfFields p = true → tdiHolds s i = false → (d.flags.testBit 0 = false ∨ s.isl.debug = false) →
      ((s.shelf i).desc = none → shelfOk s i d = true → Answers (.shelfDefine f) s (fun t => Replied 0 0x401 .ok [] s t ∧ t.mem = s.mem ∧ t.bays = s.bays ∧
        t.shelf i = { desc := some d, counts := { quietMhz := if d.flags.testBit 1 then d.quietMhz else 0 } } ∧ ∀ j, j ≠ i → t.shelf j = s.shelf j)) ∧
      ((s.shelf i).desc ≠ none → Answers (.shelfDefine f) s (fun t => Replied 0 0x401 .paramUnsupported [] s t ∧ kept t))) ∧
    (Asks s 0 0x401 p → shelfFields p = false → Answers (.shelfDefine f) s (fun t => Replied 0 0x401 .paramUnsupported [] s t ∧ kept t)) ∧
    (∀ e, Asks s 0 0x402 p → k < 8 → (s.shelf k).desc = some e → Answers (.shelfQuery f) s (fun t => Replied 0 0x402 .ok e.raw s t ∧ kept t)) ∧
    (Asks s 0 0x402 p → 8 ≤ k → Answers (.shelfQuery f) s (fun t => Replied 0 0x402 .paramUnsupported [] s t ∧ kept t)) ∧
    (∀ e, Asks s 0 0x403 p → k < 8 → (s.shelf k).desc = some e → tdiHolds s k = false → Answers (.tenantSwitch f) s (fun t => Replied 0 0x403 .ok [] s t ∧
      (t.shelf k).desc = (if (field p 1 1).testBit 0 then none else some e) ∧ (t.shelf k).round.active = false ∧ (t.shelf k).prog.loaded = false ∧ (t.shelf k).reg = (fun _ => 0) ∧
      (∀ a, ownerAt s a = some k → memGet t.mem a = memGet [] a) ∧ (∀ b ∈ (s.shelf k).bays, (t.bay b).casks = []) ∧
      (∀ j h, 16 ≤ j → (s.slot j).cur = some h → h.owner = k → t.slot j = {}) ∧ ∀ w, w / 65536 = k → tget none (t.windows.map (fun e => (e.1, some e.2))) w = none)) ∧
    (∀ e, Asks s 0 0x403 p → k < 8 → (s.shelf k).desc = some e → tdiHolds s k = true → Answers (.tenantSwitch f) s (fun t => Replied 0 0x403 .deniedAttribute [] s t ∧ kept t)) ∧
    (∀ e, Asks s 0 0x404 p → k < 8 → (s.shelf k).desc = some e → tdiHolds s k = false → (s.shelf k).round.active = false → (s.shelf k).prog.service = false →
      let e' := e.withQuiet ((field p 1 1).testBit 0) (field p 2 2) (field p 4 2)
      (quietOk s (otherShelves s k) e' = true → Answers (.quietSet f) s (fun t => Replied 0 0x404 .ok [] s t ∧ (t.shelf k).desc = some e' ∧ t.mem = s.mem ∧ t.bays = s.bays ∧ t.seqs = s.seqs)) ∧
      (quietOk s (otherShelves s k) e' = false → Answers (.quietSet f) s (fun t => Replied 0 0x404 .paramUnsupported [] s t ∧ kept t)))

/-! ### Ports, Basdo transport and remote access (13_basdo_transport.md, 14_remote_access.md) -/

/-- R352, R353, R365, R376: an unsealed RMA.WR, RMA.RD or TSEND that passes its checks stays in flight and enters one message with the next MSG_SEQ and its destination's fields. -/
def Claim.SendingCommands : Prop :=
  ∀ (q n k : Nat) (d : Bytes) (s : State),
    let u := s.queue q n
    let same := fun t : State => t.mem = s.mem ∧ t.seqs = s.seqs ∧ SameBays s t ∧ t.shelves = s.shelves ∧ t.windows = s.windows ∧ t.bins = s.bins
    let enters := fun (op : Nat) (t : State) => Accepted q n none s t ∧ same t ∧
      t.tp = (enter (sendMsg op k (.command q n (u.counted + u.inflight.length)) d s) s).tp ∧ t.tp.seq = (if s.tp.seq % 2 ^ 32 = 2 ^ 32 - 1 then 1 else (s.tp.seq + 1) % 2 ^ 32)
    let refused := fun t : State => Accepted q n (some .paramUnsupported) s t ∧ same t ∧ t.tp = s.tp
    let full := (s.dest (nDest d)).usable k = true ∧ flightSlice (s.shelf k) ((s.dest (nDest d)).chan / 32) ≤ flightUsed s k ((s.dest (nDest d)).chan / 32)
    let at_ := fun (kind op : Nat) (c : Instr) =>
      Presents s q n k kind d →
      (sendCheck op k d s = none → nSeal d = false → ¬full → Answers c s (enters op)) ∧ (full → Answers c s (fun t => t = s)) ∧
      ((s.dest (nDest d)).usable k = false → Answers c s refused)
    at_ 0x30 1 (.rmaWr q n) ∧ at_ 0x31 3 (.rmaRd q n) ∧ at_ 0x32 2 (.tsend q n)

/-- R384, R386: POSTRECV of a bin that passes its checks, with no unexpected message held. -/
def Claim.PostedBins : Prop :=
  ∀ (q n k : Nat) (d : Bytes) (s : State), Presents s q n k 0x33 d →
    let i := slotKey k (nIndex d)
    (postCheck k d s = true → (s.shelf k).remote.unex = [] → Answers (.postrecv q n) s (fun t => Accepted q n (some .ok) s t ∧
      t.bin i = postedBin d ((s.shelf k).remote.postOrder + 1) ∧ (∀ j, j ≠ i → t.bin j = s.bin j) ∧ t.mem = s.mem ∧ t.seqs = s.seqs ∧ SameBays s t ∧ t.windows = s.windows)) ∧
    (postCheck k d s = false → Answers (.postrecv q n) s (fun t => Accepted q n (some .paramUnsupported) s t ∧ t.bins = s.bins ∧ t.mem = s.mem ∧ t.shelves = s.shelves))

/-- Remote writes, reads and sends enter messages; bins are posted. -/
def Obligations.RemoteCommands : Prop :=
  Claim.SendingCommands ∧ Claim.PostedBins

/-- R379, R383, R398: WIN_REGISTER opens a free window of the shelf's slice with the fields of a descriptor that passes its checks. -/
def Claim.WindowCommands : Prop :=
  ∀ (k : Nat) (a : BitVec 42) (s : State),
    let h := s.shelf k
    let i := (h.reg 0x1910).toNat % 65536
    let w := slotKey k i
    let x := s.win w
    let ad := a.toNat * 64
    let ok := fun t : State => (t.shelf k).remote.winResult = Status.ok.code ∧ t.mem = s.mem ∧ t.seqs = s.seqs ∧ t.bays = s.bays ∧ t.bins = s.bins ∧
      (∀ j, j ≠ w → t.win j = s.win j ∧ t.gen j = s.gen j)
    (i < winSlice h → x.isFree = true → inShelf h ad 64 = true → Clean s k ad 64 → winOk s k (vread s k ad 64) = true →
      Answers (.winRegister k a) s (fun t => ok t ∧ t.win w = parseWin (vread s k ad 64) ∧ t.gen w = s.gen w)) ∧
    (i < winSlice h → x.isFree = false → Answers (.winRegister k a) s (fun t => (t.shelf k).remote.winResult = Status.paramUnsupported.code ∧
      t.windows = s.windows ∧ t.mem = s.mem)) ∧
    (i < winSlice h → x.isOpen = true → x.inflight ≠ 0 → Answers (.winRevoke k a) s (fun t => ok t ∧ t.win w = { x with state := .draining } ∧
      t.gen w = (s.gen w + 1) % 2 ^ 32)) ∧
    (i < winSlice h → x.isOpen = true → x.inflight = 0 → h.evtCfg.getLsbD 0 = false → Answers (.winRevoke k a) s (fun t => ok t ∧ (t.win w).isFree = true ∧
      t.gen w = (s.gen w + 1) % 2 ^ 32)) ∧
    (i < winSlice h → x.isOpen = false → Answers (.winRevoke k a) s (fun t => (t.shelf k).remote.winResult = Status.paramUnsupported.code ∧ t.windows = s.windows ∧
      t.gens = s.gens)) ∧
    (i < winSlice h → Answers (.winQuery k a) s (fun t => ok t ∧ t.win w = x ∧ (t.shelf k).remote.winState = x.state.code ∧
      (t.shelf k).remote.winInflight = min x.inflight (2 ^ 14 - 1) ∧ (t.shelf k).remote.winGen = s.gen w))

/-- R386, R387, R389, R398: BIN_CANCEL frees a posted bin and leaves any other state. -/
def Claim.BinsAndEvents : Prop :=
  ∀ (k : Nat) (i : BitVec 16) (v : Word) (s : State),
    let h := s.shelf k
    let b := slotKey k i.toNat
    let keep := fun t : State => t.seqs = s.seqs ∧ t.bays = s.bays ∧ t.windows = s.windows ∧ t.queues = s.queues ∧ (t.shelf k).round = h.round
    let tail := v.toNat / 2 ^ 32 % 65536
    (i.toNat < binSlice h → (s.bin b).posted = true → h.evtCfg.getLsbD 0 = false → Answers (.binCancel k i) s (fun t => keep t ∧ t.mem = s.mem ∧
      (t.bin b).state = .free ∧ (∀ j, j ≠ b → t.bin j = s.bin j) ∧ (t.shelf k).remote.binResult = Status.ok.code)) ∧
    ((s.bin b).posted = false → Answers (.binCancel k i) s (fun t => keep t ∧ t.mem = s.mem ∧ t.bins = s.bins ∧
      (t.shelf k).remote.binResult = Status.paramUnsupported.code)) ∧
    (i.toNat < binSlice h → Answers (.binQuery k i) s (fun t => keep t ∧ t.mem = s.mem ∧ t.bins = s.bins ∧
      (t.shelf k).remote.binState = (s.bin b).state.code ∧ (t.shelf k).remote.binResult = Status.ok.code)) ∧
    (waitingRx s k = [] → drainingWins s k = [] → waitingUnex s k = [] →
      (h.remote.evtQueue = [] → Answers (.evtTailWrite k v) s (fun t => t = s.onRemote k (fun r => { r with evtTail := tail }))) ∧
      (∀ e, h.remote.evtQueue = [e] → h.evtCfg.getLsbD 0 = true → (h.remote.evtHead + 65536 - tail) % 65536 ≠ evtSize h →
        Answers (.evtTailWrite k v) s (fun t => keep t ∧ (t.shelf k).remote.evtTail = tail ∧ (t.shelf k).remote.evtQueue = [] ∧
          (t.shelf k).remote.evtHead = (h.remote.evtHead + 1) % 65536 ∧
          t.mem = (vwrite s k (h.evtCfg.toNat / 4096 % 2 ^ 36 * 4096 + h.remote.evtHead % evtSize h * 32) e).mem))) ∧
    (∀ (id : Nat) (u : Unex), unexMsg s k id = some u → u.delivered = true → u.bin = none → u.gone = false → h.evtCfg.getLsbD 0 = false →
      (ageMs h ≠ 0 → Answers (.unexpectedAgeExpiry k id) s (fun t => keep t ∧ t.mem = (unexState k id 2 s).mem ∧ t.bins = s.bins ∧
        (t.shelf k).remote.unexAged = up 16 h.remote.unexAged ∧ u.at_ + ageMs h * 1000000 ≤ t.clk ∧
        ∀ y ∈ (t.shelf k).remote.unex, y.id = id → y.gone = true)) ∧
      (ageMs h = 0 → Idles (.unexpectedAgeExpiry k id) s))

/-- Windows are opened and closed; bins and event rings are kept. -/
def Obligations.WindowsAndEvents : Prop :=
  Claim.WindowCommands ∧ Claim.BinsAndEvents

/-- R367, R373, R376: TP_TIMER and TP_RATE take a value whose fields lie in their ranges and keep their value, with CFG_ERR, for any other. -/
def Claim.TransportConfig : Prop :=
  ∀ (v : Word) (i : BitVec 12) (s : State),
    let f := fun lo n : Nat => v.toNat / 2 ^ lo % 2 ^ n
    let timer := 2 ≤ f 0 8 ∧ f 0 8 ≤ 200 ∧ 1 ≤ f 8 4 ∧ f 8 4 ≤ 12 ∧ 1 ≤ f 12 4 ∧ 1 ≤ f 24 8 ∧ 100 ≤ f 32 12 ∧ 8 ≤ f 44 8 ∧ f 0 8 * (2 ^ (f 8 4 + 1) - 1) + 1000 ≤ f 16 8 * 1000
    let rate := 1 ≤ f 10 10 ∧ 1 ≤ f 28 4 ∧ f 28 4 ≤ 10 ∧ 1 ≤ f 32 8
    let a := destBase i.toNat + 0x10
    let only := fun t : State => t.mem = s.mem ∧ t.seqs = s.seqs ∧ t.shelves = s.shelves ∧ t.bays = s.bays
    let err := fun t : State => only t ∧ t.cfg = s.cfg ∧ t.tp = { s.tp with cfgErr := true }
    let sets := fun (off : Nat) (w : Word) (t : State) => only t ∧ t.tp = s.tp ∧ t.dreg off = w ∧ ∀ o, o ≠ off → t.dreg o = s.dreg o
    (timer → Answers (.tpTimerWrite v) s (sets 0x60_0010 (v &&& 0xF_FFFF_FFFF_FFFF))) ∧ (¬timer → Answers (.tpTimerWrite v) s err) ∧
    (rate → Answers (.tpRateWrite v) s (sets 0x60_0018 (v &&& 0xFFF_FFFF_FFFF))) ∧ (¬rate → Answers (.tpRateWrite v) s err) ∧
    (v.getLsbD 0 = true → f 8 6 / 32 ≠ f 16 6 / 32 → Answers (.destCfgWrite i v) s (sets a (s.dreg a ||| 0x80))) ∧
    (v.getLsbD 0 = true → f 8 6 / 32 = f 16 6 / 32 → s.dev.card = false → v.getLsbD 7 = true → Answers (.destCfgWrite i v) s (sets a (v &&& 0xFFFF_FF3F_3F7F)))

/-- R344, R345, R372, R373: a write of another MODE takes the port's channels down and trains those of the new mode whose lanes are sound. -/
def Claim.PortChannels : Prop :=
  ∀ (n c : Nat) (v : Word) (lock : Bool) (ok bad : BitVec 16) (s : State), n < 16 → c < 4 →
    let p := s.port n
    let m := v.toNat % 4
    let keep := fun t : State => t.seqs = s.seqs ∧ t.bays = s.bays ∧ (s.tp.tx = [] → t.mem = s.mem) ∧ ∀ j, j ≠ n → t.port j = s.port j
    let ch := BitVec.ofNat 6 (n * 4 + c)
    let mask := laneChannels s n c
    let fec := fun t : State => (t.port n).fecCorr = min (p.fecCorr + ok.toNat) (2 ^ 32 - 1) ∧ (t.port n).fecUncorr = min (p.fecUncorr + bad.toNat) (2 ^ 16 - 1)
    (portHeld s n = false → p.up < 16 → m ≠ s.portMode n → Answers (.portModeWrite (BitVec.ofNat 4 n) v) s (fun t => keep t ∧ t.portCfg n = v &&& 0xF_FF77 ∧
      (t.port n).up = 0 ∧ ∀ i, i < 4 → nbit (t.port n).training i = (nbit (modeChannels m) i && modeLanes m i &&& p.failed == 0))) ∧
    (portHeld s n = false → m = s.portMode n → Answers (.portModeWrite (BitVec.ofNat 4 n) v) s (fun t => keep t ∧ t.port n = p ∧ t.portCfg n = v &&& 0xF_FF77)) ∧
    (portHeld s n = true → Idles (.portModeWrite (BitVec.ofNat 4 n) v) s) ∧
    (nbit p.training c = true → Answers (.channelTrained ch) s (fun t => keep t ∧
      t.port n = { p with training := p.training - 2 ^ c, up := p.up ||| 2 ^ c, laneOk := p.laneOk ||| modeLanes (s.portMode n) c })) ∧
    (nbit p.training c = false → Idles (.channelTrained ch) s) ∧
    (nbit p.up c = true → Answers (.channelDown ch) s (fun t => keep t ∧ nbit (t.port n).up c = false ∧ (t.port n).retrains = up 16 p.retrains ∧
      (nbit (modeChannels (s.portMode n)) c = true → modeLanes (s.portMode n) c &&& p.failed = 0 → nbit (t.port n).training c = true))) ∧
    (nbit p.up c = false → Idles (.channelDown ch) s) ∧
    (portHeld s n = false → mask ≠ 0 → (lock = false ∨ 16 < bad.toNat) → nbit p.failed c = false →
      (spareUsed s (n / 4) = true → Answers (.laneFailure ⟨ch, lock, ok, bad⟩) s (fun t => fec t ∧ keep t ∧ (t.port n).degraded = true ∧ (t.port n).failed = p.failed ||| 2 ^ c ∧
        ∀ i, i < 4 → nbit mask i = true → nbit (t.port n).up i = false ∧ nbit (t.port n).training i = false)) ∧
      (spareUsed s (n / 4) = false → Answers (.laneFailure ⟨ch, lock, ok, bad⟩) s (fun t => fec t ∧ keep t ∧ (t.port n).spareHere = true ∧ (t.port n).spareLane = c ∧
        (t.port n).failed = p.failed ∧ (t.port n).retrains = up 16 p.retrains ∧ (n * 4 + c) ∈ t.dev.repairs.lanes ∧
        ∀ i, i < 4 → nbit mask i = true → nbit (t.port n).up i = false))) ∧
    (portHeld s n = false → mask ≠ 0 → lock = true → bad.toNat ≤ 16 → Answers (.laneFailure ⟨ch, lock, ok, bad⟩) s (fun t => t = { s with ports := t.ports } ∧ fec t ∧
      t.port n = { p with fecCorr := (t.port n).fecCorr, fecUncorr := (t.port n).fecUncorr } ∧ ∀ j, j ≠ n → t.port j = s.port j))

/-- R346: a frame on an up channel with a wrong FCS, of MAC control, or of another EtherType is discarded and counted in its own counter of the port. -/
def Claim.FramesCounted : Prop :=
  ∀ (c : Nat) (f : Bytes) (s : State), chanUp s c = true →
    let n := c / 4
    let p := s.port n
    let typ := beNat (slice f 12 2)
    let counts := fun (q : Port) (t : State) => t = { s with ports := t.ports } ∧ t.port n = q ∧ ∀ j, j ≠ n → t.port j = s.port j
    Answers (.frameDiscard c false f) s (counts { p with fcs := up 16 p.fcs }) ∧
    (typ = 0x8808 → Answers (.frameDiscard c true f) s (counts { p with pause := up 16 p.pause })) ∧
    (typ = 0x8100 → (s.portCfg n).getLsbD 2 = false → Answers (.frameDiscard c true f) s (counts { p with vlan := up 16 p.vlan })) ∧
    (typ ≠ 0x8808 → typ ≠ 0x8100 → typ ≠ 0x86DD → Answers (.frameDiscard c true f) s (counts { p with other := up 16 p.other })) ∧
    (∀ src mac, frameKind s c true f = .solicit src mac → Answers (.neighborSolicitation c true f) s (fun t =>
      t = { s with tp := t.tp } ∧ t.tp = { s.tp with wire := (c, advertisement s c src mac) :: s.tp.wire })) ∧
    Idles (.neighborSolicitation c false f) s

/-- Transport configuration, channels and the counting of frames. -/
def Obligations.PortsAndFrames : Prop :=
  Claim.TransportConfig ∧ Claim.PortChannels ∧ Claim.FramesCounted

/-- R349, R354, R355: DATA_PACKET_SEND of a message in the window of R355 with a rate record sends the next packet, with its header. -/
def Claim.PacketSent : Prop :=
  ∀ (key : Nat) (m : TxMsg) (b : Bytes) (s : State), s.txMsg key = some m → m.source = .held b → m.op ≠ 3 → s.tpEn = true →
    let k := m.sent.length
    let c := egress s m
    let path := firstPath s key m k
    chanUp s c = true → k < m.packets s.mss → k < m.cum + 257 → tmem s.tp.rates (rateKey m.chan m.node) = true →
    (m.state = .send ∨ (m.state = .wait ∧ (m.op ≠ 1 ∧ m.op ≠ 2 ∨ flowRoom s (m.chan / 32) (0, m.shelf, m.dest, m.flow) = true))) →
    Answers (.dataPacketSend key) s (fun t => t = { s with tp := t.tp } ∧
      t.tp.wire = (c, frameOf s c m.addr (s.tpCfg.toNat / 4 % 64) 2 (flowLabelOf m.flow path) (sportOf s m.flow path)
        (s.tpCfg.toNat / 2 ^ 16 % 2 ^ 16) (dataHeader s key m k path false false ++ slice b (k * s.mss) s.mss)) :: s.tp.wire ∧
      t.txMsg key = some { m with sent := tput m.sent k path, onChan := tput m.onChan k c
                                  state := if k + 1 = m.packets s.mss then .drain else .send, timer := if m.state = .wait then s.clk else m.timer
                                  flowRec := m.flowRec || (m.state == .wait && (m.op == 1 || m.op == 2)) } ∧
      t.tp.rx = s.tp.rx)

/-- R359, R360, R361, R372, R374: an acknowledgement that says DONE ends a command's message and completes it OK, one that refuses completes it with the status carried. -/
def Claim.MessageEnds : Prop :=
  ∀ (key q n id chan : Nat) (f : Bytes) (p : Packet) (m : TxMsg) (s : State), s.txMsg key = some m → m.use = .command q n id → m.op ≠ 3 →
    let a := parseAck p.bytes
    let ended := fun (st : Status) (t : State) => t.txMsg key = none ∧ t.mem = s.mem ∧ t.seqs = s.seqs ∧ t.bays = s.bays ∧
      (t.queue q n).inflight = (s.queue q n).inflight.zipIdx.map (fun e =>
        if e.2 = id - (s.queue q n).counted then { e.1 with result := some st, detail := 0 } else e.1)
    (basdoOf s chan true f = some p → field p.bytes 0 1 = 0x12 → ackOk p.bytes = true → ackKey s a = some key →
      (a.refused = false → a.done = true → Answers (.ackReceive chan true f) s (ended .ok)) ∧
      (a.refused = true → Answers (.ackReceive chan true f) s (ended (refusalOf a.status)))) ∧
    (basdoOf s chan true f = some p → field p.bytes 0 1 = 0x12 → ackOk p.bytes = false → Answers (.ackReceive chan true f) s (fun t =>
      t = { s with tp := { s.tp with badHdr := up 16 s.tp.badHdr } })) ∧
    (m.sent ≠ [] → m.tries = s.tpTimer.toNat / 256 % 16 → Answers (.retransmitTimeout key) s (fun t => ended .retryExhausted t ∧ m.timer + rto s m ≤ t.clk)) ∧
    (∀ (b : Bytes) (path : Nat), m.source = .held b → m.sent = [(0, path)] → m.acked = [] → m.tries ≠ s.tpTimer.toNat / 256 % 16 →
      s.tpEn = true → chanUp s (egress s m) = true →
      Answers (.retransmitTimeout key) s (fun t => (t.txMsg key).map (fun x => (x.tries, x.acked)) = some (m.tries + 1, []) ∧ t.queues = s.queues ∧ t.mem = s.mem ∧
        (∃ g, t.tp.wire = (egress s m, g) :: s.tp.wire) ∧ t.tp.timeouts = up 32 s.tp.timeouts ∧ t.tp.retx = up 32 s.tp.retx)) ∧
    (m.sent ≠ [] → m.tries ≠ s.tpTimer.toNat / 256 % 16 → (s.tpEn = false ∨ chanUp s (egress s m) = false) →
      Answers (.retransmitTimeout key) s (fun t => t.tp.wire = s.tp.wire ∧ t.tp.retx = s.tp.retx ∧ t.queues = s.queues ∧ t.mem = s.mem ∧
        m.timer + rto s m ≤ t.clk))

/-- R354, R370: a suspect path returns to the rotation 1 ms after it became suspect. -/
def Claim.PathsAndRates : Prop :=
  ∀ (node path : Nat) (s : State),
    let x := s.pathOf node path
    let g : Rat := (2 ^ (s.tpRate.toNat / 2 ^ 28 % 16) : Nat)
    (x.suspect = true → Answers (.pathSuspectEnd node path) s (fun t => t.pathOf node path = { x with suspect := false } ∧ x.since + 1000000 ≤ t.clk ∧
      (∀ p, p < 8 → p ≠ path → path < 8 → t.pathOf node p = s.pathOf node p) ∧ t.mem = s.mem ∧ t.tp.tx = s.tp.tx)) ∧
    (x.suspect = false → Idles (.pathSuspectEnd node path) s) ∧
    Answers (.ratePeriod) s (fun t => t = { s with tp := t.tp } ∧ t.tp = { s.tp with rates := t.tp.rates } ∧ t.tp.rates.length = s.tp.rates.length ∧
      ∀ (i : Nat) (e : Nat × Rate), s.tp.rates[i]? = some e → ∃ y, t.tp.rates[i]? = some (e.1, y) ∧
        (rateBusy s e.1 = false → e.2.acked = 0 → e.2.marked = 0 → y = e.2) ∧
        (rateBusy s e.1 = true ∨ 0 < e.2.acked ∨ 0 < e.2.marked →
          let a := e.2.alpha - e.2.alpha / g + (e.2.marked : Rat) / (max 1 e.2.acked : Nat) / g
          y.alpha = a ∧
          (0 < e.2.marked → y.r = max (minRate s) ((e.2.r : Rat) * (1 - a / 2)).floor.toNat ∧ y.inc = 0 ∧ y.marked = 0 ∧ y.acked = 0) ∧
          (e.2.marked = 0 → 0 < e.2.acked → y.r ≤ lineRate s (e.1 / 65536) ∧ y.inc = e.2.inc + 1 ∧ y.acked = 0) ∧
          (e.2.marked = 0 → e.2.acked = 0 → y.r = e.2.r)))

/-- Packets are sent, paths and rates kept, and messages end. -/
def Obligations.SendingMessages : Prop :=
  Claim.PacketSent ∧ Claim.PathsAndRates ∧ Claim.MessageEnds

/-- R356, R357, R363, R380, R381: the only packet of an unsealed WRITE that a window without events takes is written at the window's BASE plus ROFF, to no other byte. -/
def Claim.PacketReceived : Prop :=
  ∀ (c w : Nat) (f : Bytes) (p : Packet) (s : State), basdoOf s c true f = some p →
    let d := parseData p.bytes
    let k := d.tshelf
    let x := s.win w
    (dataOk p.bytes = true → s.rxMsg d.key = none → d.op = 1 → d.prev = 0 → d.off = 0 → d.len = d.body.length → successors s d.key = [] →
      admission s p.chan d = .take (.window w) false → x.notifyEn = false → x.eventEn = false → x.isOpen = true →
      Answers (.dataPacketReceive c true f) s (fun t => t.mem = (vwrite s k (x.base + d.roff) d.body).mem ∧ t.win w = x ∧ t.seqs = s.seqs ∧ t.bays = s.bays ∧
        t.queues = s.queues ∧ t.tp.wire.length = s.tp.wire.length + 1 ∧ (t.rxMsg d.key).map (fun m => (m.state, m.packets)) = some (.linger, [0]))) ∧
    (∀ st, dataOk p.bytes = true → s.rxMsg d.key = none → d.op ≠ 4 → admission s p.chan d = .refuse st →
      Answers (.dataPacketReceive c true f) s (fun t => t.mem = s.mem ∧ t.windows = s.windows ∧ t.bins = s.bins ∧ t.queues = s.queues ∧ t.seqs = s.seqs ∧
        t.tp.wire.length = s.tp.wire.length + 1 ∧ (t.rxMsg d.key).map (fun m => (m.state, m.status)) = some (.refused, st))) ∧
    (dataOk p.bytes = false → field p.bytes 0 1 ≠ 0x12 → field p.bytes 0 1 ≠ 0x13 → Answers (.dataPacketReceive c true f) s (fun t =>
      t = { s with tp := { s.tp with badHdr := up 16 s.tp.badHdr } }))

/-- R358, R366, R372, R374: a delayed acknowledgement goes out ACK_DELAY after the first unacknowledged packet, unless the transport is off or the channel is down. -/
def Claim.ReceiverTimers : Prop :=
  ∀ (snode seq : Nat) (m : RxMsg) (s : State), s.rxMsg (rxKey snode seq) = some m →
    let key := rxKey snode seq
    let t0 := s.tpTimer.toNat
    let keep := fun t : State => t.mem = s.mem ∧ t.seqs = s.seqs ∧ t.bays = s.bays ∧ t.queues = s.queues
    (m.state = .placing → m.sinceAck ≠ 0 → Answers (.ackDelayExpiry snode seq) s (fun t => keep t ∧ m.firstAt + t0 / 2 ^ 32 % 4096 ≤ t.clk ∧
      (s.tpEn = true → chanUp s m.cause = true → ∃ g, t.tp.wire = (m.cause, g) :: s.tp.wire) ∧
      ((s.tpEn = false ∨ chanUp s m.cause = false) → t.tp.wire = s.tp.wire) ∧ t.rxMsg key = some { m with sinceAck := 0, firstAt := 0 })) ∧
    (m.sinceAck = 0 → Idles (.ackDelayExpiry snode seq) s) ∧
    ((m.state = .linger ∨ m.state = .refused) → Answers (.lingerExpiry snode seq) s (fun t => keep t ∧ t.rxMsg key = none ∧ t.tp.tx = s.tp.tx ∧
      m.endAt + t0 / 2 ^ 16 % 256 * 1000000 ≤ t.clk)) ∧
    ((m.state = .placing ∨ m.state = .held) → Idles (.lingerExpiry snode seq) s) ∧
    (∀ w, m.state = .placing → m.target = .window w → (s.win w).isOpen = true → Answers (.receiveAbandon snode seq) s (fun t => keep t ∧ t.rxMsg key = none ∧
      t.win w = { s.win w with inflight := (s.win w).inflight - 1 } ∧ t.tp.abandoned = up 16 s.tp.abandoned ∧
      m.lastAt + t0 / 2 ^ 24 % 256 * 1000000 ≤ t.clk)) ∧
    ((m.state = .linger ∨ m.state = .held) → Idles (.receiveAbandon snode seq) s)

/-- Packets are received, admitted and acknowledged; receive entries end by their timers. -/
def Obligations.ReceivingMessages : Prop :=
  Claim.PacketReceived ∧ Claim.ReceiverTimers

/-! ### The schedule table, waypoints, restores and contexts (19, 20, 17) -/

/-- R268, R481, R526: an armed entry of its kind fires. -/
def Claim.ScheduleFires : Prop :=
  ∀ (k : Nat) (e : BitVec 8) (s : State),
    let x := s.schedEntry k e.toNat
    let due := fun kind => x.armed = true ∧ x.kind = kind ∧ x.retry = none ∧ (s.shelf k).desc ≠ none
    let fired := fun (st : Nat) (t : State) => t.schedEntry k e.toNat = { x with fired := true, result := st, armed := x.period != 0, time := (if x.period = 0 then x.time else
      x.time + BitVec.ofNat 64 (x.period * 1000000)) } ∧ t.seqs = s.seqs ∧ t.queues = s.queues ∧ (t.shelf k).round = (s.shelf k).round ∧ s.clk ≤ t.clk
    let c := (s.shelf k).reg 0x1930
    let a := c.toNat / 2 ^ 11 % 2 ^ 37 * 2048 + x.arg * 8
    (due 1 → Answers (.schedMarkFire k e) s (fun t => fired 0 t ∧ t.mem = s.mem ∧ t.bays = s.bays ∧ t.chest = s.chest)) ∧
    (x.armed = false → Idles (.schedMarkFire k e) s ∧ Idles (.refreshWindowOpen k e) s ∧
      Idles (.refreshWindowClose k e) s ∧ Idles (.schedDoorbell k e) s) ∧
    (due 2 → (∀ i, i < 8 → (s.rslot k i).state ≠ .gather) → Answers (.refreshWindowOpen k e) s (fun t => fired 0 t ∧ (t.shelf k).lat.window = true ∧
      ∀ i, i < 8 → (t.rslot k i).state = (if (s.rslot k i).state = .paused then .running else (s.rslot k i).state))) ∧
    (due 3 → Answers (.refreshWindowClose k e) s (fun t => fired 0 t ∧ (t.shelf k).lat = { (s.shelf k).lat with window := false } ∧ t.mem = s.mem)) ∧
    (due 5 → c.getLsbD 0 = true → vstat s k a 8 = .ok → Answers (.schedDoorbell k e) s (fun t => fired 0 t ∧
      t.mem = (vwrite s k a (toLe 8 (leNat (vread s k a 8) + 1))).mem)) ∧
    (due 5 → c.getLsbD 0 = false → Answers (.schedDoorbell k e) s (fun t => fired 0x22 t ∧ t.mem = s.mem))

/-- R480, R481, R526: a KEY_RETIRE entry retires the previous half of chest slot ARG once no page is left under it. -/
def Claim.ScheduledRetirement : Prop :=
  ∀ (k : Nat) (e : BitVec 8) (s : State),
    let x := s.schedEntry k e.toNat
    let y := s.slot x.arg
    let ends := fun (st : Nat) (t : State) => (t.schedEntry k e.toNat).fired = true ∧ (t.schedEntry k e.toNat).result = st ∧ (t.schedEntry k e.toNat).retry = none ∧ t.mem = s.mem
    let retired := fun (h : Half) (t : State) => ends 0 t ∧ t.slot x.arg = { y with prev := none, prevPages := 0, retired := max y.retired h.gen } ∧
      ∀ n, n ≠ x.arg → t.slot n = s.slot n
    let again := fun (t : State) => t.schedEntry k e.toNat = { x with retry := some (t.epoch + 10000000) } ∧ t.chest = s.chest ∧ t.mem = s.mem
    let denied := fun (t : State) => ends Status.deniedAttribute.code t ∧ t.chest = s.chest
    let outcomes := fun (c : Instr) =>
      (mayManage s (k + 1) x.arg = false → Answers c s denied) ∧
      (mayManage s (k + 1) x.arg = true → ∀ h g, y.cur = some g → y.prev = some h →
        (y.prevPages = 0 → Answers c s (retired h)) ∧ (0 < y.prevPages → Answers c s again)) ∧
      (mayManage s (k + 1) x.arg = true → y.prev = none → Answers c s (fun t => ends 0x22 t ∧ t.chest = s.chest))
    x.armed = true → x.kind = 4 →
    (x.retry = none → (s.shelf k).desc ≠ none → outcomes (.schedKeyRetire k e)) ∧
    (∀ at_, x.retry = some at_ → outcomes (.schedKeyRetireRetry k e)) ∧
    (x.retry = none → Idles (.schedKeyRetireRetry k e) s)

/-- Schedule entries fire, retire keys and arm again. -/
def Obligations.ScheduleEntries : Prop :=
  Claim.ScheduleFires ∧ Claim.ScheduledRetirement

/-- R56, R142, R161, R524, R538, R539, R540, R591: a waypoint that is due, of a round that is active, reads the Casks. -/
def Claim.WaypointsWritten : Prop :=
  ∀ (k : Nat) (s : State),
    let h := s.shelf k
    let w := h.wpt
    let n := (s.dev.wptNum + 1) % 2 ^ 32
    let r := readCasks k s
    let s₁ : State := ({ r with dev := { r.dev with wptNum := n } }).onWpt k (fun w => { w with cuts := w.cuts + 1, due := false })
    let secs := wptSections s₁ k s.epoch
    let lay := layWpt (secs.map (fun x => (x, x.data))) 0x10000
    let slot := wptSlot h w.nextSlot
    let running := h.round.active = true ∧ h.rcv.state = .none
    let cut := fun t : State => t.dev.wptNum = n ∧ (t.shelf k).wpt.cuts = w.cuts + 1 ∧ t.bays = r.bays ∧ t.seqs = s.seqs ∧ t.queues = s.queues ∧ (t.shelf k).round = h.round
    (running → w.due = true → w.header = none → heldFolds s k = false → wptUnreadable s₁ k = false → (∀ x ∈ secs, x.sealed = false) →
      (lay.2.2 ≤ slot.2 → Answers (.waypointCut k) s (fun t => cut t ∧ (∃ b, (t.shelf k).wpt.header = some b ∧ b.take 256 = wptHead s₁ k s.epoch n secs.length ∧ b.length = 1024) ∧
        (t.shelf k).wpt.cutTime = s.epoch ∧ (t.shelf k).wpt.length = lay.2.2 ∧ (t.shelf k).wpt.slot = w.slot ∧ (t.shelf k).wpt.save = some (wptSave s₁ k s.epoch))) ∧
      (slot.2 < lay.2.2 → Answers (.waypointCut k) s (fun t => cut t ∧ (t.shelf k).wpt = { w with cuts := w.cuts + 1, due := false, overflow := up 8 w.overflow } ∧
        t.mem = s.mem))) ∧
    (running → w.header = none → heldFolds s k = true → Answers (.waypointCut k) s (fun t => (t.shelf k).wpt.due = true ∧ (t.shelf k).wpt.cuts = w.cuts ∧ (t.shelf k).wpt.header = none ∧
      t.mem = s.mem ∧ t.bays = s.bays ∧ t.seqs = s.seqs ∧ t.dev = s.dev)) ∧
    (running → w.due = true → w.header ≠ none → Idles (.waypointCut k) s) ∧
    (running → w.due = false → w.header ≠ none → Answers (.waypointCut k) s (fun t => (t.shelf k).wpt = { w with passed := up 16 w.passed, bound := nextBoundary h s.epoch } ∧ t.mem = s.mem ∧
      t.bays = s.bays ∧ t.seqs = s.seqs ∧ t.dev = s.dev)) ∧
    (h.round.active = true → h.rcv.state ≠ .none → Answers (.waypointCut k) s (fun t => (t.shelf k).wpt = { w with passed := up 16 w.passed, bound := nextBoundary h s.epoch } ∧
      t.mem = s.mem ∧ t.bays = s.bays ∧ t.seqs = s.seqs ∧ t.dev = s.dev)) ∧
    (h.round.active = false → Idles (.waypointCut k) s) ∧
    (∀ b, w.header = some b → Answers (.waypointComplete k) s (fun t => (t.shelf k).wpt.header = none ∧ (t.shelf k).wpt.slot = w.nextSlot ∧
      (t.shelf k).wpt.doneCut = w.cuts ∧ (t.shelf k).wpt.doneTime = w.cutTime ∧ (t.shelf k).wpt.count = w.count + 1 ∧ (t.shelf k).wpt.done = w.save ∧
      tget {} (t.shelf k).sched 6 = { time := BitVec.ofNat 64 (nextBoundary h s.epoch), kind := 1, armed := true } ∧ t.bays = s.bays ∧ t.seqs = s.seqs ∧
      (h.round.desc.flags.testBit 3 = false → t.mem = (vwrite s k slot.1 b).mem))) ∧
    (w.header = none → Idles (.waypointComplete k) s)

/-- R108, R395, R541: once every message of a waypoint to the buddy has ended OK it is acknowledged. -/
def Claim.BuddyAcknowledges : Prop :=
  ∀ (k cut time covered cover below : Nat) (s : State),
    let h := s.shelf k
    (h.wpt.buddy = [(cut, 0, time, covered, cover, below)] → Answers (.buddyAck k) s (fun t =>
      (t.shelf k).wpt = { h.wpt with buddy := [], ackTime := time, ends := h.wpt.ends ++ [(cut, time)] } ∧ (t.shelf k).round = h.round ∧ t.mem = s.mem ∧ t.bays = s.bays ∧ t.seqs = s.seqs ∧
      (∀ e ∈ (t.shelf k).intake.log, ∃ o ∈ h.intake.log, o.logSeq = e.logSeq ∧ o.state = e.state ∧ o.covered ≤ e.covered) ∧
      ((h.intake.coveredSeq.toNat + 1) % 2 ^ 64 < below → (t.shelf k).intake.coveredSeq = BitVec.ofNat 64 (below - 1)) ∧
      (below ≤ (h.intake.coveredSeq.toNat + 1) % 2 ^ 64 → (t.shelf k).intake.coveredSeq = h.intake.coveredSeq))) ∧
    ((∀ e ∈ h.wpt.buddy, e.2.1 ≠ 0) → Idles (.buddyAck k) s)

/-- Waypoints are cut, written, completed and acknowledged by the buddy. -/
def Obligations.Waypoints : Prop :=
  Claim.WaypointsWritten ∧ Claim.BuddyAcknowledges

/-- R442, R534, R542, R557: a bay fault enters the bay in the repair records, fences its shelf and stops its sequencers. -/
def Claim.BayFaults : Prop :=
  ∀ (b : BitVec 4) (s : State),
    let old := s.physOf b.toNat
    let fit := b.toNat < s.dev.phys.length ∧ old < 17
    (∀ x, fit → shelfOf s b.toNat = none → s.dev.spare = some x → Answers (.bayFault b true) s (fun t => t.physOf b.toNat = x ∧ t.dev.spare = none ∧
      t.dev.repairs.bays = addTo old s.dev.repairs.bays ∧ (t.bay b.toNat).casks = [] ∧ t.shelves = s.shelves ∧ t.health.alert.testBit 7 = true)) ∧
    (∀ k, fit → shelfOf s b.toNat = some k → (s.tdi k).isLocked = false →
      let h := s.shelf k
      let stopped := fun t : State => (t.shelf k).state = .fenced ∧ (t.shelf k).rcv.cause = 1 ∧ (t.shelf k).rcv.bay = old ∧
        ∀ q ∈ h.seqs, ((t.seq q).run = .idle ∨ (t.seq q).run = .stopped) ∧ ∀ n, n < 12 → (t.queue q n).entries = []
      let lost := fun t : State => stopped t ∧ t.physOf b.toNat = 17 ∧ t.dev.spare = none ∧ (t.shelf k).rcv.state = .fenced ∧ (t.shelf k).round.active = false ∧
        (h.round.active = true → (t.shelf k).round.outcome = .faulted ∧ (t.shelf k).round.detail = .shelfFenced)
      (∀ x, s.dev.spare = some x → Answers (.bayFault b true) s (fun t => stopped t ∧ t.physOf b.toNat = x ∧ t.dev.spare = none ∧ (t.bay b.toNat).casks = [] ∧
        (t.shelf k).rcv.state = .restoring ∧ (t.shelf k).round.active = h.round.active ∧ t.health.alert.testBit 7 = true)) ∧
      (∀ x, s.dev.spare = some x → Answers (.bayFault b false) s lost) ∧
      (s.dev.spare = none → ∀ bist, Answers (.bayFault b bist) s lost)) ∧
    (∀ bist, 17 ≤ s.physOf b.toNat → Idles (.bayFault b bist) s)

/-- R319, R543, R544: SHELF_RESTORE, and WARM_RESTORE once the entries that a sealed round needs are resident. -/
def Claim.ShelfRestores : Prop :=
  ∀ (k : Nat) (s : State),
    let h := s.shelf k
    let slot := wptSlot h h.wpt.slot
    let b := vread s k slot.1 slot.2
    let back := fun (w : WptSave) (t : State) => (t.shelf k).state = .ready ∧ (t.shelf k).rcv.state = .none ∧ (t.shelf k).rcv.restores = up 16 h.rcv.restores ∧
      (t.shelf k).round.desc = w.round.desc ∧ (t.shelf k).round.phase = w.round.phase ∧ (t.shelf k).round.restart = true ∧
      ∀ q ∈ h.seqs, ∀ n, n < 12 → (t.queue q n).entries = [] ∧ (t.queue q n).inflight = [] ∧ (t.queue q n).count = 0
    let outcomes := fun (c : Instr) =>
      (∀ w p m, h.round.active = true → h.wpt.done = some w → w.round.phase ≠ .seal → h.wpt.valid = true → readImage s k h.prog.addr = .ok p → p.digest = slice b 0x20 32 →
        wptReadable s k slot.1 b = true → wptParse s k b = some m → Answers c s (back w)) ∧
      (h.round.active = true → h.wpt.done = none → Answers c s (fun t => (t.shelf k).state = .ready ∧ (t.shelf k).rcv.state = .none ∧
        (t.shelf k).round.active = false ∧ (t.shelf k).round.outcome = .faulted ∧ (t.shelf k).round.detail = .shelfFenced)) ∧
      (h.round.active = false → Answers c s (fun t => (t.shelf k).state = .ready ∧ (t.shelf k).rcv = { h.rcv with state := .none } ∧ t.mem = s.mem ∧ t.seqs = s.seqs ∧ t.bays = s.bays))
    (h.rcv.state = .restoring → outcomes (.shelfRestore k)) ∧
    (h.rcv.state = .wait → entriesBack s k = true → outcomes (.warmRestore k)) ∧
    (h.rcv.state = .wait → entriesBack s k = false → Idles (.warmRestore k) s) ∧
    (h.rcv.state = .none → Idles (.shelfRestore k) s ∧ Idles (.warmRestore k) s)

/-- R22, R144, R546: a takeover of a shelf that is not ready, of an image that is none, whose sections fail or whose Casks do not fit. -/
def Claim.Takeovers : Prop :=
  ∀ (k : Nat) (v : Word) (st : BitVec 8) (b : Bytes) (s : State),
    let s₁ := s.onRcv k (fun r => { r with cmd := v &&& 0xFFFF_0FFF_0000_0000 })
    let h := s₁.shelf k
    let refused := fun (n : Nat) (t : State) => t = s.onRcv k (fun r => { r with cmd := v &&& 0xFFFF_0FFF_0000_0000, result := n })
    let free := h.desc ≠ none ∧ h.state = .ready ∧ h.round.active = false ∧ serviceActive s₁ k = false
    (h.round.active = true → Answers (.takeover k v st b) s (refused 0x22)) ∧
    (free → st ≠ 0 → st.toNat ∈ statusCodes → Answers (.takeover k v st b) s (refused st.toNat)) ∧
    (free → st = 0 → field b 0 4 ≠ 0x5450574B → Answers (.takeover k v st b) s (refused Status.uncorrectable.code)) ∧
    (free → st = 0 → field b 0 4 = 0x5450574B → field b 4 2 = 1 → wptParse s₁ k b = none → Answers (.takeover k v st b) s (refused Status.uncorrectable.code)) ∧
    (∀ m, free → st = 0 → field b 0 4 = 0x5450574B → field b 4 2 = 1 → wptParse s₁ k b = some m → takeBays k (imageBays h.bays.length m) s₁ = none →
      Answers (.takeover k v st b) s (refused 0x22)) ∧
    (∀ m x, free → st = 0 → field b 0 4 = 0x5450574B → field b 4 2 = 1 → wptParse s₁ k b = some m → takeBays k (imageBays h.bays.length m) s₁ ≠ none →
      takeoverNeeds s₁ k (parseDesc ((tget [] m 1).take 256)) = some x → field b 0x40 1 = h.bays.length → slice b 0x20 32 = h.prog.digest → field b 7 1 < 7 →
      Answers (.takeover k v st b) s (fun t => (t.shelf k).rcv.result = 0 ∧ (t.shelf k).rcv.cause = 3 ∧ (t.shelf k).rcv.state = .none ∧ (t.shelf k).round.active = true ∧
        (t.shelf k).round.desc = parseDesc ((tget [] m 1).take 256) ∧ (t.shelf k).round.highId = some (t.shelf k).round.desc.roundId ∧ (t.shelf k).round.restart = true))

/-- Bay faults, restores and takeovers. -/
def Obligations.FaultsAndRestores : Prop :=
  Claim.BayFaults ∧ Claim.ShelfRestores ∧ Claim.Takeovers

/-- R449, R450: a context switch of a quiet shelf without round saves the current context. -/
def Claim.ContextCommands : Prop :=
  ∀ (k : Nat) (target : BitVec 4) (s : State),
    let h := s.shelf k
    let c := h.ctx
    let i := target.toNat
    let s₁ := readCasks k (s.onCtx k (fun c => { c with target := i, waiting := true }))
    let area := ctxSlot h 0
    let img := ctxImage s₁ k
    c.waiting = false →
    (h.fenced = false → h.round.active = false → serviceActive s k = false → ctxQuiet s k = true → i < ctxCount h → inCellar h area.1 (ctxCount h * area.2) = true →
      i ∉ c.held → i ≠ c.current → (c.current < 16 → img.1.length ≤ area.2) → Answers (.contextSwitch k target) s (fun t =>
        (t.shelf k).ctx.current = i ∧ (t.shelf k).ctx.result = 0 ∧ (t.shelf k).ctx.waiting = false ∧ (t.shelf k).ctx.pending = false ∧ (t.shelf k).prog.loaded = false ∧
        (∀ b ∈ h.bays, (t.bay b).casks = []) ∧ (c.current < 16 → c.current ∈ (t.shelf k).ctx.held ∧
          t.mem = (ctxEmpty k (putImage k (ctxSlot h c.current).1 img.1 img.2 s)).mem) ∧ (16 ≤ c.current → t.mem = (ctxEmpty k s).mem))) ∧
    (h.fenced = false → h.round.active = true → Answers (.contextSwitch k target) s (fun t => (t.shelf k).ctx = { c with target := i, pending := true } ∧
      t.mem = s.mem ∧ t.bays = s.bays ∧ t.seqs = s.seqs)) ∧
    (h.fenced = true → Answers (.contextSwitch k target) s (fun t => (t.shelf k).ctx = { c with target := i, result := Status.shelfFenced.code, pending := false } ∧ t.mem = s.mem ∧
      t.bays = s.bays)) ∧
    (i ≠ c.current → c.pending = false → i < ctxCount h → inCellar h (ctxSlot h i).1 (ctxSlot h i).2 = true → Answers (.contextDelete k target) s (fun t =>
      (t.shelf k).ctx = { c with target := i, result := 0, held := c.held.filter (fun x => x != i) } ∧ t.mem = (vzero s k (ctxSlot h i).1 (ctxSlot h i).2).mem ∧ t.bays = s.bays)) ∧
    ((i = c.current ∨ c.pending = true) → Answers (.contextDelete k target) s (fun t => (t.shelf k).ctx = { c with target := i, result := 0x22 } ∧ t.mem = s.mem))

/-- Contexts are switched and deleted; shelves defined, switched and made quiet. -/
def Obligations.ContextsAndShelves : Prop :=
  Claim.ContextCommands ∧ Claim.ShelfCommands

/-! ### Shared mode and release (07_shared_mode.md, 10_release.md) -/

/-- R197, R198, R201, R205: FLPV of an admitted crate in COLLECT of a shared round, with its verify key bound and canonical elements, stores this aggregator's PREP record. -/
def Claim.FlpQuery : Prop :=
  ∀ (q n k : Nat) (d : Bytes) (e : LogEntry) (s : State), Presents s q n k 0x13 d →
    let h := s.shelf k
    let r := h.round
    let seq := field d 0x18 8
    let i := h.roundInst
    let got := crateRead k seq 0 e.len s
    let pay := slice got.2.1 512 (field got.2.1 0x28 4)
    let proof := slice got.2.1 (512 + pay.length) (field got.2.1 0x2C 4)
    let pp := proofParts i r.desc.groupSize proof
    let sound := canonical i pay = true ∧ canonical i (proof.take (i.proofs * i.pl * i.elem)) = true
    let queued := fun (rec_ : Bytes) (t : State) => ∀ j ∈ r.peers, tget [] (t.shelf k).verif.queued j = tget [] h.verif.queued j ++ [(s.clk, rec_)]
    let stored := fun (rec_ : Bytes) (t : State) => t.seqs = s.seqs ∧ SameBays s t ∧ queued rec_ t ∧
      t.mem = (storeRecord k (e.client - r.desc.clientBase) r.desc.groupIndex rec_ s).mem
    let unsaid := e.client ∉ h.verif.rejectSent ∧ e.client ∉ h.verif.rejectFrom
    admittedOf s k seq 1 = some e → (∀ x ∈ h.verif.flpv, x.2.1 = e.client → flpvOpen s k x.1 = false) →
    (pastExchange s k = true → Answers (.flpv q n) s (fun t => Accepted q n (some .paramUnsupported) s t ∧ t.mem = s.mem ∧ t.seqs = s.seqs)) ∧
    (r.desc.mode = 2 → r.phase = .collect → pastExchange s k = false → tmem h.verif.flpv seq = false → flpvOpen s k seq = false →
      (∀ vk, bindCur s i.vkSlot (vkUse k) = .ok vk → got.1 = .ok → got.2.2 = s →
        (∀ out, sound → prioPrep i (prioCtx h e.client) r.desc.groupSize r.desc.groupIndex vk.key pay proof pp.1 pp.2 = some out →
          Answers (.flpv q n) s (fun t => stored (recordOf i e.client 1 out) t ∧ tget (0, []) (t.shelf k).verif.flpv seq = (e.client, pp.2) ∧
            ∃ l l', (s.queue q n).entries.tail = l ++ (t.queue q n).entries ∧ Refused n l l')) ∧
        (¬sound → unsaid → Answers (.flpv q n) s (fun t => Accepted q n (some .verdictReject) s t ∧ stored (recordOf i e.client 2 []) t))) ∧
      (∀ st, bindCur s i.vkSlot (vkUse k) = .error st → unsaid →
        Answers (.flpv q n) s (fun t => Accepted q n (some .deniedAttribute) s t ∧ t.mem = s.mem ∧ t.seqs = s.seqs ∧ SameBays s t ∧
          queued (recordOf i e.client 2 []) t)))

/-- R204, R208: a full batch for a peer, and the flush of an older record after FLUSH_US, take the oldest records off the queue as one verifier message. -/
def Claim.VerifierSends : Prop :=
  ∀ (k j : Nat) (s : State),
    let h := s.shelf k
    let l := tget [] h.verif.queued j
    let m := (l.take (batch h)).length
    let key := bindCur s (peerSlot h.round.desc.peerSlot h.round.desc.groupIndex j) (peerUse k)
    let sent := fun t : State => tget [] (t.shelf k).verif.queued j = l.drop (batch h) ∧ t.seqs = s.seqs ∧ t.bays = s.bays ∧ t.queues = s.queues ∧
      (t.shelf k).round = h.round ∧
      (∀ half, key = .ok half → tget 0 (t.shelf k).verif.txSeq (j * 256 + 3) = tget 0 h.verif.txSeq (j * 256 + 3) + 1 ∧
        (t.shelf k).verif.sent = up 32 h.verif.sent) ∧
      (∀ st, key = .error st → (t.shelf k).verif.lost = min (h.verif.lost + m) (2 ^ 16 - 1) ∧ t.mem = s.mem)
    recordsRun s k = true →
    (batch h ≤ l.length → Answers (.verifierBatchSend k j) s sent) ∧
    (l.length < batch h → Idles (.verifierBatchSend k j) s) ∧
    (∀ oldest rest, l = oldest :: rest → Answers (.verifierFlush k j) s (fun t => sent t ∧ oldest.1 + flushUs h * 1000 ≤ t.clk)) ∧
    (l = [] → Idles (.verifierFlush k j) s)

/-- R206: a write of RELAY_TAIL sets TAIL; the oldest envelope that waits for the relay ring is written at HEAD when the space between suffices, one unit kept free (the model's choice, log 62), and HEAD moves on by its units. An envelope that does not fit holds back those of its own peer alone. -/
def Claim.RelayTail : Prop :=
  ∀ (k : Nat) (v : Word) (s : State),
    let h := s.shelf k
    let r := region64k (h.reg 0x0B30)
    let units := r.2 / 64
    let used := (h.verif.head + units - v.toNat / 2 ^ 32 % max 1 units) % max 1 units
    (h.verif.held = [] → Answers (.relayTailWrite k v) s (fun t => t = s.setReg k 0x0B38 (v &&& 0xFFFF_FFFF_0000_0000))) ∧
    (∀ peer tag env, h.verif.held = [(peer, tag, env)] →
      let b := relayEntry peer tag env
      (used + b.length / 64 < units → Answers (.relayTailWrite k v) s (fun t => (t.shelf k).verif.held = [] ∧
        (t.shelf k).verif.head = (h.verif.head + b.length / 64) % units ∧ t.mem = (relayWrite k r.1 units h.verif.head b s).mem ∧ t.seqs = s.seqs ∧ t.bays = s.bays)) ∧
      (units ≤ used + b.length / 64 → Answers (.relayTailWrite k v) s (fun t => (t.shelf k).verif = h.verif ∧ t.mem = s.mem ∧ t.bays = s.bays))) ∧
    (∀ peer tag env other tag' env', h.verif.held = [(peer, tag, env), (other, tag', env')] → peer ≠ other →
      let b := relayEntry other tag' env'
      units ≤ used + (relayEntry peer tag env).length / 64 → used + b.length / 64 < units → Answers (.relayTailWrite k v) s (fun t =>
        (t.shelf k).verif.held = [(peer, tag, env)] ∧ (t.shelf k).verif.head = (h.verif.head + b.length / 64) % units ∧
        t.mem = (relayWrite k r.1 units h.verif.head b s).mem))

/-- FLPV records, verifier messages and the relay ring. -/
def Obligations.VerifierRecords : Prop :=
  Claim.FlpQuery ∧ Claim.VerifierSends ∧ Claim.RelayTail

/-- R212, R213, R214: SHARE_REFRESH_START during a round or a refresh is refused. -/
def Claim.ShareRefreshes : Prop :=
  ∀ (k : Nat) (slot : BitVec 8) (s : State),
    let h := s.shelf k
    let obj := (h.reg 0x0B68).toNat / 64 % 2 ^ 42 * 64
    let id := (h.reg 0x0B70).toNat % 2 ^ 48
    let hb := vread s k obj 64
    let x := h.verif.shref
    let xb := vread s k x.obj 64
    let keep := fun t : State => t.seqs = s.seqs ∧ t.queues = s.queues ∧ t.bays = s.bays ∧ (t.shelf k).round = h.round
    let ended := fun (st : Status) (t : State) => keep t ∧ (t.shelf k).verif.shref = { result := st } ∧
      t.mem = (vzero s k (sobHalfAt x.obj xb (1 - sobActive xb)) (sobHalf xb)).mem
    ((h.round.active = true ∨ x.busy = true) → Answers (.shareRefreshStart k slot) s (fun t => keep t ∧ t.mem = s.mem ∧
      (t.shelf k).verif.shref = { x with result := .paramUnsupported })) ∧
    (h.round.active = false → x.busy = false → inCellar h obj 64 = true → Clean s k obj 64 → sobOk h obj hb = true → id ≠ 0 → sobLast hb < id →
      s.epoch < (h.reg 0x0B78).toNat → sobIndex hb + 1 = sobGroup hb →
      (∀ j ∈ shrefPeers hb, ∃ y, bindCur s (peerSlot slot.toNat (sobIndex hb) j) (peerUse k) = .ok y) →
      Answers (.shareRefreshStart k slot) s (fun t => keep t ∧ t.mem = s.mem ∧
        (t.shelf k).verif.shref = { busy := true, result := x.result, id := id, obj := obj, limit := (h.reg 0x0B78).toNat, slot := slot.toNat })) ∧
    (x.busy = false → inCellar h obj 64 = true → Clean s k obj 64 → sobOk h obj hb = true → 0 < sobEpoch hb → sobLast hb ≠ 0 →
      Answers (.shareRefreshRevert k slot) s (fun t => keep t ∧ (t.shelf k).verif.shref = { x with result := .ok } ∧
        t.mem = (vwrite s k obj (hb.take 7 ++ toLe 1 (1 - sobActive hb) ++ slice hb 8 16 ++ toLe 8 (sobEpoch hb - 1) ++ zeros 8 ++ hb.drop 0x28)).mem)) ∧
    (x.busy = true → Answers (.shareRefreshAbort k slot) s (ended .ok)) ∧
    (x.busy = true → Answers (.shareRefreshDeadline k) s (fun t => ended .retryExhausted t ∧ s.clk ≤ t.clk)) ∧
    (x.busy = false → Idles (.shareRefreshDeadline k) s)

/-- Share refreshes start, exchange and end. -/
def Obligations.ShareRefreshes : Prop :=
  Claim.ShareRefreshes

/-- R274, R275: NOISE of groups that hold no poisoned Keg row adds one sample z to each element of its range in tile TILE, in the Cask's arithmetic. -/
def Claim.NoiseAdded : Prop :=
  ∀ (q n k : Nat) (d : Bytes) (s : State), Presents s q n k 0x09 d →
    let b := q / 4
    let ci := fCask d
    let c := s.cask b ci
    let mods := (s.bay b).mods
    let gs := (List.range ((fCount d + 31) / 32)).map (· + fCoff d / 32)
    (s.bay b).retr = [] → (s.bay b).hold = [] → CaskSound s b ci →
    ((s.bay b).sampler.reseeding = true → Idles (.noise q n) s) ∧
    ((s.bay b).sampler.reseeding = false → noiseCheck q k d s = none → (∀ g ∈ gs, c.groupBad (fTile d) g = false) →
      Answers (.noise q n) s (fun t => Accepted q n (some .ok) s t ∧ t.mem = s.mem ∧ t.seqs = s.seqs ∧
        (∀ j, j ≠ ci → t.cask b j = s.cask b j) ∧ (t.cask b ci).words = c.words ∧ (t.cask b ci).cfg = c.cfg ∧
        (∀ g ∈ gs, fTile d * 65536 + g ∈ tget [] (t.shelf k).rel.groups (b * 64 + ci)) ∧
        ∃ z : Nat → Int, ∀ u e, e < c.len → (t.cask b ci).kegWord u e =
          if u = fTile d ∧ fCoff d ≤ e ∧ e < fCoff d + fCount d then c.kegFold mods e (c.kegWord u e) (z e) else c.kegWord u e)) ∧
    ((s.bay b).sampler.reseeding = false → (s.shelf k).round.phase ≠ .noise → Answers (.noise q n) s (fun t =>
      Accepted q n (some .paramUnsupported) s t ∧ SameBays s t ∧ t.mem = s.mem))

/-- R280, R281, R282: OPTSTEP of one element not yet stepped, whose Keg row and copy can be read. -/
def Claim.OptimiserStep : Prop :=
  ∀ (q n k : Nat) (d : Bytes) (s : State), Presents s q n k 0x28 d →
    let h := s.shelf k
    let b := q / 4
    let c := s.cask b (fCask d)
    let m := fAux d
    let p := optPar h.rel.opt
    let at_ := vecAt p.opt h.round.desc.elemCount
    let val := fun o : Option Nat => match o with | none => 0 | some o => leNat (vread s k (h.copyAt + o + 4 * m) 4)
    let r := p.step (gradient h (c.valueOf (s.bay b).mods (fCoff d) (c.kegWord (fTile d) (fCoff d)))) (val (some at_.1)) (val at_.2.1) (val at_.2.2)
    (fCount d = 1 → h.round.active = true → h.round.phase = .step → h.round.desc.stepEn = true → h.rel.witness = false → c.release = true →
      rangeOk c (fCoff d) 1 = true → fTile d ≤ c.tilesM1 → m + 1 ≤ h.round.desc.elemCount → m ∉ h.rel.steps → c.kegRowOf (fTile d) (fCoff d) ∉ c.kegBad →
      CaskSound s b (fCask d) → (∀ o ∈ [some at_.1, at_.2.1, at_.2.2].filterMap id, Clean s k (h.copyAt + o + 4 * m) 4) →
      Answers (.optstep q n) s (fun t => Accepted q n (some .ok) s t ∧ t.seqs = s.seqs ∧ SameBays s t ∧
        (∀ e, e ∈ (t.shelf k).rel.steps ↔ e = m ∨ e ∈ h.rel.steps) ∧
        t.mem = (vecPut k h.copyAt m (some at_.1) r.1 (vecPut k h.copyAt m at_.2.1 r.2.1 (vecPut k h.copyAt m at_.2.2 r.2.2 s))).mem)) ∧
    (h.round.phase ≠ .step → Answers (.optstep q n) s (fun t => Accepted q n (some .paramUnsupported) s t ∧ t.mem = s.mem ∧ t.shelves = s.shelves ∧ SameBays s t))

/-- R281: the rules of the optimisers. -/
def Claim.OptimiserRules : Prop :=
  ∀ (eta b1 b2 tau g w m v : Nat),
    let p := fun o : Nat => ({ opt := o, eta := eta, b1 := b1, b2 := b2, tau := tau } : OptPar)
    let root := fun w x v : Nat => F32.add w (F32.div (F32.mul eta x) (F32.add (F32.sqrt v) tau))
    let m4 := F32.add (F32.mul b1 m) (F32.mul (F32.oneMinus b1) g)
    let v4 := F32.add (F32.mul b2 v) (F32.mul (F32.mul (F32.oneMinus b2) g) g)
    (p 1).step g w m v = (F32.add w (F32.mul eta g), m, v) ∧
    (p 2).step g w m v = (F32.add w (F32.mul eta (F32.add (F32.mul b1 m) g)), F32.add (F32.mul b1 m) g, v) ∧
    (p 3).step g w m v = (root w g (F32.add v (F32.mul g g)), m, F32.add v (F32.mul g g)) ∧
    (p 4).step g w m v = (root w m4 v4, m4, v4)

/-- NOISE and OPTSTEP. -/
def Obligations.NoiseAndStep : Prop :=
  Claim.NoiseAdded ∧ Claim.OptimiserStep ∧ Claim.OptimiserRules

/-! ### Rounds (02_rounds.md) and intake (03_crates_and_intake.md) -/

/-- R49, R52, R53: ROUND_START while a round, a service run or a share refresh is active sets START_REFUSED and leaves the round as it is. -/
def Claim.RoundStarts : Prop :=
  ∀ (k : Nat) (v : Word) (s : State), v.getLsbD 1 = false →
    let h := s.shelf k
    let s₁ := clearCounters k (s.setReg k 0x208 ((v ||| 1) &&& 0x1FF04))
    let a := (h.reg 0x200).toNat / 64 % 2 ^ 42 * 64
    let s₂ := s₁.onRound k (fun r => { r with descDigest := sha3 (vread s₁ k a 256) })
    h.ctx.pending = false → h.ctx.waiting = false →
    (startBusy s k = true → Answers (.roundStart k v) s (fun t =>
      (t.shelf k).round = { h.round with startRefused := true } ∧ (t.shelf k).reg 0x208 = (v ||| 1) &&& 0x1FF04 ∧
      t.mem = s.mem ∧ t.seqs = s.seqs ∧ t.bays = s.bays ∧ ∀ j, j ≠ k → t.shelf j = s.shelf j)) ∧
    (startBusy s k = false → inCellar h a 256 = false → Answers (.roundStart k v) s (fun t =>
      (t.shelf k).round.active = false ∧ (t.shelf k).round.outcome = .refusedDescriptor ∧ (t.shelf k).round.detail = .paramUnsupported ∧
      t.mem = s.mem ∧ t.seqs = s.seqs ∧ t.bays = s.bays)) ∧
    (∀ x, startBusy s k = false → inCellar h a 256 = true → vstat s₁ k a 256 = .ok → noteRead k a 256 s₁ = s₁ →
      startChecks s₂ k (parseDesc (vread s₁ k a 256)) = .ok x → Answers (.roundStart k v) s (fun t =>
        let r := (t.shelf k).round
        r.active = true ∧ r.outcome = .none_ ∧ r.phase = .idle ∧ r.begun = false ∧ r.committed = 0 ∧ r.rejected = 0 ∧
        r.desc = parseDesc (vread s k a 256) ∧ r.descDigest = sha3 (vread s k a 256) ∧ r.highId = some r.desc.roundId ∧
        (t.shelf k).prog.service = false ∧ t.seqs = s.seqs ∧ t.bays = s.bays))

/-- R53, R57, R77, R296, R341: CANCEL and the deadline end an active round with outcome CANCELLED or EXPIRED. -/
def Claim.RoundEnds : Prop :=
  ∀ (k : Nat) (v : Word) (s : State),
    let h := s.shelf k
    let ended := fun (o : RoundOutcome) (t : State) =>
      (t.shelf k).round.active = false ∧ (t.shelf k).round.outcome = o ∧ (t.shelf k).ledger.entries = [] ∧
      (∀ q ∈ h.seqs, ((t.seq q).run = .idle ∨ (t.seq q).run = .stopped) ∧ (t.seq q).wait = .none ∧ (t.seq q).inbox = [] ∧ (t.seq q).g = (s.seq q).g ∧
        ∀ n, n < 12 → (t.queue q n).entries = []) ∧
      ∀ b ∈ h.bays, ∀ e ∈ (t.bay b).casks, e.2.words = [] ∧ e.2.kegs = [] ∧ e.2.bad = []
    (h.round.active = true → v.getLsbD 0 = false → Answers (.roundCancel k v) s (ended .cancelled)) ∧
    (h.round.active = true → h.round.sealDone = false → h.fenced = false → h.round.desc.mode ≠ 2 → Answers (.roundDeadline k) s (ended .expired)) ∧
    (h.round.active = false → Idles (.roundDeadline k) s)

/-- Starts of rounds, refused and accepted, and their ends. -/
def Obligations.RoundStartAndEnd : Prop :=
  Claim.RoundStarts ∧ Claim.RoundEnds

/-- R54, R55, R295: OPEN_BEGIN of a started round whose mode has no mask-key table begins phase OPEN. -/
def Claim.OpenBegins : Prop :=
  ∀ (k : Nat) (s : State),
    let h := s.shelf k
    let entry := h.prog.entries.getD 1 0xFFFFFFFF
    (h.round.active = true → h.round.begun = false → allCounted s k = true → h.round.desc.mode ≠ 1 → entry ≠ 0xFFFFFFFF → Answers (.openBegin k) s (fun t =>
      (t.shelf k).round.phase = .open_ ∧ (t.shelf k).round.begun = true ∧ (t.shelf k).round.active = true ∧
      ∀ q ∈ h.seqs, (t.seq q).pc = entry ∧ (t.seq q).run = .running ∧ (t.seq q).hmode = false ∧ (t.seq q).pended = false ∧
        (t.seq q).g = [] ∧ (t.seq q).p = 1 ∧ (t.seq q).d = [] ∧ (t.seq q).epc = 0 ∧ (t.seq q).evec = 0 ∧
        ∀ n, n < 12 → (t.queue q n).count = 0)) ∧
    (allCounted s k = false → Idles (.openBegin k) s)

/-- R54, R55, R295, R525: PHASE_COMPLETE of OPEN, once every sequencer has ended its part, goes to COLLECT and writes the round's times to the schedule table. -/
def Claim.PhaseCompletes : Prop :=
  ∀ (k : Nat) (s : State),
    let h := s.shelf k
    let d := h.round.desc
    (phaseDone s k = true → h.round.phase = .open_ → Answers (.phaseComplete k) s (fun t =>
      (t.shelf k).round.phase = .collect ∧ (t.shelf k).round.active = true ∧
      (∀ e ∈ [(0, d.tOpen), (2, d.tCut), (3, d.tExchange), (5, d.tDeadline)],
        tget {} (t.shelf k).sched e.1 = { time := BitVec.ofNat 64 e.2, kind := 1, armed := true }) ∧
      (∀ q ∈ h.seqs, (t.seq q).g = (s.seq q).g ∧ (t.seq q).d = (s.seq q).d ∧ (t.seq q).scratch = (s.seq q).scratch) ∧ t.mem = s.mem ∧ t.bays = s.bays)) ∧
    (phaseDone s k = false → Idles (.phaseComplete k) s)

/-- OPEN begins, and phases follow one another. -/
def Obligations.PhasesBegin : Prop :=
  Claim.OpenBegins ∧ Claim.PhaseCompletes

/-- R61, R66: CUT_OFF sets CUT. -/
def Claim.CutOffAndFreeze : Prop :=
  ∀ (k : Nat) (s : State),
    let h := s.shelf k
    let r := h.round
    let tableStat := vstat s k h.ctab.1 (ctabLen r.desc.clientCount)
    (r.active = true → r.cutPassed = false → Answers (.cutOff k) s (fun t =>
      (t.shelf k).round.cutPassed = true ∧ (t.shelf k).round.active = true ∧ (t.shelf k).round.phase = r.phase ∧ t.seqs = s.seqs ∧
      t.queues = s.queues ∧ t.bays = s.bays ∧ t.mem = s.mem ∧ s.clk ≤ t.clk)) ∧
    (freezeDue s k = true → tableStat = .ok → r.peers = [] → r.desc.minCohort ≤ r.committed → r.desc.mode ≠ 3 → Answers (.freeze k) s (fun t =>
      (t.shelf k).round.frozen = true ∧ (t.shelf k).round.active = true ∧ (t.shelf k).round.ownDigest = sha3 (bitTable s k) ∧
      (∀ q ∈ h.seqs, ((t.seq q).run = .idle ∨ (t.seq q).run = .stopped) ∧ ∀ n, n < 12 → (t.queue q n).entries = []) ∧ t.bays = s.bays)) ∧
    (freezeDue s k = true → tableStat ≠ .ok → Answers (.freeze k) s (fun t =>
      (t.shelf k).round.active = false ∧ (t.shelf k).round.outcome = .faulted ∧ (t.shelf k).round.detail = tableStat)) ∧
    (freezeDue s k = true → tableStat = .ok → r.peers = [] → r.committed < r.desc.minCohort → r.desc.mode ≠ 3 → Answers (.freeze k) s (fun t =>
      (t.shelf k).round.active = false ∧ (t.shelf k).round.outcome = .refusedCohort)) ∧
    (freezeDue s k = false → Idles (.freeze k) s)

/-- R57, R160, R290: EXCHANGE_DEADLINE of a frozen masked-sum round without peers sets EXCH and changes neither ledger nor Casks. -/
def Claim.ExchangeAndFlip : Prop :=
  ∀ (k : Nat) (s : State),
    let r := (s.shelf k).round
    (r.active = true → r.exchPassed = false → r.frozen = true → r.peers = [] → r.desc.mode = 1 → r.phase ≠ .recover →
      Answers (.exchangeDeadline k) s (fun t => (t.shelf k).round.exchPassed = true ∧ (t.shelf k).round.active = true ∧
        (t.shelf k).ledger = (s.shelf k).ledger ∧ t.bays = s.bays ∧ t.seqs = s.seqs ∧ t.mem = s.mem)) ∧
    (r.active = true → r.sealDone = true →
      Answers (.releaseFlip k) s (fun t => (t.shelf k).round.active = false ∧
        (t.shelf k).round.outcome = (if r.committed < r.desc.minCohort then .refusedCohort else .released)))

/-- The cut-off, the freeze, the exchange deadline and the flip. -/
def Obligations.CutFreezeExchange : Prop :=
  Claim.CutOffAndFreeze ∧ Claim.ExchangeAndFlip

/-- R281, R272, R289: the end of the release's signatures in SEAL completes it, and the signed record goes to the inactive buffer. -/
def Claim.SealAndReseed : Prop :=
  ∀ (k : Nat) (v : Word) (s : State),
    let h := s.shelf k
    (h.round.active = true → h.round.phase = .seal → h.rel.sigs ≠ [] → h.rel.signed = false → Answers (.releaseSignaturesDone k) s (fun t =>
      (t.shelf k).round.sealDone = true ∧ (t.shelf k).rel.signed = true ∧ t.bays = s.bays ∧ t.seqs = s.seqs ∧
      t.mem = (vwrite s k (relBuf h.rel.relDesc (inactiveBuf h.rel.relDesc)).1 (h.rel.record ++ h.rel.sigs ++ zeros 179)).mem)) ∧
    (∀ (b : BitVec 4) (first : Bool), (s.bay b.toNat).sampler.reseeding = true → Answers (.drbgReseed b first true) s (fun t =>
      t.bay b.toNat = { s.bay b.toNat with sampler := { (s.bay b.toNat).sampler with reseeding := false, fail := false, requests := 0, inst := true } } ∧
      (∀ j, j ≠ b.toNat → t.bay j = s.bay j) ∧ t.mem = s.mem ∧ t.shelves = s.shelves)) ∧
    ((h.round.active = false ∨ h.rel.waitAck = false) → Answers (.relAckWrite k v) s (fun t =>
      (t.shelf k).reg 0x0F08 = v ∧ (t.shelf k).round = h.round ∧ (t.shelf k).rel = h.rel ∧ t.mem = s.mem ∧ t.bays = s.bays ∧
      ∀ j, j ≠ k → t.shelf j = s.shelf j))

/-- R66, R209: an envelope at the front of a shelf's group messages that opens as a peer's first cohort digest is kept for that peer by COHORT_DIGEST_RECEIVE and by GROUP_ENVELOPE_RECEIVE alike. -/
def Claim.GroupMessages : Prop :=
  ∀ (k : Nat) (e : Nat × Nat × Nat × Nat) (rest : List (Nat × Nat × Nat × Nat)) (s : State), (s.shelf k).remote.group = e :: rest →
    let h := s.shelf k
    let s₁ := groupFree e.2.1 e.2.2.1 (s.onRemote k (fun x => { x with group := rest }))
    let env := groupBytes s k e
    vstat s k e.2.2.1 e.2.2.2 = .ok → noteRead k e.2.2.1 e.2.2.2 s = s →
    let kept := fun (j : Nat) (body : Bytes) (t : State) => (t.shelf k).remote.group = rest ∧ tget [] (t.shelf k).round.peerDigests j = body ∧
      (∀ i, i ≠ j → tget [] (t.shelf k).round.peerDigests i = tget [] h.round.peerDigests i) ∧ t.mem = s.mem ∧ t.seqs = s.seqs
    (∀ j body, h.round.active = true → h.round.frozen = false → field env 5 1 = 1 → tmem h.round.peerDigests j = false →
      openEnvelope s₁ k (roundCtx h) e.1 env = some (1, j, body) →
      Answers (.cohortDigestReceive k) s (kept j body) ∧ Answers (.groupEnvelopeReceive k) s (kept j body)) ∧
    (h.round.active = true → field env 5 1 = 4 → openEnvelope s₁ k (roundCtx h) e.1 env = none →
      Answers (.groupEnvelopeReceive k) s (fun t => (t.shelf k).remote.group = rest ∧ (t.shelf k).round = h.round ∧
        (t.shelf k).verif.peerBad = up 32 h.verif.peerBad ∧ t.mem = s.mem))

/-- The seal's end, reseeds, and group messages. -/
def Obligations.SealAndGroupMessages : Prop :=
  Claim.SealAndReseed ∧ Claim.GroupMessages

/-- R89, R42: RING_CREATE with a legal descriptor in the Cellar enters the ring with its fields and 512 KiB, in one range or more, of the Loft slice of its bay. -/
def Claim.RingCommands : Prop :=
  ∀ (k : Nat) (ring : BitVec 6) (addr : BitVec 42) (s : State),
    let h := s.shelf k
    let a := addr.toNat * 64
    (∀ x b off, inCellar h a 64 = true → vstat s k a 64 = .ok → noteRead k a 64 s = s → ringOf s k ring.toNat = none →
      ringParse s k (vread s k a 64) = some x → h.bayOf x.bay = some b → findReserve s b = some off →
      Answers (.ringCreate k ring addr) s (fun t => ringOf t k ring.toNat = some { x with reserve := off } ∧ (t.shelf k).intake.ringResult = 0 ∧
        (∀ r, r ≠ ring.toNat → ringOf t k r = ringOf s k r) ∧ t.mem = s.mem ∧ t.bays = s.bays)) ∧
    (inCellar h a 64 = false → Answers (.ringCreate k ring addr) s (fun t =>
      (t.shelf k).intake.rings = h.intake.rings ∧ (t.shelf k).intake.ringResult = 0x22 ∧ t.mem = s.mem)) ∧
    (∀ x, ringOf s k ring.toNat = some x → x.entries = [] → ringNamed s k ring.toNat = false → h.round.active = false →
      Answers (.ringDestroy k ring) s (fun t => ringOf t k ring.toNat = none ∧ (t.shelf k).intake.ringResult = 0 ∧
        (∀ r, r ≠ ring.toNat → ringOf t k r = ringOf s k r) ∧ t.mem = s.mem ∧ t.bays = s.bays)) ∧
    (∀ x, ringOf s k ring.toNat = some x → x.entries ≠ [] → Answers (.ringDestroy k ring) s (fun t =>
      (t.shelf k).intake.rings = h.intake.rings ∧ (t.shelf k).intake.ringResult = 0x22 ∧ t.mem = s.mem))

/-- R88, R100, R102, R106: between rounds REJLOG_CFG takes a region within the Cellar, and CLOG_CFG empties the crate log where no crate of it is arriving or admitted. -/
def Claim.LogsAndDelivery : Prop :=
  ∀ (k : Nat) (v : Word) (s : State),
    let h := s.shelf k
    (h.round.active = false → v.getLsbD 63 = true → inCellar h (v.toNat / 64 % 2 ^ 42 * 64) 0x20000 = true →
      Answers (.rejlogCfgWrite k v) s (fun t => (t.shelf k).reg 0x338 = v &&& 0x8000_FFFF_FFFF_FFC0 ∧
        (t.shelf k).intake = { h.intake with rejNext := 0, rejWritten := 0 } ∧ t.mem = s.mem)) ∧
    (h.round.active = true → Idles (.rejlogCfgWrite k v) s ∧ Idles (.clogCfgWrite k v) s) ∧
    (h.round.active = false → (∀ e ∈ h.intake.log, e.state ≠ .arriving ∧ e.state ≠ .admitted) →
      Answers (.clogCfgWrite k v) s (fun t => (t.shelf k).reg 0x320 = v ∧ (t.shelf k).intake.log = [] ∧ (t.shelf k).intake.nextSeq = h.intake.nextSeq ∧
        (t.shelf k).intake.rings = h.intake.rings ∧ t.mem = s.mem ∧ t.seqs = s.seqs)) ∧
    (∀ r x c rest i q, ringOf s k r = some x → x.waiting = c :: rest → recordDue h c = true → arrivingBefore h r c.logSeq = false →
      (ringSeqs h x).find? (fun e => decide ((s.seq e.2).inbox.length < 64)) = some (i, q) →
      Answers (.recordDeliver k r) s (fun t => (t.seq q).inbox = (s.seq q).inbox ++ [c] ∧ (ringOf t k r).map (·.waiting) = some (rest.filter (fun y => y.logSeq != c.logSeq)) ∧
        (ringOf t k r).map (·.next) = some ((i + 1) % 4) ∧ (∀ j, j ≠ q → t.seq j = s.seq j) ∧ t.mem = s.mem ∧ t.queues = s.queues))

/-- Rings are created and destroyed, logs configured, and records delivered. -/
def Obligations.RingsAndLogs : Prop :=
  Claim.RingCommands ∧ Claim.LogsAndDelivery

/-! ### The ledger (05_provisional_folding.md) -/

/-- R153: COMMIT and RETRACT by the state of the crate. -/
def Claim.VerdictTable : Prop :=
  ∀ (q n k : Nat) (d : Bytes) (c : LogEntry) (s : State),
    let h := s.shelf k
    let only := fun (st : Status) (t : State) => Accepted q n (some st) s t ∧ t.shelves = s.shelves ∧ t.bays = s.bays ∧ t.mem = s.mem ∧ t.seqs = s.seqs
    let named := logEntry s k (fWide d) = some c ∧ h.round.active = true ∧ c.kind = 1 ∧ c.roundId = h.round.desc.roundId
    h.ledger.rowBad = false →
    (Presents s q n k 0x10 d → named → (h.round.desc.mode = 2 ∧ flpvDone s k (fWide d) = false) → Answers (.commit q n) s (only .paramUnsupported)) ∧
    (Presents s q n k 0x10 d → named → (h.round.desc.mode = 2 → flpvDone s k (fWide d) = true) →
      (∀ e, ledgerEntry s k (fWide d) = some e →
        (e.verdict = .pending → Answers (.commit q n) s (fun t => Accepted q n (some .ok) s t ∧ t.bays = s.bays ∧ t.mem = s.mem ∧
          (t.shelf k).ledger.entries = h.ledger.entries.map (fun x => if x.logSeq = fWide d then { x with verdict := .commit } else x) ∧
          (t.shelf k).intake = h.intake ∧ (t.shelf k).round = h.round)) ∧
        (e.verdict = .commit → Answers (.commit q n) s (only .ok)) ∧ (e.verdict = .retract → Answers (.commit q n) s (only .verdictReject))) ∧
      (ledgerEntry s k (fWide d) = none →
        (c.state = .admitted → Answers (.commit q n) s (only .paramUnsupported)) ∧ (c.state = .committed → Answers (.commit q n) s (only .ok)) ∧
        (c.state = .retracted → Answers (.commit q n) s (only .verdictReject)))) ∧
    (Presents s q n k 0x11 d → named → (field d 8 1 = 0x0F ∨ field d 8 1 = 0x10) →
      (∀ e, ledgerEntry s k (fWide d) = some e →
        (e.verdict = .pending → Answers (.retract q n) s (fun t => Accepted q n none s t ∧
          (ledgerEntry t k (fWide d)).map (fun x => (x.verdict, x.reason, x.segs)) = some (.retract, field d 8 1, e.segs))) ∧
        (e.verdict = .commit → Answers (.retract q n) s (only .paramUnsupported)) ∧ (e.verdict = .retract → Answers (.retract q n) s (only .ok))) ∧
      (ledgerEntry s k (fWide d) = none →
        (c.state = .committed → Answers (.retract q n) s (only .paramUnsupported)) ∧ (c.state = .retracted → Answers (.retract q n) s (only .ok)))) ∧
    (Presents s q n k 0x10 d → logEntry s k (fWide d) = none → Answers (.commit q n) s (only .paramUnsupported)) ∧
    (Presents s q n k 0x11 d → named → field d 8 1 ≠ 0x0F → field d 8 1 ≠ 0x10 → Answers (.retract q n) s (only .paramUnsupported))

/-- R164: where a row of the shelf's ledger slice is beyond correction in a round, the command that reads it, whichever it is. -/
def Claim.LedgerRowError : Prop :=
  ∀ (q n k b seq : Nat) (s : State), shelfOf s (q / 4) = some k → shelfOf s b = some k → (s.shelf k).ledger.rowBad = true → (s.shelf k).round.active = true →
    let back := restoreShelf k (s.onLedger k (fun l => { l with rowBad := false, steered := true }))
    ∀ i ∈ [Instr.commit q n, .retract q n, .foldP q n, .segmentRetraction b, .crateSettle k seq], Answers i s (fun t => t = back)

/-- R149, R155: FOLD.P of an admitted crate of a round in COLLECT that can be read opens an entry, or adds to one that is open. -/
def Claim.ProvisionalFold : Prop :=
  ∀ (q n k : Nat) (d : Bytes) (crate : LogEntry) (s : State),
    let b := q / 4
    let c := s.cask b (fCask d)
    let h := s.shelf k
    let g := segmentOf s k q d
    let r := crateRead k (fWide d) (512 + g.srcOff) (ringBytes c (v0 d) g.count) s
    let still := fun (st : Status) (t : State) => Accepted q n (some st) s t ∧ SameBays s t ∧ t.mem = s.mem ∧
      (t.shelf k).ledger.entries = h.ledger.entries ∧ (t.shelf k).ledger.noopSegs = up 32 h.ledger.noopSegs
    Presents s q n k 0x03 d → (s.bay b).retr = [] → (s.bay b).hold = [] → foldPCheck q k d s = none → foldPStalls s q n = false → h.ledger.rowBad = false →
    h.round.active = true → h.round.phase = .collect → h.round.begun = true → h.round.frozen = false → foldPCrate s k c d = some crate →
    crate.state = .admitted →
    (r.1 = .ok → CaskSound s b (fCask d) → (∀ e, ledgerEntry s k (fWide d) = some e → e.plan = fPlan d ∧ (∀ x ∈ e.segs, x.seg ≠ g.seg) ∧ e.verdict ≠ .retract) →
      Answers (.foldP q n) s (fun t => Accepted q n (some .ok) s t ∧
        (∃ e, ledgerEntry t k (fWide d) = some e ∧ e.plan = fPlan d ∧ e.segs.getLast? = some g) ∧
        t.cask b (fCask d) = ((c.foldRange (s.bay b).mods g.etype (sext 8 g.scaleE) g.neg false false g.coff
          (c.raws g.etype (g.count * c.coords g.etype) g.count [r.2.1])).countFold (s.bay b).mods) ∧
        ∀ j, j ≠ fCask d → t.cask b j = s.cask b j)) ∧
    (∀ e x, ledgerEntry s k (fWide d) = some e → e.segs.find? (fun y => y.seg == g.seg) = some x → e.plan = fPlan d → sameSegment x g = true →
      Answers (.foldP q n) s (still .ok)) ∧
    (∀ e, ledgerEntry s k (fWide d) = some e → e.plan = fPlan d → e.verdict = .retract → e.segs.find? (fun y => y.seg == g.seg) = none →
      Answers (.foldP q n) s (still .verdictReject))

/-- Provisional folds open segments, and verdicts follow the table. -/
def Obligations.ProvisionalVerdicts : Prop :=
  Claim.VerdictTable ∧ Claim.ProvisionalFold

/-- R123, R156: for an arithmetic with an inverse, folding source elements and folding them again with NEG inverted leaves every Cask word as it was. -/
def Claim.RetractionUndoesFold : Prop :=
  ∀ (c : Cask) (mods : Tab Word) (etype first : Nat) (scale : Int) (neg : Bool) (raws : List Nat),
    let twice := (c.foldRange mods etype scale neg false false first raws).foldRange mods etype scale (!neg) true false first raws
    opInvertible c.op = true → opDefined c.op = true → c.fieldsOk mods = true →
    (∀ e, c.word e < (if c.op = 0x01 then 2 ^ 32 else if opModular c.op then c.modulus mods e else 2 ^ 64)) →
    (∀ e, twice.word e = c.word e) ∧ (c.inexact + raws.length < 2 ^ 48 - 1 → twice.inexact = c.inexact) ∧
    (c.nan + raws.length < 2 ^ 48 - 1 → twice.nan = c.nan)

/-- R155, R156: SEGMENT_RETRACTION takes the oldest retraction command of a bay, folds the inverse of its segment's terms into the Cask when the tile is still SEL. -/
def Claim.SegmentRetracted : Prop :=
  ∀ (b k seq : Nat) (r : Retraction) (rest : List Retraction) (e : LedgerEntry) (g : Segment) (l : LogEntry) (s : State),
    let c := s.cask b g.cask
    let n := blockBytes g.etype (g.count * c.coords g.etype)
    let got := clogRead s k (l.offset + 64 + 512 + g.srcOff) n
    (s.bay b).retr = r :: rest → r.shelf = k → r.logSeq = seq → ledgerEntry s k seq = some e → e.segs.find? (fun x => x.seg == r.seg) = some g →
    logEntry s k seq = some l → got.1 = .ok → g.tile = c.sel → CaskSound s b g.cask → g.coff + g.count ≤ c.len →
    (s.shelf ((shelfOf s b).getD 0)).ledger.rowBad = false →
    Answers (.segmentRetraction b) s (fun t => (t.bay b).retr = rest ∧ t.mem = s.mem ∧ t.seqs = s.seqs ∧ t.queues = s.queues ∧
      t.cask b g.cask = ((c.foldRange (s.bay b).mods g.etype (sext 8 g.scaleE) (!g.neg) true false g.coff
        (c.raws g.etype (g.count * c.coords g.etype) g.count [got.2])).countFold (s.bay b).mods) ∧
      (ledgerEntry t k seq).map (fun x => x.segs.filter (fun y => y.seg == r.seg && !y.retired)) = some [])

/-- R155: CRATE_SETTLE settles a crate whose COMMIT is posted once every segment of its plan is recorded. -/
def Claim.CrateSettles : Prop :=
  ∀ (k seq : Nat) (e : LedgerEntry) (l : LogEntry) (s : State), ledgerEntry s k seq = some e → logEntry s k seq = some l →
    let h := s.shelf k
    h.ledger.rowBad = false →
    let gone := fun t : State => ledgerEntry t k seq = none ∧ t.bays = s.bays ∧ t.seqs = s.seqs
    (e.unreadable = false → e.verdict = .commit → e.segs.length = e.plan → Answers (.crateSettle k seq) s (fun t => gone t ∧
      (t.shelf k).round.committed = up 32 h.round.committed ∧ (t.shelf k).round.rejected = h.round.rejected)) ∧
    (e.unreadable = false → e.verdict = .retract → (∀ g ∈ e.segs, g.retired = true) → Answers (.crateSettle k seq) s (fun t => gone t ∧
      (t.shelf k).round.rejected = up 32 h.round.rejected ∧ (t.shelf k).round.committed = h.round.committed)) ∧
    (e.unreadable = false → e.verdict = .pending → Idles (.crateSettle k seq) s)

/-- A retraction undoes its fold and settles its crate. -/
def Obligations.Retractions : Prop :=
  Claim.RetractionUndoesFold ∧ Claim.SegmentRetracted ∧ Claim.CrateSettles ∧ Claim.LedgerRowError

/-! ### Fold units (04_folding.md) -/

/-- R118, R119, R134: how a Cask word takes a term and what its Keg element's combined value is, for every arithmetic. -/
def Claim.FoldArithmetic : Prop :=
  ∀ (c : Cask) (mods : Tab Word) (e v : Nat) (t : Int), v < 2 ^ 64 →
    let m := c.modulus mods e
    (c.op = 0x01 → (c.combine mods e v t : Int) = (v + t) % 2 ^ 32) ∧
    (c.op = 0x02 → (c.combine mods e v t : Int) = (v + t) % 2 ^ 64) ∧
    ((c.op = 0x03 ∨ c.op = 0x04 ∨ c.op = 0x05 ∨ c.op = 0x0D) → 0 < m → (c.combine mods e v t : Int) = (v + t) % m) ∧
    (c.op = 0x04 → m = 2 ^ 64 - 2 ^ 32 + 1) ∧ (c.op = 0x05 → m = 2 ^ 128 - 7 * 2 ^ 66 + 1) ∧
    ((c.op = 0x06 ∨ c.op = 0x07) → -2 ^ 63 ≤ sext 64 v + t → sext 64 v + t < 2 ^ 63 → sext 64 (c.combine mods e v t) = sext 64 v + t) ∧
    (c.op = 0x08 → 0 ≤ t → t < 2 ^ 64 → c.combine mods e v t = v ^^^ t.toNat) ∧
    (c.op = 0x09 → 0 ≤ t → t < 2 ^ 64 → c.combine mods e v t = v &&& t.toNat) ∧
    (c.op = 0x0A → 0 ≤ t → t < 2 ^ 64 → c.combine mods e v t = v ||| t.toNat) ∧
    (c.op = 0x0B → c.signed = false → 0 ≤ t → t < 2 ^ 64 → c.combine mods e v t = min v t.toNat) ∧
    (c.op = 0x0C → c.signed = false → 0 ≤ t → t < 2 ^ 64 → c.combine mods e v t = max v t.toNat) ∧
    (c.op = 0x0B → c.signed = true → -2 ^ 63 ≤ t → t < 2 ^ 63 → sext 64 (c.combine mods e v t) = min (sext 64 v) t) ∧
    (c.op = 0x0C → c.signed = true → -2 ^ 63 ≤ t → t < 2 ^ 63 → sext 64 (c.combine mods e v t) = max (sext 64 v) t) ∧
    (∀ k : Nat, k < 2 ^ 128 → (c.op = 0x06 ∨ c.op = 0x07) → (c.kegCombine mods e k v : Int) = (sext 128 k + sext 64 v) % 2 ^ 128)

/-- R120, R121: an integer source is clamped to IN_WIDTH bits, and a zero, a NaN and an infinity of FP32 give 0, 0 counted as NaN. -/
def Claim.SourceConversion : Prop :=
  ∀ (w : Nat) (e : Int), 2 ≤ w → w ≤ 62 →
    let lo : Int := -2 ^ (w - 1)
    let hi : Int := 2 ^ (w - 1) - 1
    (∀ q : Int, clampTerm w q 0 = { val := max lo (min hi q), inexact := 0, sat := if q < lo ∨ hi < q then 1 else 0, nan := 0 }) ∧
    floatOf 0x08 0x00000000 e w = { val := 0 } ∧ floatOf 0x08 0x80000000 e w = { val := 0 } ∧
    (∀ f, 0 < f → f < 2 ^ 23 → floatOf 0x08 (0x7F800000 + f) e w = { val := 0, nan := 1 }) ∧
    floatOf 0x08 0x7F800000 e w = { val := hi, sat := 1 } ∧ floatOf 0x08 0xFF800000 e w = { val := lo, sat := 1 } ∧
    floatOf 0x08 0x3F800000 0 w = { val := 1 } ∧ floatOf 0x08 0x40200000 0 w = (if w = 2 then { val := 1, sat := 1 } else { val := 2, inexact := 1 }) ∧
    floatOf 0x0A 0xBE00 0 w = { val := -2, inexact := 1 }

/-- The thirteen fold arithmetics and the conversion of source elements. -/
def Obligations.FoldArithmetics : Prop :=
  Claim.FoldArithmetic ∧ Claim.SourceConversion

/-- R124, R131: FOLD.A that passes its checks and reads its source folds each source element into its Cask element and leaves every other word. -/
def Claim.FoldsElements : Prop :=
  ∀ (q n k : Nat) (d : Bytes) (s : State),
    let b := q / 4
    let ci := fCask d
    let c := s.cask b ci
    let mods := (s.bay b).mods
    let raws := c.raws (v0 d).etype.toNat (v0 d).len.toNat (fCount d) (blocksRead s k (v0 d).blocks)
    let term := fun i : Nat => c.term mods (fCoff d + i) (v0 d).etype.toNat (raws.getD i 0) (v0 d).scale
    let inside := fun e : Nat => fCoff d ≤ e ∧ e < fCoff d + raws.length
    let folded := fun (word : Nat → Nat) (t : State) => Accepted q n (some .ok) s t ∧ t.mem = s.mem ∧ t.seqs = s.seqs ∧
      (t.cask b ci).cfg = c.cfg ∧ (t.cask b ci).kegs = c.kegs ∧ (t.cask b ci).folds = c.folds + 1 ∧
      (∀ e, (t.cask b ci).word e = word e) ∧ ∀ j, j ≠ ci → t.cask b j = s.cask b j
    (s.bay b).retr = [] → (s.bay b).hold = [] → c.folds + 1 < 2 ^ c.log2Interval → c.folds + 1 < 2 ^ 62 →
    (Presents s q n k 0x01 d → foldACheck q k d s = none → blocksStat s k (v0 d).blocks = .ok →
      Answers (.foldA q n) s (folded (fun e => if inside e
        then c.combine mods e (c.word e) (if (fOpf d).testBit 0 then c.negTerm (term (e - fCoff d)) else term (e - fCoff d)).val
        else c.word e))) ∧
    (Presents s q n k 0x02 d → foldOCheck q k d s = none → pendingOf s k q d = [] → (fOpf d).testBit 1 = true →
      Answers (.foldO q n) s (folded (fun e => if fCoff d ≤ e ∧ e < fCoff d + fCount d then c.ident else c.word e))) ∧
    (Presents s q n k 0x02 d → foldOCheck q k d s = none → pendingOf s k q d = [] → (fOpf d).testBit 1 = false →
      blocksStat s k (v0 d).blocks = .ok →
      Answers (.foldO q n) s (folded (fun e => if inside e then c.termWord mods e (term (e - fCoff d)).val else c.word e)))

/-- R125: the fold unit refuses at issue, with no change to any Cask or Keg. -/
def Claim.FoldRefusals : Prop :=
  ∀ (q n k : Nat) (d : Bytes) (s : State),
    let b := q / 4
    let c := s.cask b (fCask d)
    let refused := fun t : State => Accepted q n (some .paramUnsupported) s t ∧ SameBays s t ∧ t.mem = s.mem ∧ t.seqs = s.seqs ∧ t.shelves = s.shelves
    let outside := c.en = false ∨ fCount d = 0 ∨ c.len < fCoff d + fCount d
    (s.bay b).retr = [] → (s.bay b).hold = [] →
    (Presents s q n k 0x01 d → (outside ∨ ((fOpf d).testBit 0 = true ∧ (c.op = 0x09 ∨ c.op = 0x0A ∨ c.op = 0x0B ∨ c.op = 0x0C)) ∨
      c.accepts (v0 d).etype.toNat = false) → Answers (.foldA q n) s refused) ∧
    (Presents s q n k 0x02 d → (outside ∨ ((fOpf d).testBit 1 = false ∧ c.accepts (v0 d).etype.toNat = false)) → Answers (.foldO q n) s refused) ∧
    (Presents s q n k 0x04 d → c.en = false → Answers (.spill q n) s refused) ∧
    (Presents s q n k 0x05 d → (outside ∨ (fOpf d % 16 / 8 = 1 ∧ fOpf d % 8 / 4 = 0) ∨ (fOpf d % 8 / 4 = 0 ∧ fWide d = 0) ∨
      (fOpf d % 8 / 4 = 1 ∧ fWide d ≠ 0)) → Answers (.drainW q n) s refused) ∧
    (Presents s q n k 0x06 d → (outside ∨ (s.shelf k).conf = true ∨ c.plain = true) → Answers (.drainK q n) s refused)

/-- R131, R132, R136: SPILL and DRAIN.W with TO_KEG move rows of a Cask into tile SEL of its Keg. -/
def Claim.SpillKeepsCombined : Prop :=
  ∀ (q n k : Nat) (d : Bytes) (s : State),
    let b := q / 4
    let ci := fCask d
    let c := s.cask b ci
    let mods := (s.bay b).mods
    let moved := fun t : State => Accepted q n (some .ok) s t ∧ t.mem = s.mem ∧ t.seqs = s.seqs ∧
      (∀ e, (t.cask b ci).combined mods e = c.combined mods e) ∧ ∀ j, j ≠ ci → t.cask b j = s.cask b j
    (s.bay b).retr = [] → (s.bay b).hold = [] → foldShut (s.shelf k) = false → c.en = true → c.fieldsOk mods = true → (c.words.map (·.1)).Nodup → CaskSound s b ci →
    (Presents s q n k 0x04 d → Answers (.spill q n) s (fun t => moved t ∧
      (t.cask b ci).live = [] ∧ (t.cask b ci).folds = 0 ∧ (t.cask b ci).spills = up 32 c.spills)) ∧
    (Presents s q n k 0x05 d → fOpf d = 4 → fWide d = 0 → 1 ≤ fCount d → fCoff d + fCount d ≤ c.len → c.rangeBad (fCoff d) (fCount d) = false →
      pendingOf s k q d = [] → Answers (.drainW q n) s (fun t => moved t ∧
        (fCoff d = 0 → fCount d = c.len → (t.cask b ci).folds = 0)))

/-- R136, R137: DRAIN.W and DRAIN.K write the combined values of their range, in Keg form, to consecutive elements at DST and change no Cask word. -/
def Claim.DrainsCombined : Prop :=
  ∀ (q n k : Nat) (d : Bytes) (s : State),
    let b := q / 4
    let ci := fCask d
    let c := s.cask b ci
    let mods := (s.bay b).mods
    let written := fun (sz : Nat) (t : State) =>
      t.mem = (vwrite s k (fWide d) ((List.range (fCount d)).flatMap (fun i => toLe sz (c.combined mods (fCoff d + i))))).mem ∧
      (t.cask b ci).words = c.words ∧ (t.cask b ci).kegs = c.kegs ∧ t.seqs = s.seqs
    (s.bay b).retr = [] → (s.bay b).hold = [] → c.rangeBad (fCoff d) (fCount d) = false → CaskSound s b ci →
    (∀ i, i < fCount d → c.elemBad (fCoff d + i) = false) →
    (Presents s q n k 0x05 d → (fOpf d = 0 ∨ fOpf d = 0x10) → drainWCheck q k d s = none → pendingOf s k q d = [] →
      hitsSum (s.shelf k) (fWide d) (fCount d * 8) = false →
      Answers (.drainW q n) s (fun t => Accepted q n (some .ok) s t ∧ written (if fOpf d = 0 then 16 else 8) t)) ∧
    (Presents s q n k 0x06 d → drainKCheck q k d s = none →
      Answers (.drainK q n) s (fun t => written 16 t ∧
        Accepted q n (some (if pendingOf s k q d = [] then .ok else .provisional)) s t ∧
        ((t.queue q n).inflight[(s.queue q n).inflight.length]?).map (·.detail) = some (pendingOf s k q d).length))

/-- R115, R139, R141: enabling a Cask that passes the checks leaves it enabled and fresh, its counters 0 and SEL 0, with KEG_INIT 1. -/
def Claim.CaskRegisters : Prop :=
  ∀ (b ci : Nat) (v : Word) (s : State),
    let c := s.cask b ci
    let s₁ := s.onCask b ci (fun c => { c with cfg := v &&& 0xFFF_FF3F_FF02 })
    let others := fun t : State => t.seqs = s.seqs ∧ t.shelves = s.shelves ∧ ∀ j, j ≠ ci → t.cask b j = s.cask b j
    let zeroed := fun (area keg : Nat × Nat) (t : State) => ∀ a, memGet t.mem a =
      if (storeAddr b area.1 ≤ a ∧ a < storeAddr b area.1 + area.2) ∨ (loftAddr b keg.1 ≤ a ∧ a < loftAddr b keg.1 + keg.2) then 0 else memGet s.mem a
    (c.en = false → caskEnableOk s₁ b ci = true → Answers (.caskEnable b ci v) s (fun t => others t ∧ zeroed (0, 0) c.kegAt t ∧
      (t.cask b ci).en = true ∧ (t.cask b ci).words = [] ∧ (t.cask b ci).kegs = [] ∧ (t.cask b ci).live = [] ∧ (t.cask b ci).bad = [] ∧
      (t.cask b ci).folds = 0 ∧ (t.cask b ci).inexact = 0 ∧ (t.cask b ci).sat = 0 ∧ (t.cask b ci).nan = 0 ∧ (t.cask b ci).spills = 0 ∧
      (t.cask b ci).sel = 0 ∧ (t.cask b ci).kegInit = true)) ∧
    (c.en = false → caskEnableOk s₁ b ci = false → Answers (.caskEnable b ci v) s (fun t => others t ∧ t.mem = s.mem ∧
      (t.cask b ci).en = false ∧ (t.cask b ci).cfgErr = true ∧ (t.cask b ci).words = c.words)) ∧
    Answers (.kegInitDone b ci) s (fun t => others t ∧ t.mem = s.mem ∧ t.cask b ci = { c with kegInit := false }) ∧
    (c.en = true → caskIdle s b ci = true → caskProvisional s b ci = 0 → Answers (.caskDisable b ci) s (fun t => others t ∧ t.mem = s.mem ∧
      (t.cask b ci).en = false ∧ (t.cask b ci).scrub = true ∧ (t.cask b ci).scrubArea = c.areaAt ∧ (t.cask b ci).scrubKeg = c.kegAt ∧ (t.cask b ci).words = [] ∧ (t.cask b ci).kegs = [])) ∧
    (c.en = true → caskIdle s b ci = false → Answers (.caskDisable b ci) s (fun t => others t ∧ t.mem = s.mem ∧ t.cask b ci = { c with wrIgnored := true })) ∧
    (c.scrub = true → Answers (.caskScrubDone b ci) s (fun t => others t ∧ zeroed c.scrubArea c.scrubKeg t ∧
      t.cask b ci = { c with scrub := false, scrubArea := (0, 0), scrubKeg := (0, 0) })) ∧
    (c.en = true → caskIdle s b ci = true → caskProvisional s b ci = 0 → v.toNat / 2 ^ 32 % 256 ≤ c.tilesM1 →
      Answers (.kegSelWrite b ci v) s (fun t => others t ∧ t.mem = s.mem ∧ (t.cask b ci).sel = v.toNat / 2 ^ 32 % 256 ∧
        (t.cask b ci).tilesM1 = c.tilesM1 ∧ (t.cask b ci).kegRow = c.kegRow ∧ (t.cask b ci).words = c.words))

/-- Spills keep combined values, drains write them, and the Cask registers enable and clear. -/
def Obligations.SpillsDrainsCasks : Prop :=
  Claim.SpillKeepsCombined ∧ Claim.DrainsCombined ∧ Claim.CaskRegisters

/-- R128, R135: a SPILL-free release. -/
def Claim.HeldCommandRuns : Prop :=
  ∀ (b : BitVec 4) (m : BitVec 3) (h : Held) (rest : List Held) (c : InFlight) (p : List InFlight) (k : Nat) (s : State),
    let d := c.desc
    let x := s.cask b.toNat (fCask d)
    (s.bay b.toNat).hold = h :: rest → m = 0 → h.seq / 4 = b.toNat → h.ended = false → (s.queue h.seq h.queue).inflight = p ++ [c] →
    shelfOf s b.toNat = some k → dKind d = 0x05 → fOpf d = 4 → x.en = true → x.fieldsOk (s.bay b.toNat).mods = true → (x.words.map (·.1)).Nodup → pendingOf s k h.seq d = [] →
    x.rangeBad (fCoff d) (fCount d) = false → fCoff d + fCount d ≤ x.len → CaskSound s b.toNat (fCask d) →
    Answers (.heldCommandRelease b m) s (fun t => (t.bay b.toNat).hold = rest ∧
      (t.queue h.seq h.queue).inflight = p ++ [{ c with result := some .ok, detail := 0 }] ∧ t.mem = s.mem ∧ t.seqs = s.seqs ∧
      ∀ e, (t.cask b.toNat (fCask d)).combined (s.bay b.toNat).mods e = x.combined (s.bay b.toNat).mods e)

/-- Folds of elements, refused folds and the release of held commands. -/
def Obligations.FoldCommands : Prop :=
  Claim.FoldsElements ∧ Claim.FoldRefusals ∧ Claim.HeldCommandRuns

/-! ### Masks, streams and dropout recovery (06_masks_and_recovery.md) -/

/-- R173, R176, R186: XSTREAM.M and SHAKE.M that pass their checks fold the masks of each entry that SET, FIRST and NUM name, one fold an entry, self masks negated. -/
def Claim.MaskFolds : Prop :=
  ∀ (q n k : Nat) (d : Bytes) (l : List (Bytes × Bool)) (s : State),
    let b := q / 4
    let ci := fCask d
    let mods := (s.bay b).mods
    let r := (s.shelf k).round.desc
    let one := fun (shake : Bool) (c : Cask) (e : Bytes × Bool) =>
      (c.foldRange mods (maskEtype r.foldOp) 0 e.2 false false (fCoff d) (masks r.foldOp r.modulus shake e.1 (field d 0x14 4) (fCount d))).countFold mods
    let folded := fun (shake : Bool) (t : State) => Accepted q n (some .ok) s t ∧ t.mem = s.mem ∧ t.seqs = s.seqs ∧
      t.cask b ci = l.foldl (one shake) (s.cask b ci) ∧ (∀ j, j ≠ ci → t.cask b j = s.cask b j) ∧
      tget 0 (t.shelf k).recov.folded (b * 64 + ci) = tget 0 (s.shelf k).recov.folded (b * 64 + ci) + l.length * fCount d
    (s.bay b).retr = [] → (s.bay b).hold = [] → CaskSound s b ci →
    (Presents s q n k 0x07 d → maskCheck false q k d s = none → maskEntries s k (mSet d) (mFirst d) (mNum d) = some l →
      Answers (.xstreamM q n) s (folded false)) ∧
    (Presents s q n k 0x08 d → maskCheck true q k d s = none → maskEntries s k (mSet d) (mFirst d) (mNum d) = some l →
      Answers (.shakeM q n) s (folded true)) ∧
    (Presents s q n k 0x07 d → maskEntries s k (mSet d) (mFirst d) (mNum d) = none →
      Answers (.xstreamM q n) s (fun t => Accepted q n (some .paramUnsupported) s t ∧ SameBays s t ∧ t.mem = s.mem))

/-- R168, R170: the neighbour relation that the round controller computes is symmetric, and no client is its own neighbour. -/
def Claim.NeighboursSymmetric : Prop :=
  ∀ (d : RoundDesc) (i j : Nat), d.clientCount < 2 ^ 24 → d.k < d.clientCount → i < d.clientCount → j < d.clientCount →
    (i ∈ neighbours d j → j ∈ neighbours d i) ∧ i ∉ neighbours d i

/-- The neighbour graph is symmetric. -/
def Obligations.NeighboursSymmetric : Prop :=
  Claim.NeighboursSymmetric

/-- R175, R326: XSTREAM of an open range writes the AES-256-CTR keystream of its chest slot, and one whose slot holds no usable key writes nothing. -/
def Claim.StreamsAndHashes : Prop :=
  ∀ (q n k : Nat) (d : Bytes) (s : State),
    let src := field d 0x20 8
    let m := field d 0x28 8
    let dst := field d 0x18 8
    let len := field d 0x10 8
    let gives := fun (st : Status) (t : State) => Accepted q n (some st) s t ∧ t.seqs = s.seqs
    (Presents s q n k 0x18 d → operandOk s k dst len 8 = true →
      (∀ h, bindCur s (field d 8 1) (xstreamUse k) = .ok h → Answers (.xstream q n) s (fun t => gives .ok t ∧
        t.mem = (vwrite s k dst (aesCtr h.key (beNat (slice d 0x20 16)) len)).mem)) ∧
      (∀ st, bindCur s (field d 8 1) (xstreamUse k) = .error st → Answers (.xstream q n) s (fun t => gives st t ∧ t.mem = s.mem ∧ t.shelves = s.shelves))) ∧
    (Presents s q n k 0x18 d → operandOk s k dst len 8 = false → Answers (.xstream q n) s (fun t => gives .paramUnsupported t ∧ t.mem = s.mem)) ∧
    (Presents s q n k 0x19 d → operandOk s k dst len 8 = true → operandOk s k src m 8 = true → vstat s k src m = .ok →
      Answers (.shake q n) s (fun t => gives .ok t ∧ t.mem = (vwrite s k dst (shake256 (vread s k src m) len)).mem)) ∧
    (Presents s q n k 0x1A d → operandOk s k dst 32 8 = true → operandOk s k src m 8 = true → vstat s k src m = .ok →
      Answers (.digest q n) s (fun t => gives .ok t ∧ t.mem = (vwrite s k dst (sha3 (vread s k src m))).mem)) ∧
    (Presents s q n k 0x1A d → operandOk s k dst 32 8 = true → operandOk s k src m 8 = true → 0 < m → vstat s k src m ≠ .ok →
      Answers (.digest q n) s (fun t => gives (vstat s k src m) t ∧ t.mem = s.mem ∧
        ∀ x, dev? s k (dst / 64 * 64) = some x → markOf t x = some .poisoned)) ∧
    (Presents s q n k 0x19 d → operandOk s k src m 8 = false → Answers (.shake q n) s (fun t => gives .paramUnsupported t ∧ t.mem = s.mem))

/-- Mask forms fold the round's masks; streams and hashes write their output. -/
def Obligations.MasksAndHashes : Prop :=
  Claim.MaskFolds ∧ Claim.StreamsAndHashes

/-- R177: SIGV of a held crate whose signature verifies completes OK, one whose signature does not VERDICT_REJECT, and neither changes anything but the queue. -/
def Claim.SignatureVerdict : Prop :=
  ∀ (q n k : Nat) (d : Bytes) (e : LogEntry) (s : State), Presents s q n k 0x12 d →
    let r := sigParts k (fWide d) s
    let only := fun (st : Status) (t : State) => Accepted q n (some st) s t ∧ t.mem = s.mem ∧ SameBays s t ∧ t.seqs = s.seqs
    (heldCrate s k (fWide d) = some e → r.1 = .ok → r.2.2.2 = s →
      Answers (.sigv q n) s (only (if crateSigOk r.2.1 r.2.2.1 e.key then .ok else .verdictReject))) ∧
    (heldCrate s k (fWide d) = none → Answers (.sigv q n) s (only .paramUnsupported))

/-- R182, R180: one slot of a share crate. -/
def Claim.ShareSlots : Prop :=
  ∀ (k v w pos : Nat) (b : Bytes) (s : State),
    let x := (s.shelf k).recov
    let d := (s.shelf k).round.desc
    let y := ((shareSlot k v w pos b s).shelf k).recov
    let bad := field b 4 4 ≠ d.clientBase + w ∨ 2 < field b 0 1 ∨ p127 ≤ field b 0x10 16 ∨ p127 ≤ field b 0x20 16 ∨ p127 ≤ field b 0x30 16
    (field b 0 1 = 0 → shareSlot k v w pos b s = s) ∧
    (field b 0 1 ≠ 0 → bad → y = { x with invalid := up 32 x.invalid }) ∧
    (¬bad → zeroAt b 1 3 = true → zeroAt b 8 8 = true →
      (field b 0 1 = 1 → (survives s k w = true ∨ w = v) → y = { x with wrongKind := up 32 x.wrongKind }) ∧
      (field b 0 1 = 2 → survives s k w = false → y = { x with wrongKind := up 32 x.wrongKind }) ∧
      ((field b 0 1 = 1 ∧ survives s k w = false ∧ w ≠ v) ∨ (field b 0 1 = 2 ∧ survives s k w = true) →
        y.accepted = up 32 x.accepted ∧ tmem y.shares (w * (d.k + 1) + pos) = true ∧
        tget { l0 := 0, l1 := 0, l2 := 0 } y.shares (w * (d.k + 1) + pos) = { l0 := field b 0x10 16, l1 := field b 0x20 16, l2 := field b 0x30 16 }))

/-- Signature verdicts and the slots of share crates. -/
def Obligations.SignaturesAndShareSlots : Prop :=
  Claim.SignatureVerdict ∧ Claim.ShareSlots

/-- R182: LAGR.IN of an admitted share crate in RECOVER that can be read takes each slot in the order of its sender's holder set, and the crate takes STATE share (the model's choice, log 69); a crate that is not an admitted share crate is refused, and so is any once T_EXCHANGE has come. -/
def Claim.SharesTaken : Prop :=
  ∀ (q n k : Nat) (d : Bytes) (e : LogEntry) (s : State), Presents s q n k 0x14 d →
    let h := s.shelf k
    let r := h.round
    let got := crateRead k (fWide d) 512 ((r.desc.k + 1) * 64) s
    let v := e.client - r.desc.clientBase
    (admittedOf s k (fWide d) 2 = some e → r.phase = .recover → r.begun = true → pastExchange s k = false → field d 9 1 = 0 → got.1 = .ok → got.2.2 = s →
      Answers (.lagrIn q n) s (fun t => Accepted q n (some .ok) s t ∧ t.seqs = s.seqs ∧ SameBays s t ∧
        (t.shelf k).recov = (((holders r.desc v).zipIdx.foldl (fun s x =>
          shareSlot k v x.1 ((holders r.desc x.1).findIdx (· == v)) (slice got.2.1 (x.2 * 64) 64) s) s).shelf k).recov ∧
        ∀ y ∈ (t.shelf k).intake.log, y.logSeq = fWide d → y.state = .share)) ∧
    (admittedOf s k (fWide d) 2 = none → Answers (.lagrIn q n) s (fun t => Accepted q n (some .paramUnsupported) s t ∧ t.mem = s.mem ∧ SameBays s t ∧
      (t.shelf k).recov = h.recov)) ∧
    (pastExchange s k = true → Answers (.lagrIn q n) s (fun t => Accepted q n (some .paramUnsupported) s t ∧ t.mem = s.mem ∧ SameBays s t ∧
      (t.shelf k).recov = h.recov))

/-- R178, R184: LAGR before CHECKED is refused, and after it a client whose window passes against PUBKEY or COMMIT has its secret kept. -/
def Claim.SecretsRebuilt : Prop :=
  ∀ (q n k w : Nat) (d : Bytes) (s : State),
    let h := s.shelf k
    let a := maskkeyAddr h w
    let refused := fun t : State => Accepted q n (some .paramUnsupported) s t ∧ t.mem = s.mem ∧ SameBays s t ∧ (t.shelf k).recov = h.recov
    (Presents s q n k 0x15 d → recovChecked h = false → Answers (.lagr q n) s refused) ∧
    (Presents s q n k 0x15 d → recovChecked h = true → clientRange h.round.desc (field d 0xC 4) (field d 0x10 4) = [w] → tmem h.recov.secrets w = false →
      Clean s k a 64 →
      (∀ sec, reconstruct s k w = some sec → Answers (.lagr q n) s (fun t => Accepted q n (some .ok) s t ∧ t.mem = s.mem ∧ SameBays s t ∧ t.seqs = s.seqs ∧
        (t.shelf k).recov.secrets = tput h.recov.secrets w sec ∧ (t.shelf k).recov.secretsN = up 32 h.recov.secretsN ∧
        (t.shelf k).recov.pairs = h.recov.pairs ∧ (t.shelf k).round = h.round)) ∧
      (reconstruct s k w = none → Answers (.lagr q n) s (fun t => (t.shelf k).round.active = false ∧ (t.shelf k).round.outcome = .abandoned ∧
        (t.shelf k).round.detail = .verdictReject))) ∧
    (Presents s q n k 0x16 d → recovChecked h = false → Answers (.ecdh q n) s refused) ∧
    (∀ (rank i v : Nat), Presents s q n k 0x16 d → recovChecked h = true → tmem h.recov.secrets w = true → tmem h.recov.pairs i = false →
      (dropped s k).zipIdx.filter (fun e => (clientRange h.round.desc (field d 0xC 4) (field d 0x10 4)).contains e.1) = [(w, rank)] →
      pairSlots s k rank w = [(i, v)] → Clean s k (maskkeyAddr h v) 64 →
      let out := x25519 (tget [] h.recov.secrets w) (vread s k (maskkeyAddr h v) 32)
      out.all (· == 0) = false → Answers (.ecdh q n) s (fun t => Accepted q n (some .ok) s t ∧ t.mem = s.mem ∧ SameBays s t ∧ t.seqs = s.seqs ∧
        (t.shelf k).recov.secrets = h.recov.secrets ∧
        (t.shelf k).recov.pairs = tput h.recov.pairs i (pairSeed h.round.desc (h.round.desc.clientBase + w) (h.round.desc.clientBase + v) out)))

/-- Shares are taken and secrets reconstructed. -/
def Obligations.SharesAndSecrets : Prop :=
  Claim.SharesTaken ∧ Claim.SecretsRebuilt

/-! ### The lattice cluster, sealed rounds and refresh (08_lattice_cluster_and_sealed_rounds.md, 09_refresh.md) -/

/-- R219, R231: for an odd prime q with 2N dividing q − 1, INTT undoes NTT on reduced residues, and the point k of NTT is the value of the polynomial at ψ^(2k+1). -/
def Claim.TransformInverse : Prop :=
  ∀ (q m : Nat) (a : Limb), 2 < q → (∀ d, d ∣ q → d = 1 ∨ d = q) → 2 ^ (m + 1) ∣ q - 1 → a.length = 2 ^ m → (∀ x ∈ a, x < q) →
    intt q (ntt q a) = a ∧ psi q (2 ^ m) ^ 2 ^ m % q = q - 1 ∧
    ∀ k, k < 2 ^ m → (ntt q a).getD k 0 = ((List.range (2 ^ m)).map (fun j => a.getD j 0 * (psi q (2 ^ m) ^ (2 * k + 1)) ^ j)).sum % q

/-- INTT undoes NTT. -/
def Obligations.TransformInverse : Prop :=
  Claim.TransformInverse

/-- R230, R231, R232: NTT, INTT and MODMUL of operands that can be read reduce each source residue modulo its limb's prime and write the transforms, or the products. -/
def Claim.ResidueCommands : Prop :=
  ∀ (q n k : Nat) (d : Bytes) (p : Machine.PSet) (s : State), resSet (s.shelf k) d = some p →
    let len := resLen p d
    let prime := fun i : Nat => p.prime (lFirst d + i % lCount d)
    let src := resBlocks s k p d (lSrc d)
    let shape := latticeOk s k (lSrc d) len = true ∧ latticeOk s k (lDst d) len = true ∧ Clean s k (lSrc d) len ∧ 0 < len
    let apart := lSrc d = lDst d ∨ overlap (lSrc d) len (lDst d) len = false
    let wrote := fun (l : List Limb) (t : State) => Accepted q n (some .ok) s t ∧ t.seqs = s.seqs ∧ SameBays s t ∧
      t.mem = (vwrite s k (lDst d) (l.flatMap resBytes)).mem
    let refused := fun t : State => Accepted q n (some .paramUnsupported) s t ∧ t.mem = s.mem ∧ t.shelves = s.shelves
    (Presents s q n k 0x20 d → shape → apart → Answers (.ntt q n) s (wrote (src.zipIdx.map (fun e => ntt (prime e.2) e.1)))) ∧
    (Presents s q n k 0x21 d → shape → apart → Answers (.intt q n) s (wrote (src.zipIdx.map (fun e => intt (prime e.2) e.1)))) ∧
    (Presents s q n k 0x20 d → ¬apart → Answers (.ntt q n) s refused) ∧ (Presents s q n k 0x21 d → ¬apart → Answers (.intt q n) s refused) ∧
    (Presents s q n k 0x22 d → ¬apart → Answers (.modmul q n) s refused) ∧
    (Presents s q n k 0x22 d → field d 0xC 1 = 0 → shape → apart → latticeOk s k (lSrc2 d) len = true → Clean s k (lSrc2 d) len →
      overlap (lSrc2 d) len (lSrc d) len = false → overlap (lSrc2 d) len (lDst d) len = false →
      Answers (.modmul q n) s (wrote ((src.zip (resBlocks s k p d (lSrc2 d))).zipIdx.map (fun e =>
        limbMul (prime e.2) e.1.1 (limbRed (prime e.2) e.1.2))))) ∧
    (Presents s q n k 0x22 d → field d 0xC 1 = 3 → shape → apart → Clean s k (lDst d) len → latticeOk s k (lSrc2 d) (lCount d * 8) = true →
      Clean s k (lSrc2 d) (lCount d * 8) → overlap (lSrc2 d) (lCount d * 8) (lSrc d) len = false → overlap (lSrc2 d) (lCount d * 8) (lDst d) len = false →
      Answers (.modmul q n) s (wrote (src.zipIdx.map (fun e =>
        let c := (residues (vread s k (lSrc2 d) (lCount d * 8))).getD (e.2 % lCount d) 0
        limbAdd (prime e.2) ((resBlocks s k p d (lDst d)).getD e.2 []) (limbMul (prime e.2) e.1 (limbRed (prime e.2) (List.replicate p.n c)))))))

/-- R221, R233, R235, R237, R240: KEYSW of a usable object with enough budget, whose keys stream without error, writes the switched object to DST with NOISE_BUDGET min(budget. -/
def Claim.KeySwitch : Prop :=
  ∀ (q n k : Nat) (d : Bytes) (x : KSet) (p : Machine.PSet) (s : State), Presents s q n k 0x23 d →
    let h := s.shelf k
    let src := lSrc d
    let scr := lSrc2 d
    let dst := lDst d
    let ki := field d 0x28 2
    let hb := vread s k src 64
    let level := oLevel hb
    let budget := min (oBudget hb) p.kswCap
    let acc := keyswAcc s k x p ki src hb
    let hdr := fun f : Nat => hdrLike hb level (oFlags hb % 2 + (if oUnreliable hb then 2 else 0) + f) (budget - 16)
    let fits := latticeOk s k src (oLen hb) = true ∧ fitsSet p hb = true ∧ keyswOperands s k src (oLen hb) scr dst level p = true ∧
      p.special ≠ 0 ∧ p.dnum ≠ 0 ∧ ki < x.keys
    let only := fun (st : Status) (t : State) => Accepted q n (some st) s t ∧ t.mem = s.mem ∧ SameBays s t ∧ t.seqs = s.seqs ∧
      (t.shelf k).lat.mismatch = min (h.lat.mismatch + (if st = .keysetMismatch then 1 else 0)) (2 ^ 16 - 1) ∧
      (t.shelf k).lat.exhausted = min (h.lat.exhausted + (if st = .noiseExhausted then 1 else 0)) (2 ^ 16 - 1)
    h.lat.mismatch < 2 ^ 16 → h.lat.exhausted < 2 ^ 16 →
    latticeOk s k src 64 = true → Clean s k src 64 → hdrOk hb = true →
    (oInvalid hb = true → Answers (.keysw q n) s (only .poisoned)) ∧
    (oInvalid hb = false → ¬(h.conf = true ∧ oPolicy hb = 2) → h.kset (field d 8 1) = some x → h.pset x.pset = some p → fits →
      (oKeyset hb ≠ x.id → Answers (.keysw q n) s (only .keysetMismatch)) ∧
      (oKeyset hb = x.id → oPolicy hb = 0 → budget < p.decCost + 16 → Answers (.keysw q n) s (only .noiseExhausted)) ∧
      (oKeyset hb = x.id → p.decCost + 16 ≤ budget → streamStatus s k x (x.first ki) (x.count ki) = .ok → Clean s k src (oLen hb) →
        Answers (.keysw q n) s (fun t => Accepted q n (some .ok) s t ∧ t.seqs = s.seqs ∧ SameBays s t ∧
          t.mem = (vwrite (vwrite (vwrite (vwrite (noteStream k x (x.first ki) (x.count ki) s) k dst (hdr 4)) k scr ((acc.1 ++ acc.2).flatMap resBytes))
            k (dst + 64) (keyswBody s k x p ki src hb)) k dst (hdr 0)).mem)))

/-- Residue commands and key switching. -/
def Obligations.LatticeArithmetic : Prop :=
  Claim.ResidueCommands ∧ Claim.KeySwitch

/-- R244, R245: PDEC of one sum object that is ready, under a key that is bound, writes its partial, with samples z that the manual leaves to chance. -/
def Claim.PartialDecryption : Prop :=
  ∀ (q n k ki : Nat) (d : Bytes) (x : KSet) (p : Machine.PSet) (key : Half) (s : State), Presents s q n k 0x24 d →
    let h := s.shelf k
    let o := field d 9 1
    let a := (h.sumArea p).1 + o * p.obj
    let hb := vread s k a 64
    ((s.bay (q / 4)).sampler.reseeding = true → Idles (.pdec q n) s) ∧
    ((s.bay (q / 4)).sampler.reseeding = false → h.roundSet = some p → roundKset h = some (ki, x) → h.sealedRound = true → h.round.phase = .unmask →
      h.round.begun = true → h.sealSt.sumReady = true → field d 0xA 1 = 1 → o < p.cts → o ∉ h.sealSt.pdecObjs → h.sealSt.pdecObjs.length + 1 < p.cts →
      bindCur s x.shareSlot (shareUse k) = .ok key → Clean s k a 64 → srcRefused h.conf .ok hb = none → p.decCost ≤ oBudget hb →
      Clean s k a (oLen hb) → Clean s k (x.chunkAt x.shareFirst) p.shareLen →
      Answers (.pdec q n) s (fun t => Accepted q n (some .ok) s t ∧ t.seqs = s.seqs ∧ (t.shelf k).sealSt.pdecObjs = h.sealSt.pdecObjs ++ [o] ∧
        (t.shelf k).sealSt.pdecDone = h.sealSt.pdecDone ∧ (t.shelf k).round = h.round ∧
        ∃ z : List Int, z.length = p.n ∧
          t.mem = (vzero (vwrite s k (h.partSlot p h.round.desc.groupIndex + 128 + o * (8 * p.limbs * p.n))
            ((partialOf s k x p key.key a z).flatMap resBytes)) k (loftAddr (h.bayIndex (q / 4)) streamBuf.1) streamBuf.2).mem)) ∧
    ((s.bay (q / 4)).sampler.reseeding = false → h.sealedRound = false → Answers (.pdec q n) s (fun t => Accepted q n (some .paramUnsupported) s t ∧
      t.mem = s.mem ∧ t.shelves = s.shelves ∧ SameBays s t))

/-- R221, R248, R249: PCOMB of objects whose sums are neither malformed nor INVALID and whose sums and partials can be read folds their combined values over the range of its Cask as a FOLD.O, marks the Cask as holding plaintext, and counts the objects as combined. -/
def Claim.Combination : Prop :=
  ∀ (q n k : Nat) (d : Bytes) (p : Machine.PSet) (s : State), Presents s q n k 0x0B d → (s.bay (q / 4)).retr = [] → (s.bay (q / 4)).hold = [] →
    let h := s.shelf k
    let b := q / 4
    let objs := (List.range (mNum d)).map (· + mFirst d)
    let raws := objs.flatMap (fun o => (combineValues s k p o).map (fun v => wrap 64 (centred p.t v)))
    let mods := (s.bay b).mods
    (pcombCheck q k d s = none → h.roundSet = some p → CaskSound s b (fCask d) → fCoff d + raws.length ≤ (s.cask b (fCask d)).len →
      (∀ o ∈ objs, srcRefused false (vstat s k ((h.sumArea p).1 + o * p.obj) 64) (vread s k ((h.sumArea p).1 + o * p.obj) 64) = none) →
      combineStat s k p objs = .ok →
      Answers (.pcomb q n) s (fun t => Accepted q n (some .ok) s t ∧ t.mem = s.mem ∧ t.seqs = s.seqs ∧
        t.cask b (fCask d) = { ((((s.cask b (fCask d)).foldRange mods 0x06 0 false false true (fCoff d) raws).clearWhole (fCoff d) raws.length).countFold mods)
          with plain := true } ∧ (∀ j, j ≠ fCask d → t.cask b j = s.cask b j) ∧
        (∀ o, o ∈ (t.shelf k).sealSt.combObjs ↔ o ∈ objs ∨ o ∈ h.sealSt.combObjs) ∧ (t.shelf k).round = h.round)) ∧
    (h.roundSet = none → Answers (.pcomb q n) s (fun t => Accepted q n (some .paramUnsupported) s t ∧ SameBays s t ∧ t.mem = s.mem))

/-- Partial decryption and combination of sealed sums. -/
def Obligations.PartialDecryptions : Prop :=
  Claim.PartialDecryption ∧ Claim.Combination

/-- R257, R259, R260, R264: the first part of a REFRESH of more than one part opens its slot, marks DST's header INVALID and waits. -/
def Claim.RefreshIssued : Prop :=
  ∀ (q n k : Nat) (d : Bytes) (x : KSet) (p : Machine.PSet) (s : State),
    let h := s.shelf k
    let i := field d 0xD 1
    let part := field d 0xE 1
    let parts := field d 0xF 1
    let src := field d 0x10 8
    let dst := field d 0x20 8
    let hb := vread s k src 64
    let rd := refreshDesc s k x
    let cur := s.rslot k i
    let usable := latticeOk s k src 64 = true ∧ srcRefused false .ok hb = none ∧ latticeOk s k src (oLen hb) = true ∧ Clean s k src (oLen hb) ∧ Clean s k src 64 ∧
      h.kset (field d 8 1) = some x ∧ h.pset x.pset = some p ∧ x.refreshKeys = true ∧ oKeyset hb = x.id ∧ oParam hb = x.paramFp ∧
      slotFits h p (rdE rd) i = true ∧ partsOk h part parts = true ∧ ¬(h.conf = true ∧ oPolicy hb = 2) ∧ rdMin rd ≤ oBudget hb
    (Presents s q n k 0x25 d → usable → cur.state = .free → dstOk s k i src dst (oLen hb) p.obj = true → 1 < parts →
      let slot : RSlot := { state := .gather, partsN := parts, kset := field d 8 1, src := src, dst := dst, head := hb, outLen := p.obj, keysetId := x.id, paramFp := x.paramFp
                            inRound := h.round.active, status := cur.status }
      Answers (.refresh q n) s (fun t => Accepted q n none s t ∧ t.rslot k i = { slot with parts := [(part, q / 4)] } ∧ t.seqs = s.seqs ∧ SameBays s t ∧
        (∀ j, j ≠ i → t.rslot k j = s.rslot k j) ∧
        t.mem = (vwrite (vzero (vwrite s k (if dst = 0 then h.slotOut i else dst) (hdrLike hb p.limbs (oFlags hb % 4 + 4) 0))
          k (h.refSlotAt i + 0x80) 0x180) k (h.refSlotAt i) (idRecord slot s.epoch)).mem)) ∧
    (Presents s q n k 0x25 d → usable → cur.state = .gather → cur.resume = false → cur.src = src → cur.dst = dst → cur.kset = field d 8 1 → cur.partsN = parts →
      (∀ e ∈ cur.parts, e.1 ≠ part ∧ e.2 ≠ q / 4) → dstOk s k i src dst (oLen hb) p.obj = true → cur.parts.length + 1 = parts → mayRun h cur = true →
      Answers (.refresh q n) s (fun t => Accepted q n none s t ∧ t.seqs = s.seqs ∧ SameBays s t ∧
        t.rslot k i = { cur with parts := cur.parts ++ [(part, q / 4)], digest := sha3 (vread s k src (oLen hb)), state := .running })) ∧
    (∀ ki, Presents s q n k 0x26 d → partsOk h part parts = true → 1 < parts → cur.state = .suspended → cur.parts = [] → Clean s k cur.src (oLen (vread s k cur.src 64)) →
      h.lat.ksets.find? (fun e => e.2.id == cur.keysetId && e.2.refreshKeys) = some (ki, x) → h.kset ki = some x → sha3 (vread s k cur.src (oLen (vread s k cur.src 64))) = cur.digest →
      Answers (.refreshResume q n) s (fun t => Accepted q n none s t ∧ t.seqs = s.seqs ∧ SameBays s t ∧
        t.rslot k i = { cur with partsN := parts, kset := ki, resume := true, head := vread s k cur.src 64, zeroBudget := decide (oBudget (vread s k cur.src 64) < rdMin (refreshDesc s k x)), inRound := h.round.active, state := .gather, parts := [(part, q / 4)] })) ∧
    (Presents s q n k 0x26 d → cur.state = .free → Answers (.refreshResume q n) s (fun t => Accepted q n (some .paramUnsupported) s t ∧ t.mem = s.mem ∧ t.shelves = s.shelves))

/-- R261, R262, R268: REFRESH_STAGE_DONE of a running slot whose inputs can be read and whose keys pass their tags goes to the next stage. -/
def Claim.RefreshStages : Prop :=
  ∀ (k i : Nat) (ks : KSet) (p : Machine.PSet) (s : State),
    let h := s.shelf k
    let x := s.rslot k i
    let d := refreshDesc s k ks
    let from_ := if x.last = 0 then x.src else h.slotHalf p (rdE d) i (stageOut x.last)
    let n := if x.last = 0 then oLen x.head else halfUnits p (rdE d) * 0x10000
    let ready := x.state = .running ∧ slotKeys s k i = some (ks, p) ∧ (∀ y ∈ stageKeys d (x.last + 1), streamStatus s k ks y.1 y.2 = .ok) ∧
      vstat s k from_ n = .ok
    (ready → x.last < 5 → Answers (.refreshStageDone k i) s (fun t => t.seqs = s.seqs ∧ t.queues = s.queues ∧ t.bays = s.bays ∧
      t.rslot k i = { x with last := x.last + 1, state := if mayRun h x = true then .running else .paused } ∧ (∀ j, j ≠ i → t.rslot k j = s.rslot k j))) ∧
    (ready → x.last = 5 → x.dst ≠ 0 → Answers (.refreshStageDone k i) s (fun t => t.rslot k i = { status := .ok } ∧ t.seqs = s.seqs ∧
      t.bays = s.bays ∧ ∀ q ∈ h.seqs, ∀ n, n < 12 → ∀ c ∈ (t.queue q n).inflight, c.result = none → isPart i c = false)) ∧
    (x.state ≠ .running → Idles (.refreshStageDone k i) s)

/-- R269: REFRESH_CTL frees a slot that is free, done or suspended. -/
def Claim.RefreshSlotFreed : Prop :=
  ∀ (k : Nat) (i : BitVec 3) (s : State),
    let h := s.shelf k
    let x := s.rslot k i.toNat
    ((x.state = .free ∨ x.state = .done ∨ x.state = .suspended) → i.toNat < h.refSlots → Answers (.refreshSlotFree k i) s (fun t =>
      t.rslot k i.toNat = { status := x.status } ∧ (t.shelf k).lat.refResult = 0 ∧ t.seqs = s.seqs ∧ t.bays = s.bays ∧ t.queues = s.queues ∧
      (∀ j, j ≠ i.toNat → t.rslot k j = s.rslot k j) ∧ t.mem = (vzero s k (h.refSlotAt i.toNat) (h.refUnits * 0x10000)).mem)) ∧
    ((x.state = .running ∨ x.state = .paused) → Answers (.refreshSlotFree k i) s (fun t => t.rslot k i.toNat = x ∧ t.mem = s.mem ∧ t.bays = s.bays ∧
      (t.shelf k).lat.refResult = Status.paramUnsupported.code))

/-- Refreshes are issued, run their stages and free their slots. -/
def Obligations.Refreshes : Prop :=
  Claim.RefreshIssued ∧ Claim.RefreshStages ∧ Claim.RefreshSlotFreed

/-- R218, R228, R252: PSET_LOAD of a block in the Cellar that passes every check sets its entry, and of a block that fails one, or for an entry in use, changes no entry. -/
def Claim.SetsLoaded : Prop :=
  ∀ (k : Nat) (e : BitVec 4) (a : BitVec 42) (s : State),
    let h := s.shelf k
    let i := e.toNat
    let ad := a.toNat * 64
    let p : Machine.PSet := { block := vread s k ad 1024 }
    let rest := fun t : State => t.mem = s.mem ∧ t.seqs = s.seqs ∧ t.queues = s.queues ∧ t.bays = s.bays ∧ (t.shelf k).round = h.round
    let psets := fun (st : Status) (l : Tab Machine.PSet) (t : State) => rest t ∧ (t.shelf k).lat.psets = l ∧ (t.shelf k).lat.psetResult = st.code ∧
      (t.shelf k).lat.ksets = h.lat.ksets
    let ksets := fun (st : Status) (l : Tab KSet) (t : State) => rest t ∧ (t.shelf k).lat.ksets = l ∧ (t.shelf k).lat.ksetResult = st.code ∧
      (t.shelf k).lat.psets = h.lat.psets
    (inCellar h ad 1024 = true → vstat s k ad 1024 = .ok → p.ok = true → psetUsers h i = 0 → Answers (.psetLoad k e a) s (psets .ok (tput h.lat.psets i p))) ∧
    ((inCellar h ad 1024 = false ∨ (vstat s k ad 1024 = .ok ∧ (p.ok = false ∨ psetUsers h i ≠ 0))) →
      Answers (.psetLoad k e a) s (psets .paramUnsupported h.lat.psets)) ∧
    ((h.pset i).isSome = true → psetUsers h i = 0 → Answers (.psetUnload k e) s (psets .ok (tdel h.lat.psets i))) ∧
    (psetUsers h i ≠ 0 → Answers (.psetUnload k e) s (psets .paramUnsupported h.lat.psets)) ∧
    (∀ x y, let n := 1 + tagChunks (field (vread s k ad 0x10000) 0x28 4) + field (vread s k ad 0x10000) 0x28 4
      ad % 0x10000 = 0 → inCellar h ad (n * 0x10000) = true → Clean s k ad (n * 0x10000) →
      x = { base := ad, units := n, pset := 0, header := (vread s k ad 0x10000).take 0x1100 } →
      ksetCheck s k i x ((vread s k ad 0x10000).drop 0x1100) = (.ok, some y) → Answers (.ksetLoad k e a) s (ksets .ok (tput h.lat.ksets i y))) ∧
    (ad % 0x10000 ≠ 0 → Answers (.ksetLoad k e a) s (ksets .paramUnsupported h.lat.ksets)) ∧
    (∀ x, h.kset i = some x → (ksetInUse h i = 0 ∧ ksetNamed h x = false → Answers (.ksetUnload k e) s (ksets .ok (tdel h.lat.ksets i))) ∧
      (ksetNamed h x = true → Answers (.ksetUnload k e) s (ksets .paramUnsupported h.lat.ksets)))

/-- Parameter sets and key sets are loaded and unloaded. -/
def Obligations.SetsLoaded : Prop :=
  Claim.SetsLoaded
end

