-- ==== Sys2Proof/Laws/Cipher.lean ====
section
/-!
SUPPORT. The lengths of hashes, round keys and blocks, and that AES-256-GCM opens what it sealed.
-/
namespace Sys2Proof.Machine

theorem foldl_same {α β : Type} {P : α → Prop} {f : α → β → α} (h : ∀ a b, P a → P (f a b)) (l : List β) (a : α) (ha : P a) : P (l.foldl f a) := by
  induction l generalizing a with
  | nil => exact ha
  | cons b r ih => exact ih _ (h a b ha)

@[simp] theorem zeros_length (n : Nat) : (zeros n).length = n := by simp [zeros]

@[simp] theorem toLe_length (n v : Nat) : (toLe n v).length = n := by
  induction n generalizing v with
  | zero => rfl
  | succ n ih => simp [toLe, ih]

@[simp] theorem toBe_length (n v : Nat) : (toBe n v).length = n := by simp [toBe]

@[simp] theorem xorBytes_length (a b : Bytes) : (xorBytes a b).length = min a.length b.length := by simp [xorBytes]

/-- Adding a keystream twice gives the bytes back. -/
theorem xorBytes_twice (a b : Bytes) (h : a.length ≤ b.length) : xorBytes (xorBytes a b) b = a := by
  induction a generalizing b with
  | nil => rfl
  | cons x r ih =>
    cases b with
    | nil => cases h
    | cons y s =>
      have := ih s (by simpa using h)
      simp only [xorBytes] at this
      simp [xorBytes, this, BitVec.xor_assoc]

/-! ### SHA-256 -/

theorem Sha2.turn_length (p : Sha2) (st : List (BitVec p.width) × List (BitVec p.width)) (k : BitVec p.width) (h : st.1.length = 8) : (p.turn st k).1.length = 8 := by
  simp [Sha2.turn, h]

theorem Sha2.join_length (p : Sha2) (ks h : List (BitVec p.width)) (b : Bytes) (h8 : h.length = 8) : (p.join ks h b).length = 8 := by
  have : ∀ m, (ks.foldl p.turn (h, m)).1.length = 8 := fun m =>
    foldl_same (P := fun st : List (BitVec p.width) × List (BitVec p.width) => st.1.length = 8) (fun st k hs => p.turn_length st k hs) ks (h, m) h8
  simp [Sha2.join, this, h8]

theorem primes_eight : (primes 8).length = 8 := by rfl

@[simp] theorem sha256_length (m : Bytes) : (sha256 m).length = 32 := by
  have start : ((primes 8).map (rootFrac 32 2)).length = 8 := by rw [List.length_map, primes_eight]
  have w : ∀ l : List (BitVec 32), (l.flatMap (fun x => toBe 4 x.toNat)).length = 4 * l.length := by
    intro l
    induction l with
    | nil => rfl
    | cons a r ih => simp [ih]; omega
  have all : ∀ (ks : List (BitVec 32)) (l : List Bytes), (l.foldl (sha2Short.join ks) ((primes 8).map (rootFrac 32 2))).length = 8 := fun ks l =>
    foldl_same (P := fun v : List (BitVec 32) => v.length = 8) (fun a b ha => sha2Short.join_length ks a b ha) l _ start
  simp only [sha256, Sha2.digest, List.length_take]
  exact (congrArg (min 32) ((w _).trans (congrArg (4 * ·) (all _ _)))).trans rfl

@[simp] theorem hmac256_length (key m : Bytes) : (hmac256 key m).length = 32 := by simp [hmac256, hmac]

/-! ### AES -/

/-- Pieces of a byte string that is long enough. -/
theorem pieces_length (m n : Nat) (b : Bytes) (h : n * m ≤ b.length) : ∀ x ∈ pieces m n b, x.length = m := by
  induction n generalizing b with
  | zero => simp [pieces]
  | succ n ih =>
    have h1 : n * m + m ≤ b.length := by rw [← Nat.succ_mul]; exact h
    intro x hx
    rcases List.mem_cons.mp hx with e | e
    · rw [e, List.length_take]; omega
    · exact ih (b.drop m) (by rw [List.length_drop]; omega) x e

@[simp] theorem pieces_count (m n : Nat) (b : Bytes) : (pieces m n b).length = n := by
  induction n generalizing b with
  | zero => rfl
  | succ n ih => simp [pieces, ih]

theorem map_subByte_length (p : Bytes) : (p.map subByte).length = p.length := by simp

/-- The key schedule keeps words of four bytes. -/
theorem aesSched_words (n i : Nat) (rc : Byte) (l : List Bytes) (h8 : 8 ≤ l.length) (h : ∀ w ∈ l, w.length = 4) :
    (∀ w ∈ aesSched n i rc l, w.length = 4) ∧ (aesSched n i rc l).length = l.length + n := by
  induction n generalizing i rc l with
  | zero => exact ⟨h, rfl⟩
  | succ n ih =>
    have g : ∀ k, k < 8 → (l.getD k []).length = 4 := by
      intro k hk
      have hl : k < l.length := by omega
      rw [List.getD_eq_getElem?_getD, List.getElem?_eq_getElem hl, Option.getD_some]
      exact h _ (List.getElem_mem hl)
    have g0 := g 0 (by omega)
    have g7 := g 7 (by omega)
    unfold aesSched
    simp only
    generalize ht : (if i % 8 = 0 then _ else if i % 8 = 4 then _ else _ : Bytes) = t
    have ht4 : t.length = 4 := by
      rw [← ht]
      split
      · split
        · rename_i he
          have := congrArg List.length he
          simp only [List.length_map, List.length_append, List.length_drop, List.length_take, List.length_nil] at this
          omega
        · rename_i x r he
          have := congrArg List.length he
          simp only [List.length_map, List.length_append, List.length_drop, List.length_take, List.length_cons] at this
          simp only [List.length_cons]
          omega
      · split
        · simpa using g0
        · exact g0
    have hw : ((t.zip (l.getD 7 [])).map (fun e => e.1 ^^^ e.2)).length = 4 := by simp only [List.length_map, List.length_zip]; omega
    obtain ⟨h1, h2⟩ := ih (i + 1) (if i % 8 = 0 then xtime rc else rc) (((t.zip (l.getD 7 [])).map (fun e => e.1 ^^^ e.2)) :: l)
      (by simp only [List.length_cons]; omega) (by
        intro w hm
        rcases List.mem_cons.mp hm with e | e
        · rw [e]; exact hw
        · exact h w e)
    exact ⟨h1, by rw [h2, List.length_cons]; omega⟩

theorem flatten_length (l : List Bytes) (h : ∀ w ∈ l, w.length = 4) : l.flatten.length = 4 * l.length := by
  induction l with
  | nil => rfl
  | cons a r ih =>
    have := ih (fun w hw => h w (by simp [hw]))
    have := h a (by simp)
    simp only [List.flatten_cons, List.length_append, List.length_cons]
    omega

/-- A 32-byte key has fifteen round keys of 16 bytes. -/
theorem aesKeys_lengths (key : Bytes) (h : key.length = 32) : (aesKeys key).length = 15 ∧ ∀ k ∈ aesKeys key, k.length = 16 := by
  have h1 : ∀ w ∈ (chunks 4 key).reverse, w.length = 4 := by
    intro w hw
    rw [List.mem_reverse] at hw
    exact pieces_length 4 _ key (by rw [h] <;> decide) w hw
  have h2 : (chunks 4 key).reverse.length = 8 := by rw [List.length_reverse, chunks, pieces_count, h]
  obtain ⟨h3, h4⟩ := aesSched_words 52 8 1 _ (by omega) h1
  have h5 : ((aesSched 52 8 1 (chunks 4 key).reverse).reverse.flatten).length = 240 := by
    rw [flatten_length _ (fun w hw => h3 w (List.mem_reverse.mp hw)), List.length_reverse, h4, h2]
  constructor
  · rw [aesKeys, chunks, pieces_count, h5]
  · intro k hk
    exact pieces_length 16 _ _ (by rw [h5] <;> decide) k hk

/-- A block under such round keys has 16 bytes. -/
theorem aesBlockK_length (ks : List Bytes) (b : Bytes) (h : ks.length = 15 ∧ ∀ k ∈ ks, k.length = 16) : (aesBlockK ks b).length = 16 := by
  obtain ⟨h1, h2⟩ := h
  cases ks with
  | nil => cases h1
  | cons k0 r =>
    have h3 : r.length = 14 := by simpa using h1
    have h4 : (r.getD 13 []).length = 16 := by
      rw [List.getD_eq_getElem?_getD, List.getElem?_eq_getElem (by omega), Option.getD_some]
      exact h2 _ (by simp)
    simp only [aesBlockK, xorBytes_length, subShift, List.length_map, List.length_range, h4]
    rfl

/-! ### GCM -/

theorem flatMap_blocks_length (l : List Nat) (f : Nat → Bytes) (h : ∀ i, (f i).length = 16) : (l.flatMap f).length = 16 * l.length := by
  induction l with
  | nil => rfl
  | cons a r ih => simp [ih, h a]; omega

theorem gcmCtr_length (key nonce : Bytes) (first : Nat) (b : Bytes) (h : key.length = 32) : (gcmCtr (aesKeys key) nonce first b).length = b.length := by
  rw [gcmCtr, xorBytes_length, flatMap_blocks_length _ _ (fun i => aesBlockK_length _ _ (aesKeys_lengths key h)), List.length_range]
  omega

theorem gcmTag_length (key nonce aad c : Bytes) (h : key.length = 32) : (gcmTag (aesKeys key) nonce aad c).length = 16 := by
  simp only [gcmTag, xorBytes_length, toBe_length, aesBlockK_length _ _ (aesKeys_lengths key h)]
  rfl

/-- Decryption undoes encryption. -/
theorem gcmCtr_twice (key nonce : Bytes) (first : Nat) (b : Bytes) (h : key.length = 32) :
    gcmCtr (aesKeys key) nonce first (gcmCtr (aesKeys key) nonce first b) = b := by
  show xorBytes (gcmCtr (aesKeys key) nonce first b) ((List.range (((gcmCtr (aesKeys key) nonce first b).length + 15) / 16)).flatMap
    (fun i => aesBlockK (aesKeys key) (nonce ++ toBe 4 (first + i)))) = b
  rw [gcmCtr_length key nonce first b h, gcmCtr]
  refine xorBytes_twice _ _ ?_
  rw [flatMap_blocks_length _ _ (fun i => aesBlockK_length _ _ (aesKeys_lengths key h)), List.length_range]
  omega

/-- What was sealed opens, under the same key, nonce and associated data. -/
theorem gcmOpen_gcmSeal (key nonce aad p : Bytes) (h : key.length = 32) :
    gcmOpen key nonce aad (gcmSeal key nonce aad p).1 (gcmSeal key nonce aad p).2 = some p := by
  simp [gcmOpen, gcmSeal, gcmCtr_twice key nonce 2 p h]

/-- A tag of another length opens nothing. -/
theorem gcmOpen_wrong_length (key nonce aad c tag : Bytes) (h : key.length = 32) (ht : tag.length ≠ 16) : gcmOpen key nonce aad c tag = none := by
  unfold gcmOpen
  have : gcmTag (aesKeys key) nonce aad c ≠ tag := fun e => ht (by rw [← e]; exact gcmTag_length key nonce aad c h)
  simp [this]

end Sys2Proof.Machine
end

