-- ==== Sys2Proof/Laws/State.lean ====
section
/-!
SUPPORT. What each update of the state leaves: one lemma for each field of State and each update, so that a proof
never unfolds a record update.
-/
namespace Sys2Proof.Machine

variable (s : State)

/-! ### onShelf -/

@[simp] theorem State.onShelf_pending (k : Nat) (f : Shelf → Shelf) : (s.onShelf k f).pending = s.pending := rfl
@[simp] theorem State.onShelf_clk (k : Nat) (f : Shelf → Shelf) : (s.onShelf k f).clk = s.clk := rfl
@[simp] theorem State.onShelf_draw (k : Nat) (f : Shelf → Shelf) : (s.onShelf k f).draw = s.draw := rfl
@[simp] theorem State.onShelf_mem (k : Nat) (f : Shelf → Shelf) : (s.onShelf k f).mem = s.mem := rfl
@[simp] theorem State.onShelf_marks (k : Nat) (f : Shelf → Shelf) : (s.onShelf k f).marks = s.marks := rfl
@[simp] theorem State.onShelf_cfg (k : Nat) (f : Shelf → Shelf) : (s.onShelf k f).cfg = s.cfg := rfl
@[simp] theorem State.onShelf_dev (k : Nat) (f : Shelf → Shelf) : (s.onShelf k f).dev = s.dev := rfl
@[simp] theorem State.onShelf_host (k : Nat) (f : Shelf → Shelf) : (s.onShelf k f).host = s.host := rfl
@[simp] theorem State.onShelf_tim (k : Nat) (f : Shelf → Shelf) : (s.onShelf k f).tim = s.tim := rfl
@[simp] theorem State.onShelf_bays (k : Nat) (f : Shelf → Shelf) : (s.onShelf k f).bays = s.bays := rfl
@[simp] theorem State.onShelf_seqs (k : Nat) (f : Shelf → Shelf) : (s.onShelf k f).seqs = s.seqs := rfl
@[simp] theorem State.onShelf_qerrs (k : Nat) (f : Shelf → Shelf) : (s.onShelf k f).qerrs = s.qerrs := rfl
@[simp] theorem State.onShelf_queues (k : Nat) (f : Shelf → Shelf) : (s.onShelf k f).queues = s.queues := rfl
@[simp] theorem State.onShelf_ports (k : Nat) (f : Shelf → Shelf) : (s.onShelf k f).ports = s.ports := rfl
@[simp] theorem State.onShelf_tp (k : Nat) (f : Shelf → Shelf) : (s.onShelf k f).tp = s.tp := rfl
@[simp] theorem State.onShelf_windows (k : Nat) (f : Shelf → Shelf) : (s.onShelf k f).windows = s.windows := rfl
@[simp] theorem State.onShelf_genBase (k : Nat) (f : Shelf → Shelf) : (s.onShelf k f).genBase = s.genBase := rfl
@[simp] theorem State.onShelf_gens (k : Nat) (f : Shelf → Shelf) : (s.onShelf k f).gens = s.gens := rfl
@[simp] theorem State.onShelf_bins (k : Nat) (f : Shelf → Shelf) : (s.onShelf k f).bins = s.bins := rfl
@[simp] theorem State.onShelf_chest (k : Nat) (f : Shelf → Shelf) : (s.onShelf k f).chest = s.chest := rfl
@[simp] theorem State.onShelf_lcs (k : Nat) (f : Shelf → Shelf) : (s.onShelf k f).lcs = s.lcs := rfl
@[simp] theorem State.onShelf_startCount (k : Nat) (f : Shelf → Shelf) : (s.onShelf k f).startCount = s.startCount := rfl
@[simp] theorem State.onShelf_isl (k : Nat) (f : Shelf → Shelf) : (s.onShelf k f).isl = s.isl := rfl
@[simp] theorem State.onShelf_pow (k : Nat) (f : Shelf → Shelf) : (s.onShelf k f).pow = s.pow := rfl
@[simp] theorem State.onShelf_slices (k : Nat) (f : Shelf → Shelf) : (s.onShelf k f).slices = s.slices := rfl
@[simp] theorem State.onShelf_stackTab (k : Nat) (f : Shelf → Shelf) : (s.onShelf k f).stackTab = s.stackTab := rfl
@[simp] theorem State.onShelf_health (k : Nat) (f : Shelf → Shelf) : (s.onShelf k f).health = s.health := rfl
@[simp] theorem State.onShelf_i3c (k : Nat) (f : Shelf → Shelf) : (s.onShelf k f).i3c = s.i3c := rfl
@[simp] theorem State.onShelf_latch (k : Nat) (f : Shelf → Shelf) : (s.onShelf k f).latch = s.latch := rfl

/-! ### onBay -/

@[simp] theorem State.onBay_pending (k : Nat) (f : Bay → Bay) : (s.onBay k f).pending = s.pending := rfl
@[simp] theorem State.onBay_clk (k : Nat) (f : Bay → Bay) : (s.onBay k f).clk = s.clk := rfl
@[simp] theorem State.onBay_draw (k : Nat) (f : Bay → Bay) : (s.onBay k f).draw = s.draw := rfl
@[simp] theorem State.onBay_mem (k : Nat) (f : Bay → Bay) : (s.onBay k f).mem = s.mem := rfl
@[simp] theorem State.onBay_marks (k : Nat) (f : Bay → Bay) : (s.onBay k f).marks = s.marks := rfl
@[simp] theorem State.onBay_cfg (k : Nat) (f : Bay → Bay) : (s.onBay k f).cfg = s.cfg := rfl
@[simp] theorem State.onBay_dev (k : Nat) (f : Bay → Bay) : (s.onBay k f).dev = s.dev := rfl
@[simp] theorem State.onBay_host (k : Nat) (f : Bay → Bay) : (s.onBay k f).host = s.host := rfl
@[simp] theorem State.onBay_tim (k : Nat) (f : Bay → Bay) : (s.onBay k f).tim = s.tim := rfl
@[simp] theorem State.onBay_seqs (k : Nat) (f : Bay → Bay) : (s.onBay k f).seqs = s.seqs := rfl
@[simp] theorem State.onBay_qerrs (k : Nat) (f : Bay → Bay) : (s.onBay k f).qerrs = s.qerrs := rfl
@[simp] theorem State.onBay_queues (k : Nat) (f : Bay → Bay) : (s.onBay k f).queues = s.queues := rfl
@[simp] theorem State.onBay_shelves (k : Nat) (f : Bay → Bay) : (s.onBay k f).shelves = s.shelves := rfl
@[simp] theorem State.onBay_ports (k : Nat) (f : Bay → Bay) : (s.onBay k f).ports = s.ports := rfl
@[simp] theorem State.onBay_tp (k : Nat) (f : Bay → Bay) : (s.onBay k f).tp = s.tp := rfl
@[simp] theorem State.onBay_windows (k : Nat) (f : Bay → Bay) : (s.onBay k f).windows = s.windows := rfl
@[simp] theorem State.onBay_genBase (k : Nat) (f : Bay → Bay) : (s.onBay k f).genBase = s.genBase := rfl
@[simp] theorem State.onBay_gens (k : Nat) (f : Bay → Bay) : (s.onBay k f).gens = s.gens := rfl
@[simp] theorem State.onBay_bins (k : Nat) (f : Bay → Bay) : (s.onBay k f).bins = s.bins := rfl
@[simp] theorem State.onBay_chest (k : Nat) (f : Bay → Bay) : (s.onBay k f).chest = s.chest := rfl
@[simp] theorem State.onBay_lcs (k : Nat) (f : Bay → Bay) : (s.onBay k f).lcs = s.lcs := rfl
@[simp] theorem State.onBay_startCount (k : Nat) (f : Bay → Bay) : (s.onBay k f).startCount = s.startCount := rfl
@[simp] theorem State.onBay_isl (k : Nat) (f : Bay → Bay) : (s.onBay k f).isl = s.isl := rfl
@[simp] theorem State.onBay_pow (k : Nat) (f : Bay → Bay) : (s.onBay k f).pow = s.pow := rfl
@[simp] theorem State.onBay_slices (k : Nat) (f : Bay → Bay) : (s.onBay k f).slices = s.slices := rfl
@[simp] theorem State.onBay_stackTab (k : Nat) (f : Bay → Bay) : (s.onBay k f).stackTab = s.stackTab := rfl
@[simp] theorem State.onBay_health (k : Nat) (f : Bay → Bay) : (s.onBay k f).health = s.health := rfl
@[simp] theorem State.onBay_i3c (k : Nat) (f : Bay → Bay) : (s.onBay k f).i3c = s.i3c := rfl
@[simp] theorem State.onBay_latch (k : Nat) (f : Bay → Bay) : (s.onBay k f).latch = s.latch := rfl

/-! ### onSeq -/

@[simp] theorem State.onSeq_pending (k : Nat) (f : Seq → Seq) : (s.onSeq k f).pending = s.pending := rfl
@[simp] theorem State.onSeq_clk (k : Nat) (f : Seq → Seq) : (s.onSeq k f).clk = s.clk := rfl
@[simp] theorem State.onSeq_draw (k : Nat) (f : Seq → Seq) : (s.onSeq k f).draw = s.draw := rfl
@[simp] theorem State.onSeq_mem (k : Nat) (f : Seq → Seq) : (s.onSeq k f).mem = s.mem := rfl
@[simp] theorem State.onSeq_marks (k : Nat) (f : Seq → Seq) : (s.onSeq k f).marks = s.marks := rfl
@[simp] theorem State.onSeq_cfg (k : Nat) (f : Seq → Seq) : (s.onSeq k f).cfg = s.cfg := rfl
@[simp] theorem State.onSeq_dev (k : Nat) (f : Seq → Seq) : (s.onSeq k f).dev = s.dev := rfl
@[simp] theorem State.onSeq_host (k : Nat) (f : Seq → Seq) : (s.onSeq k f).host = s.host := rfl
@[simp] theorem State.onSeq_tim (k : Nat) (f : Seq → Seq) : (s.onSeq k f).tim = s.tim := rfl
@[simp] theorem State.onSeq_bays (k : Nat) (f : Seq → Seq) : (s.onSeq k f).bays = s.bays := rfl
@[simp] theorem State.onSeq_qerrs (k : Nat) (f : Seq → Seq) : (s.onSeq k f).qerrs = s.qerrs := rfl
@[simp] theorem State.onSeq_queues (k : Nat) (f : Seq → Seq) : (s.onSeq k f).queues = s.queues := rfl
@[simp] theorem State.onSeq_shelves (k : Nat) (f : Seq → Seq) : (s.onSeq k f).shelves = s.shelves := rfl
@[simp] theorem State.onSeq_ports (k : Nat) (f : Seq → Seq) : (s.onSeq k f).ports = s.ports := rfl
@[simp] theorem State.onSeq_tp (k : Nat) (f : Seq → Seq) : (s.onSeq k f).tp = s.tp := rfl
@[simp] theorem State.onSeq_windows (k : Nat) (f : Seq → Seq) : (s.onSeq k f).windows = s.windows := rfl
@[simp] theorem State.onSeq_genBase (k : Nat) (f : Seq → Seq) : (s.onSeq k f).genBase = s.genBase := rfl
@[simp] theorem State.onSeq_gens (k : Nat) (f : Seq → Seq) : (s.onSeq k f).gens = s.gens := rfl
@[simp] theorem State.onSeq_bins (k : Nat) (f : Seq → Seq) : (s.onSeq k f).bins = s.bins := rfl
@[simp] theorem State.onSeq_chest (k : Nat) (f : Seq → Seq) : (s.onSeq k f).chest = s.chest := rfl
@[simp] theorem State.onSeq_lcs (k : Nat) (f : Seq → Seq) : (s.onSeq k f).lcs = s.lcs := rfl
@[simp] theorem State.onSeq_startCount (k : Nat) (f : Seq → Seq) : (s.onSeq k f).startCount = s.startCount := rfl
@[simp] theorem State.onSeq_isl (k : Nat) (f : Seq → Seq) : (s.onSeq k f).isl = s.isl := rfl
@[simp] theorem State.onSeq_pow (k : Nat) (f : Seq → Seq) : (s.onSeq k f).pow = s.pow := rfl
@[simp] theorem State.onSeq_slices (k : Nat) (f : Seq → Seq) : (s.onSeq k f).slices = s.slices := rfl
@[simp] theorem State.onSeq_stackTab (k : Nat) (f : Seq → Seq) : (s.onSeq k f).stackTab = s.stackTab := rfl
@[simp] theorem State.onSeq_health (k : Nat) (f : Seq → Seq) : (s.onSeq k f).health = s.health := rfl
@[simp] theorem State.onSeq_i3c (k : Nat) (f : Seq → Seq) : (s.onSeq k f).i3c = s.i3c := rfl
@[simp] theorem State.onSeq_latch (k : Nat) (f : Seq → Seq) : (s.onSeq k f).latch = s.latch := rfl

/-! ### onQueue -/

@[simp] theorem State.onQueue_pending (k n : Nat) (f : Queue → Queue) : (s.onQueue k n f).pending = s.pending := rfl
@[simp] theorem State.onQueue_clk (k n : Nat) (f : Queue → Queue) : (s.onQueue k n f).clk = s.clk := rfl
@[simp] theorem State.onQueue_draw (k n : Nat) (f : Queue → Queue) : (s.onQueue k n f).draw = s.draw := rfl
@[simp] theorem State.onQueue_mem (k n : Nat) (f : Queue → Queue) : (s.onQueue k n f).mem = s.mem := rfl
@[simp] theorem State.onQueue_marks (k n : Nat) (f : Queue → Queue) : (s.onQueue k n f).marks = s.marks := rfl
@[simp] theorem State.onQueue_cfg (k n : Nat) (f : Queue → Queue) : (s.onQueue k n f).cfg = s.cfg := rfl
@[simp] theorem State.onQueue_dev (k n : Nat) (f : Queue → Queue) : (s.onQueue k n f).dev = s.dev := rfl
@[simp] theorem State.onQueue_host (k n : Nat) (f : Queue → Queue) : (s.onQueue k n f).host = s.host := rfl
@[simp] theorem State.onQueue_tim (k n : Nat) (f : Queue → Queue) : (s.onQueue k n f).tim = s.tim := rfl
@[simp] theorem State.onQueue_bays (k n : Nat) (f : Queue → Queue) : (s.onQueue k n f).bays = s.bays := rfl
@[simp] theorem State.onQueue_seqs (k n : Nat) (f : Queue → Queue) : (s.onQueue k n f).seqs = s.seqs := rfl
@[simp] theorem State.onQueue_qerrs (k n : Nat) (f : Queue → Queue) : (s.onQueue k n f).qerrs = s.qerrs := rfl
@[simp] theorem State.onQueue_shelves (k n : Nat) (f : Queue → Queue) : (s.onQueue k n f).shelves = s.shelves := rfl
@[simp] theorem State.onQueue_ports (k n : Nat) (f : Queue → Queue) : (s.onQueue k n f).ports = s.ports := rfl
@[simp] theorem State.onQueue_tp (k n : Nat) (f : Queue → Queue) : (s.onQueue k n f).tp = s.tp := rfl
@[simp] theorem State.onQueue_windows (k n : Nat) (f : Queue → Queue) : (s.onQueue k n f).windows = s.windows := rfl
@[simp] theorem State.onQueue_genBase (k n : Nat) (f : Queue → Queue) : (s.onQueue k n f).genBase = s.genBase := rfl
@[simp] theorem State.onQueue_gens (k n : Nat) (f : Queue → Queue) : (s.onQueue k n f).gens = s.gens := rfl
@[simp] theorem State.onQueue_bins (k n : Nat) (f : Queue → Queue) : (s.onQueue k n f).bins = s.bins := rfl
@[simp] theorem State.onQueue_chest (k n : Nat) (f : Queue → Queue) : (s.onQueue k n f).chest = s.chest := rfl
@[simp] theorem State.onQueue_lcs (k n : Nat) (f : Queue → Queue) : (s.onQueue k n f).lcs = s.lcs := rfl
@[simp] theorem State.onQueue_startCount (k n : Nat) (f : Queue → Queue) : (s.onQueue k n f).startCount = s.startCount := rfl
@[simp] theorem State.onQueue_isl (k n : Nat) (f : Queue → Queue) : (s.onQueue k n f).isl = s.isl := rfl
@[simp] theorem State.onQueue_pow (k n : Nat) (f : Queue → Queue) : (s.onQueue k n f).pow = s.pow := rfl
@[simp] theorem State.onQueue_slices (k n : Nat) (f : Queue → Queue) : (s.onQueue k n f).slices = s.slices := rfl
@[simp] theorem State.onQueue_stackTab (k n : Nat) (f : Queue → Queue) : (s.onQueue k n f).stackTab = s.stackTab := rfl
@[simp] theorem State.onQueue_health (k n : Nat) (f : Queue → Queue) : (s.onQueue k n f).health = s.health := rfl
@[simp] theorem State.onQueue_i3c (k n : Nat) (f : Queue → Queue) : (s.onQueue k n f).i3c = s.i3c := rfl
@[simp] theorem State.onQueue_latch (k n : Nat) (f : Queue → Queue) : (s.onQueue k n f).latch = s.latch := rfl

/-! ### onQErr -/

@[simp] theorem State.onQErr_pending (k : Nat) (f : QErr → QErr) : (s.onQErr k f).pending = s.pending := rfl
@[simp] theorem State.onQErr_clk (k : Nat) (f : QErr → QErr) : (s.onQErr k f).clk = s.clk := rfl
@[simp] theorem State.onQErr_draw (k : Nat) (f : QErr → QErr) : (s.onQErr k f).draw = s.draw := rfl
@[simp] theorem State.onQErr_mem (k : Nat) (f : QErr → QErr) : (s.onQErr k f).mem = s.mem := rfl
@[simp] theorem State.onQErr_marks (k : Nat) (f : QErr → QErr) : (s.onQErr k f).marks = s.marks := rfl
@[simp] theorem State.onQErr_cfg (k : Nat) (f : QErr → QErr) : (s.onQErr k f).cfg = s.cfg := rfl
@[simp] theorem State.onQErr_dev (k : Nat) (f : QErr → QErr) : (s.onQErr k f).dev = s.dev := rfl
@[simp] theorem State.onQErr_host (k : Nat) (f : QErr → QErr) : (s.onQErr k f).host = s.host := rfl
@[simp] theorem State.onQErr_tim (k : Nat) (f : QErr → QErr) : (s.onQErr k f).tim = s.tim := rfl
@[simp] theorem State.onQErr_bays (k : Nat) (f : QErr → QErr) : (s.onQErr k f).bays = s.bays := rfl
@[simp] theorem State.onQErr_seqs (k : Nat) (f : QErr → QErr) : (s.onQErr k f).seqs = s.seqs := rfl
@[simp] theorem State.onQErr_queues (k : Nat) (f : QErr → QErr) : (s.onQErr k f).queues = s.queues := rfl
@[simp] theorem State.onQErr_shelves (k : Nat) (f : QErr → QErr) : (s.onQErr k f).shelves = s.shelves := rfl
@[simp] theorem State.onQErr_ports (k : Nat) (f : QErr → QErr) : (s.onQErr k f).ports = s.ports := rfl
@[simp] theorem State.onQErr_tp (k : Nat) (f : QErr → QErr) : (s.onQErr k f).tp = s.tp := rfl
@[simp] theorem State.onQErr_windows (k : Nat) (f : QErr → QErr) : (s.onQErr k f).windows = s.windows := rfl
@[simp] theorem State.onQErr_genBase (k : Nat) (f : QErr → QErr) : (s.onQErr k f).genBase = s.genBase := rfl
@[simp] theorem State.onQErr_gens (k : Nat) (f : QErr → QErr) : (s.onQErr k f).gens = s.gens := rfl
@[simp] theorem State.onQErr_bins (k : Nat) (f : QErr → QErr) : (s.onQErr k f).bins = s.bins := rfl
@[simp] theorem State.onQErr_chest (k : Nat) (f : QErr → QErr) : (s.onQErr k f).chest = s.chest := rfl
@[simp] theorem State.onQErr_lcs (k : Nat) (f : QErr → QErr) : (s.onQErr k f).lcs = s.lcs := rfl
@[simp] theorem State.onQErr_startCount (k : Nat) (f : QErr → QErr) : (s.onQErr k f).startCount = s.startCount := rfl
@[simp] theorem State.onQErr_isl (k : Nat) (f : QErr → QErr) : (s.onQErr k f).isl = s.isl := rfl
@[simp] theorem State.onQErr_pow (k : Nat) (f : QErr → QErr) : (s.onQErr k f).pow = s.pow := rfl
@[simp] theorem State.onQErr_slices (k : Nat) (f : QErr → QErr) : (s.onQErr k f).slices = s.slices := rfl
@[simp] theorem State.onQErr_stackTab (k : Nat) (f : QErr → QErr) : (s.onQErr k f).stackTab = s.stackTab := rfl
@[simp] theorem State.onQErr_health (k : Nat) (f : QErr → QErr) : (s.onQErr k f).health = s.health := rfl
@[simp] theorem State.onQErr_i3c (k : Nat) (f : QErr → QErr) : (s.onQErr k f).i3c = s.i3c := rfl
@[simp] theorem State.onQErr_latch (k : Nat) (f : QErr → QErr) : (s.onQErr k f).latch = s.latch := rfl

/-! ### onWin -/

@[simp] theorem State.onWin_pending (k : Nat) (f : Window → Window) : (s.onWin k f).pending = s.pending := rfl
@[simp] theorem State.onWin_clk (k : Nat) (f : Window → Window) : (s.onWin k f).clk = s.clk := rfl
@[simp] theorem State.onWin_draw (k : Nat) (f : Window → Window) : (s.onWin k f).draw = s.draw := rfl
@[simp] theorem State.onWin_mem (k : Nat) (f : Window → Window) : (s.onWin k f).mem = s.mem := rfl
@[simp] theorem State.onWin_marks (k : Nat) (f : Window → Window) : (s.onWin k f).marks = s.marks := rfl
@[simp] theorem State.onWin_cfg (k : Nat) (f : Window → Window) : (s.onWin k f).cfg = s.cfg := rfl
@[simp] theorem State.onWin_dev (k : Nat) (f : Window → Window) : (s.onWin k f).dev = s.dev := rfl
@[simp] theorem State.onWin_host (k : Nat) (f : Window → Window) : (s.onWin k f).host = s.host := rfl
@[simp] theorem State.onWin_tim (k : Nat) (f : Window → Window) : (s.onWin k f).tim = s.tim := rfl
@[simp] theorem State.onWin_bays (k : Nat) (f : Window → Window) : (s.onWin k f).bays = s.bays := rfl
@[simp] theorem State.onWin_seqs (k : Nat) (f : Window → Window) : (s.onWin k f).seqs = s.seqs := rfl
@[simp] theorem State.onWin_qerrs (k : Nat) (f : Window → Window) : (s.onWin k f).qerrs = s.qerrs := rfl
@[simp] theorem State.onWin_queues (k : Nat) (f : Window → Window) : (s.onWin k f).queues = s.queues := rfl
@[simp] theorem State.onWin_shelves (k : Nat) (f : Window → Window) : (s.onWin k f).shelves = s.shelves := rfl
@[simp] theorem State.onWin_ports (k : Nat) (f : Window → Window) : (s.onWin k f).ports = s.ports := rfl
@[simp] theorem State.onWin_tp (k : Nat) (f : Window → Window) : (s.onWin k f).tp = s.tp := rfl
@[simp] theorem State.onWin_genBase (k : Nat) (f : Window → Window) : (s.onWin k f).genBase = s.genBase := rfl
@[simp] theorem State.onWin_gens (k : Nat) (f : Window → Window) : (s.onWin k f).gens = s.gens := rfl
@[simp] theorem State.onWin_bins (k : Nat) (f : Window → Window) : (s.onWin k f).bins = s.bins := rfl
@[simp] theorem State.onWin_chest (k : Nat) (f : Window → Window) : (s.onWin k f).chest = s.chest := rfl
@[simp] theorem State.onWin_lcs (k : Nat) (f : Window → Window) : (s.onWin k f).lcs = s.lcs := rfl
@[simp] theorem State.onWin_startCount (k : Nat) (f : Window → Window) : (s.onWin k f).startCount = s.startCount := rfl
@[simp] theorem State.onWin_isl (k : Nat) (f : Window → Window) : (s.onWin k f).isl = s.isl := rfl
@[simp] theorem State.onWin_pow (k : Nat) (f : Window → Window) : (s.onWin k f).pow = s.pow := rfl
@[simp] theorem State.onWin_slices (k : Nat) (f : Window → Window) : (s.onWin k f).slices = s.slices := rfl
@[simp] theorem State.onWin_stackTab (k : Nat) (f : Window → Window) : (s.onWin k f).stackTab = s.stackTab := rfl
@[simp] theorem State.onWin_health (k : Nat) (f : Window → Window) : (s.onWin k f).health = s.health := rfl
@[simp] theorem State.onWin_i3c (k : Nat) (f : Window → Window) : (s.onWin k f).i3c = s.i3c := rfl
@[simp] theorem State.onWin_latch (k : Nat) (f : Window → Window) : (s.onWin k f).latch = s.latch := rfl

/-! ### onBin -/

@[simp] theorem State.onBin_pending (k : Nat) (f : Bin → Bin) : (s.onBin k f).pending = s.pending := rfl
@[simp] theorem State.onBin_clk (k : Nat) (f : Bin → Bin) : (s.onBin k f).clk = s.clk := rfl
@[simp] theorem State.onBin_draw (k : Nat) (f : Bin → Bin) : (s.onBin k f).draw = s.draw := rfl
@[simp] theorem State.onBin_mem (k : Nat) (f : Bin → Bin) : (s.onBin k f).mem = s.mem := rfl
@[simp] theorem State.onBin_marks (k : Nat) (f : Bin → Bin) : (s.onBin k f).marks = s.marks := rfl
@[simp] theorem State.onBin_cfg (k : Nat) (f : Bin → Bin) : (s.onBin k f).cfg = s.cfg := rfl
@[simp] theorem State.onBin_dev (k : Nat) (f : Bin → Bin) : (s.onBin k f).dev = s.dev := rfl
@[simp] theorem State.onBin_host (k : Nat) (f : Bin → Bin) : (s.onBin k f).host = s.host := rfl
@[simp] theorem State.onBin_tim (k : Nat) (f : Bin → Bin) : (s.onBin k f).tim = s.tim := rfl
@[simp] theorem State.onBin_bays (k : Nat) (f : Bin → Bin) : (s.onBin k f).bays = s.bays := rfl
@[simp] theorem State.onBin_seqs (k : Nat) (f : Bin → Bin) : (s.onBin k f).seqs = s.seqs := rfl
@[simp] theorem State.onBin_qerrs (k : Nat) (f : Bin → Bin) : (s.onBin k f).qerrs = s.qerrs := rfl
@[simp] theorem State.onBin_queues (k : Nat) (f : Bin → Bin) : (s.onBin k f).queues = s.queues := rfl
@[simp] theorem State.onBin_shelves (k : Nat) (f : Bin → Bin) : (s.onBin k f).shelves = s.shelves := rfl
@[simp] theorem State.onBin_ports (k : Nat) (f : Bin → Bin) : (s.onBin k f).ports = s.ports := rfl
@[simp] theorem State.onBin_tp (k : Nat) (f : Bin → Bin) : (s.onBin k f).tp = s.tp := rfl
@[simp] theorem State.onBin_windows (k : Nat) (f : Bin → Bin) : (s.onBin k f).windows = s.windows := rfl
@[simp] theorem State.onBin_genBase (k : Nat) (f : Bin → Bin) : (s.onBin k f).genBase = s.genBase := rfl
@[simp] theorem State.onBin_gens (k : Nat) (f : Bin → Bin) : (s.onBin k f).gens = s.gens := rfl
@[simp] theorem State.onBin_chest (k : Nat) (f : Bin → Bin) : (s.onBin k f).chest = s.chest := rfl
@[simp] theorem State.onBin_lcs (k : Nat) (f : Bin → Bin) : (s.onBin k f).lcs = s.lcs := rfl
@[simp] theorem State.onBin_startCount (k : Nat) (f : Bin → Bin) : (s.onBin k f).startCount = s.startCount := rfl
@[simp] theorem State.onBin_isl (k : Nat) (f : Bin → Bin) : (s.onBin k f).isl = s.isl := rfl
@[simp] theorem State.onBin_pow (k : Nat) (f : Bin → Bin) : (s.onBin k f).pow = s.pow := rfl
@[simp] theorem State.onBin_slices (k : Nat) (f : Bin → Bin) : (s.onBin k f).slices = s.slices := rfl
@[simp] theorem State.onBin_stackTab (k : Nat) (f : Bin → Bin) : (s.onBin k f).stackTab = s.stackTab := rfl
@[simp] theorem State.onBin_health (k : Nat) (f : Bin → Bin) : (s.onBin k f).health = s.health := rfl
@[simp] theorem State.onBin_i3c (k : Nat) (f : Bin → Bin) : (s.onBin k f).i3c = s.i3c := rfl
@[simp] theorem State.onBin_latch (k : Nat) (f : Bin → Bin) : (s.onBin k f).latch = s.latch := rfl

/-! ### onSlot -/

@[simp] theorem State.onSlot_pending (k : Nat) (f : Slot → Slot) : (s.onSlot k f).pending = s.pending := rfl
@[simp] theorem State.onSlot_clk (k : Nat) (f : Slot → Slot) : (s.onSlot k f).clk = s.clk := rfl
@[simp] theorem State.onSlot_draw (k : Nat) (f : Slot → Slot) : (s.onSlot k f).draw = s.draw := rfl
@[simp] theorem State.onSlot_mem (k : Nat) (f : Slot → Slot) : (s.onSlot k f).mem = s.mem := rfl
@[simp] theorem State.onSlot_marks (k : Nat) (f : Slot → Slot) : (s.onSlot k f).marks = s.marks := rfl
@[simp] theorem State.onSlot_cfg (k : Nat) (f : Slot → Slot) : (s.onSlot k f).cfg = s.cfg := rfl
@[simp] theorem State.onSlot_dev (k : Nat) (f : Slot → Slot) : (s.onSlot k f).dev = s.dev := rfl
@[simp] theorem State.onSlot_host (k : Nat) (f : Slot → Slot) : (s.onSlot k f).host = s.host := rfl
@[simp] theorem State.onSlot_tim (k : Nat) (f : Slot → Slot) : (s.onSlot k f).tim = s.tim := rfl
@[simp] theorem State.onSlot_bays (k : Nat) (f : Slot → Slot) : (s.onSlot k f).bays = s.bays := rfl
@[simp] theorem State.onSlot_seqs (k : Nat) (f : Slot → Slot) : (s.onSlot k f).seqs = s.seqs := rfl
@[simp] theorem State.onSlot_qerrs (k : Nat) (f : Slot → Slot) : (s.onSlot k f).qerrs = s.qerrs := rfl
@[simp] theorem State.onSlot_queues (k : Nat) (f : Slot → Slot) : (s.onSlot k f).queues = s.queues := rfl
@[simp] theorem State.onSlot_shelves (k : Nat) (f : Slot → Slot) : (s.onSlot k f).shelves = s.shelves := rfl
@[simp] theorem State.onSlot_ports (k : Nat) (f : Slot → Slot) : (s.onSlot k f).ports = s.ports := rfl
@[simp] theorem State.onSlot_tp (k : Nat) (f : Slot → Slot) : (s.onSlot k f).tp = s.tp := rfl
@[simp] theorem State.onSlot_windows (k : Nat) (f : Slot → Slot) : (s.onSlot k f).windows = s.windows := rfl
@[simp] theorem State.onSlot_genBase (k : Nat) (f : Slot → Slot) : (s.onSlot k f).genBase = s.genBase := rfl
@[simp] theorem State.onSlot_gens (k : Nat) (f : Slot → Slot) : (s.onSlot k f).gens = s.gens := rfl
@[simp] theorem State.onSlot_bins (k : Nat) (f : Slot → Slot) : (s.onSlot k f).bins = s.bins := rfl
@[simp] theorem State.onSlot_lcs (k : Nat) (f : Slot → Slot) : (s.onSlot k f).lcs = s.lcs := rfl
@[simp] theorem State.onSlot_startCount (k : Nat) (f : Slot → Slot) : (s.onSlot k f).startCount = s.startCount := rfl
@[simp] theorem State.onSlot_isl (k : Nat) (f : Slot → Slot) : (s.onSlot k f).isl = s.isl := rfl
@[simp] theorem State.onSlot_pow (k : Nat) (f : Slot → Slot) : (s.onSlot k f).pow = s.pow := rfl
@[simp] theorem State.onSlot_slices (k : Nat) (f : Slot → Slot) : (s.onSlot k f).slices = s.slices := rfl
@[simp] theorem State.onSlot_stackTab (k : Nat) (f : Slot → Slot) : (s.onSlot k f).stackTab = s.stackTab := rfl
@[simp] theorem State.onSlot_health (k : Nat) (f : Slot → Slot) : (s.onSlot k f).health = s.health := rfl
@[simp] theorem State.onSlot_i3c (k : Nat) (f : Slot → Slot) : (s.onSlot k f).i3c = s.i3c := rfl
@[simp] theorem State.onSlot_latch (k : Nat) (f : Slot → Slot) : (s.onSlot k f).latch = s.latch := rfl

/-! ### onStack -/

@[simp] theorem State.onStack_pending (k : Nat) (f : Stack → Stack) : (s.onStack k f).pending = s.pending := rfl
@[simp] theorem State.onStack_clk (k : Nat) (f : Stack → Stack) : (s.onStack k f).clk = s.clk := rfl
@[simp] theorem State.onStack_draw (k : Nat) (f : Stack → Stack) : (s.onStack k f).draw = s.draw := rfl
@[simp] theorem State.onStack_mem (k : Nat) (f : Stack → Stack) : (s.onStack k f).mem = s.mem := rfl
@[simp] theorem State.onStack_marks (k : Nat) (f : Stack → Stack) : (s.onStack k f).marks = s.marks := rfl
@[simp] theorem State.onStack_cfg (k : Nat) (f : Stack → Stack) : (s.onStack k f).cfg = s.cfg := rfl
@[simp] theorem State.onStack_dev (k : Nat) (f : Stack → Stack) : (s.onStack k f).dev = s.dev := rfl
@[simp] theorem State.onStack_host (k : Nat) (f : Stack → Stack) : (s.onStack k f).host = s.host := rfl
@[simp] theorem State.onStack_tim (k : Nat) (f : Stack → Stack) : (s.onStack k f).tim = s.tim := rfl
@[simp] theorem State.onStack_bays (k : Nat) (f : Stack → Stack) : (s.onStack k f).bays = s.bays := rfl
@[simp] theorem State.onStack_seqs (k : Nat) (f : Stack → Stack) : (s.onStack k f).seqs = s.seqs := rfl
@[simp] theorem State.onStack_qerrs (k : Nat) (f : Stack → Stack) : (s.onStack k f).qerrs = s.qerrs := rfl
@[simp] theorem State.onStack_queues (k : Nat) (f : Stack → Stack) : (s.onStack k f).queues = s.queues := rfl
@[simp] theorem State.onStack_shelves (k : Nat) (f : Stack → Stack) : (s.onStack k f).shelves = s.shelves := rfl
@[simp] theorem State.onStack_ports (k : Nat) (f : Stack → Stack) : (s.onStack k f).ports = s.ports := rfl
@[simp] theorem State.onStack_tp (k : Nat) (f : Stack → Stack) : (s.onStack k f).tp = s.tp := rfl
@[simp] theorem State.onStack_windows (k : Nat) (f : Stack → Stack) : (s.onStack k f).windows = s.windows := rfl
@[simp] theorem State.onStack_genBase (k : Nat) (f : Stack → Stack) : (s.onStack k f).genBase = s.genBase := rfl
@[simp] theorem State.onStack_gens (k : Nat) (f : Stack → Stack) : (s.onStack k f).gens = s.gens := rfl
@[simp] theorem State.onStack_bins (k : Nat) (f : Stack → Stack) : (s.onStack k f).bins = s.bins := rfl
@[simp] theorem State.onStack_chest (k : Nat) (f : Stack → Stack) : (s.onStack k f).chest = s.chest := rfl
@[simp] theorem State.onStack_lcs (k : Nat) (f : Stack → Stack) : (s.onStack k f).lcs = s.lcs := rfl
@[simp] theorem State.onStack_startCount (k : Nat) (f : Stack → Stack) : (s.onStack k f).startCount = s.startCount := rfl
@[simp] theorem State.onStack_isl (k : Nat) (f : Stack → Stack) : (s.onStack k f).isl = s.isl := rfl
@[simp] theorem State.onStack_pow (k : Nat) (f : Stack → Stack) : (s.onStack k f).pow = s.pow := rfl
@[simp] theorem State.onStack_slices (k : Nat) (f : Stack → Stack) : (s.onStack k f).slices = s.slices := rfl
@[simp] theorem State.onStack_health (k : Nat) (f : Stack → Stack) : (s.onStack k f).health = s.health := rfl
@[simp] theorem State.onStack_i3c (k : Nat) (f : Stack → Stack) : (s.onStack k f).i3c = s.i3c := rfl
@[simp] theorem State.onStack_latch (k : Nat) (f : Stack → Stack) : (s.onStack k f).latch = s.latch := rfl

/-! ### onSlice -/

@[simp] theorem State.onSlice_pending (k : Nat) (f : Slice → Slice) : (s.onSlice k f).pending = s.pending := rfl
@[simp] theorem State.onSlice_clk (k : Nat) (f : Slice → Slice) : (s.onSlice k f).clk = s.clk := rfl
@[simp] theorem State.onSlice_draw (k : Nat) (f : Slice → Slice) : (s.onSlice k f).draw = s.draw := rfl
@[simp] theorem State.onSlice_mem (k : Nat) (f : Slice → Slice) : (s.onSlice k f).mem = s.mem := rfl
@[simp] theorem State.onSlice_marks (k : Nat) (f : Slice → Slice) : (s.onSlice k f).marks = s.marks := rfl
@[simp] theorem State.onSlice_cfg (k : Nat) (f : Slice → Slice) : (s.onSlice k f).cfg = s.cfg := rfl
@[simp] theorem State.onSlice_dev (k : Nat) (f : Slice → Slice) : (s.onSlice k f).dev = s.dev := rfl
@[simp] theorem State.onSlice_host (k : Nat) (f : Slice → Slice) : (s.onSlice k f).host = s.host := rfl
@[simp] theorem State.onSlice_tim (k : Nat) (f : Slice → Slice) : (s.onSlice k f).tim = s.tim := rfl
@[simp] theorem State.onSlice_bays (k : Nat) (f : Slice → Slice) : (s.onSlice k f).bays = s.bays := rfl
@[simp] theorem State.onSlice_seqs (k : Nat) (f : Slice → Slice) : (s.onSlice k f).seqs = s.seqs := rfl
@[simp] theorem State.onSlice_qerrs (k : Nat) (f : Slice → Slice) : (s.onSlice k f).qerrs = s.qerrs := rfl
@[simp] theorem State.onSlice_queues (k : Nat) (f : Slice → Slice) : (s.onSlice k f).queues = s.queues := rfl
@[simp] theorem State.onSlice_shelves (k : Nat) (f : Slice → Slice) : (s.onSlice k f).shelves = s.shelves := rfl
@[simp] theorem State.onSlice_ports (k : Nat) (f : Slice → Slice) : (s.onSlice k f).ports = s.ports := rfl
@[simp] theorem State.onSlice_tp (k : Nat) (f : Slice → Slice) : (s.onSlice k f).tp = s.tp := rfl
@[simp] theorem State.onSlice_windows (k : Nat) (f : Slice → Slice) : (s.onSlice k f).windows = s.windows := rfl
@[simp] theorem State.onSlice_genBase (k : Nat) (f : Slice → Slice) : (s.onSlice k f).genBase = s.genBase := rfl
@[simp] theorem State.onSlice_gens (k : Nat) (f : Slice → Slice) : (s.onSlice k f).gens = s.gens := rfl
@[simp] theorem State.onSlice_bins (k : Nat) (f : Slice → Slice) : (s.onSlice k f).bins = s.bins := rfl
@[simp] theorem State.onSlice_chest (k : Nat) (f : Slice → Slice) : (s.onSlice k f).chest = s.chest := rfl
@[simp] theorem State.onSlice_lcs (k : Nat) (f : Slice → Slice) : (s.onSlice k f).lcs = s.lcs := rfl
@[simp] theorem State.onSlice_startCount (k : Nat) (f : Slice → Slice) : (s.onSlice k f).startCount = s.startCount := rfl
@[simp] theorem State.onSlice_isl (k : Nat) (f : Slice → Slice) : (s.onSlice k f).isl = s.isl := rfl
@[simp] theorem State.onSlice_pow (k : Nat) (f : Slice → Slice) : (s.onSlice k f).pow = s.pow := rfl
@[simp] theorem State.onSlice_stackTab (k : Nat) (f : Slice → Slice) : (s.onSlice k f).stackTab = s.stackTab := rfl
@[simp] theorem State.onSlice_health (k : Nat) (f : Slice → Slice) : (s.onSlice k f).health = s.health := rfl
@[simp] theorem State.onSlice_i3c (k : Nat) (f : Slice → Slice) : (s.onSlice k f).i3c = s.i3c := rfl
@[simp] theorem State.onSlice_latch (k : Nat) (f : Slice → Slice) : (s.onSlice k f).latch = s.latch := rfl

/-! ### onHost -/

@[simp] theorem State.onHost_pending (f : HostPort → HostPort) : (s.onHost f).pending = s.pending := rfl
@[simp] theorem State.onHost_clk (f : HostPort → HostPort) : (s.onHost f).clk = s.clk := rfl
@[simp] theorem State.onHost_draw (f : HostPort → HostPort) : (s.onHost f).draw = s.draw := rfl
@[simp] theorem State.onHost_mem (f : HostPort → HostPort) : (s.onHost f).mem = s.mem := rfl
@[simp] theorem State.onHost_marks (f : HostPort → HostPort) : (s.onHost f).marks = s.marks := rfl
@[simp] theorem State.onHost_cfg (f : HostPort → HostPort) : (s.onHost f).cfg = s.cfg := rfl
@[simp] theorem State.onHost_dev (f : HostPort → HostPort) : (s.onHost f).dev = s.dev := rfl
@[simp] theorem State.onHost_tim (f : HostPort → HostPort) : (s.onHost f).tim = s.tim := rfl
@[simp] theorem State.onHost_bays (f : HostPort → HostPort) : (s.onHost f).bays = s.bays := rfl
@[simp] theorem State.onHost_seqs (f : HostPort → HostPort) : (s.onHost f).seqs = s.seqs := rfl
@[simp] theorem State.onHost_qerrs (f : HostPort → HostPort) : (s.onHost f).qerrs = s.qerrs := rfl
@[simp] theorem State.onHost_queues (f : HostPort → HostPort) : (s.onHost f).queues = s.queues := rfl
@[simp] theorem State.onHost_shelves (f : HostPort → HostPort) : (s.onHost f).shelves = s.shelves := rfl
@[simp] theorem State.onHost_ports (f : HostPort → HostPort) : (s.onHost f).ports = s.ports := rfl
@[simp] theorem State.onHost_tp (f : HostPort → HostPort) : (s.onHost f).tp = s.tp := rfl
@[simp] theorem State.onHost_windows (f : HostPort → HostPort) : (s.onHost f).windows = s.windows := rfl
@[simp] theorem State.onHost_genBase (f : HostPort → HostPort) : (s.onHost f).genBase = s.genBase := rfl
@[simp] theorem State.onHost_gens (f : HostPort → HostPort) : (s.onHost f).gens = s.gens := rfl
@[simp] theorem State.onHost_bins (f : HostPort → HostPort) : (s.onHost f).bins = s.bins := rfl
@[simp] theorem State.onHost_chest (f : HostPort → HostPort) : (s.onHost f).chest = s.chest := rfl
@[simp] theorem State.onHost_lcs (f : HostPort → HostPort) : (s.onHost f).lcs = s.lcs := rfl
@[simp] theorem State.onHost_startCount (f : HostPort → HostPort) : (s.onHost f).startCount = s.startCount := rfl
@[simp] theorem State.onHost_isl (f : HostPort → HostPort) : (s.onHost f).isl = s.isl := rfl
@[simp] theorem State.onHost_pow (f : HostPort → HostPort) : (s.onHost f).pow = s.pow := rfl
@[simp] theorem State.onHost_slices (f : HostPort → HostPort) : (s.onHost f).slices = s.slices := rfl
@[simp] theorem State.onHost_stackTab (f : HostPort → HostPort) : (s.onHost f).stackTab = s.stackTab := rfl
@[simp] theorem State.onHost_health (f : HostPort → HostPort) : (s.onHost f).health = s.health := rfl
@[simp] theorem State.onHost_i3c (f : HostPort → HostPort) : (s.onHost f).i3c = s.i3c := rfl
@[simp] theorem State.onHost_latch (f : HostPort → HostPort) : (s.onHost f).latch = s.latch := rfl

/-! ### onFn -/

@[simp] theorem State.onFn_pending (k : Nat) (f : Fn → Fn) : (s.onFn k f).pending = s.pending := rfl
@[simp] theorem State.onFn_clk (k : Nat) (f : Fn → Fn) : (s.onFn k f).clk = s.clk := rfl
@[simp] theorem State.onFn_draw (k : Nat) (f : Fn → Fn) : (s.onFn k f).draw = s.draw := rfl
@[simp] theorem State.onFn_mem (k : Nat) (f : Fn → Fn) : (s.onFn k f).mem = s.mem := rfl
@[simp] theorem State.onFn_marks (k : Nat) (f : Fn → Fn) : (s.onFn k f).marks = s.marks := rfl
@[simp] theorem State.onFn_cfg (k : Nat) (f : Fn → Fn) : (s.onFn k f).cfg = s.cfg := rfl
@[simp] theorem State.onFn_dev (k : Nat) (f : Fn → Fn) : (s.onFn k f).dev = s.dev := rfl
@[simp] theorem State.onFn_tim (k : Nat) (f : Fn → Fn) : (s.onFn k f).tim = s.tim := rfl
@[simp] theorem State.onFn_bays (k : Nat) (f : Fn → Fn) : (s.onFn k f).bays = s.bays := rfl
@[simp] theorem State.onFn_seqs (k : Nat) (f : Fn → Fn) : (s.onFn k f).seqs = s.seqs := rfl
@[simp] theorem State.onFn_qerrs (k : Nat) (f : Fn → Fn) : (s.onFn k f).qerrs = s.qerrs := rfl
@[simp] theorem State.onFn_queues (k : Nat) (f : Fn → Fn) : (s.onFn k f).queues = s.queues := rfl
@[simp] theorem State.onFn_shelves (k : Nat) (f : Fn → Fn) : (s.onFn k f).shelves = s.shelves := rfl
@[simp] theorem State.onFn_ports (k : Nat) (f : Fn → Fn) : (s.onFn k f).ports = s.ports := rfl
@[simp] theorem State.onFn_tp (k : Nat) (f : Fn → Fn) : (s.onFn k f).tp = s.tp := rfl
@[simp] theorem State.onFn_windows (k : Nat) (f : Fn → Fn) : (s.onFn k f).windows = s.windows := rfl
@[simp] theorem State.onFn_genBase (k : Nat) (f : Fn → Fn) : (s.onFn k f).genBase = s.genBase := rfl
@[simp] theorem State.onFn_gens (k : Nat) (f : Fn → Fn) : (s.onFn k f).gens = s.gens := rfl
@[simp] theorem State.onFn_bins (k : Nat) (f : Fn → Fn) : (s.onFn k f).bins = s.bins := rfl
@[simp] theorem State.onFn_chest (k : Nat) (f : Fn → Fn) : (s.onFn k f).chest = s.chest := rfl
@[simp] theorem State.onFn_lcs (k : Nat) (f : Fn → Fn) : (s.onFn k f).lcs = s.lcs := rfl
@[simp] theorem State.onFn_startCount (k : Nat) (f : Fn → Fn) : (s.onFn k f).startCount = s.startCount := rfl
@[simp] theorem State.onFn_isl (k : Nat) (f : Fn → Fn) : (s.onFn k f).isl = s.isl := rfl
@[simp] theorem State.onFn_pow (k : Nat) (f : Fn → Fn) : (s.onFn k f).pow = s.pow := rfl
@[simp] theorem State.onFn_slices (k : Nat) (f : Fn → Fn) : (s.onFn k f).slices = s.slices := rfl
@[simp] theorem State.onFn_stackTab (k : Nat) (f : Fn → Fn) : (s.onFn k f).stackTab = s.stackTab := rfl
@[simp] theorem State.onFn_health (k : Nat) (f : Fn → Fn) : (s.onFn k f).health = s.health := rfl
@[simp] theorem State.onFn_i3c (k : Nat) (f : Fn → Fn) : (s.onFn k f).i3c = s.i3c := rfl
@[simp] theorem State.onFn_latch (k : Nat) (f : Fn → Fn) : (s.onFn k f).latch = s.latch := rfl

/-! ### onTdi -/

@[simp] theorem State.onTdi_pending (k : Nat) (f : Tdi → Tdi) : (s.onTdi k f).pending = s.pending := rfl
@[simp] theorem State.onTdi_clk (k : Nat) (f : Tdi → Tdi) : (s.onTdi k f).clk = s.clk := rfl
@[simp] theorem State.onTdi_draw (k : Nat) (f : Tdi → Tdi) : (s.onTdi k f).draw = s.draw := rfl
@[simp] theorem State.onTdi_mem (k : Nat) (f : Tdi → Tdi) : (s.onTdi k f).mem = s.mem := rfl
@[simp] theorem State.onTdi_marks (k : Nat) (f : Tdi → Tdi) : (s.onTdi k f).marks = s.marks := rfl
@[simp] theorem State.onTdi_cfg (k : Nat) (f : Tdi → Tdi) : (s.onTdi k f).cfg = s.cfg := rfl
@[simp] theorem State.onTdi_dev (k : Nat) (f : Tdi → Tdi) : (s.onTdi k f).dev = s.dev := rfl
@[simp] theorem State.onTdi_tim (k : Nat) (f : Tdi → Tdi) : (s.onTdi k f).tim = s.tim := rfl
@[simp] theorem State.onTdi_bays (k : Nat) (f : Tdi → Tdi) : (s.onTdi k f).bays = s.bays := rfl
@[simp] theorem State.onTdi_seqs (k : Nat) (f : Tdi → Tdi) : (s.onTdi k f).seqs = s.seqs := rfl
@[simp] theorem State.onTdi_qerrs (k : Nat) (f : Tdi → Tdi) : (s.onTdi k f).qerrs = s.qerrs := rfl
@[simp] theorem State.onTdi_queues (k : Nat) (f : Tdi → Tdi) : (s.onTdi k f).queues = s.queues := rfl
@[simp] theorem State.onTdi_shelves (k : Nat) (f : Tdi → Tdi) : (s.onTdi k f).shelves = s.shelves := rfl
@[simp] theorem State.onTdi_ports (k : Nat) (f : Tdi → Tdi) : (s.onTdi k f).ports = s.ports := rfl
@[simp] theorem State.onTdi_tp (k : Nat) (f : Tdi → Tdi) : (s.onTdi k f).tp = s.tp := rfl
@[simp] theorem State.onTdi_windows (k : Nat) (f : Tdi → Tdi) : (s.onTdi k f).windows = s.windows := rfl
@[simp] theorem State.onTdi_genBase (k : Nat) (f : Tdi → Tdi) : (s.onTdi k f).genBase = s.genBase := rfl
@[simp] theorem State.onTdi_gens (k : Nat) (f : Tdi → Tdi) : (s.onTdi k f).gens = s.gens := rfl
@[simp] theorem State.onTdi_bins (k : Nat) (f : Tdi → Tdi) : (s.onTdi k f).bins = s.bins := rfl
@[simp] theorem State.onTdi_chest (k : Nat) (f : Tdi → Tdi) : (s.onTdi k f).chest = s.chest := rfl
@[simp] theorem State.onTdi_lcs (k : Nat) (f : Tdi → Tdi) : (s.onTdi k f).lcs = s.lcs := rfl
@[simp] theorem State.onTdi_startCount (k : Nat) (f : Tdi → Tdi) : (s.onTdi k f).startCount = s.startCount := rfl
@[simp] theorem State.onTdi_isl (k : Nat) (f : Tdi → Tdi) : (s.onTdi k f).isl = s.isl := rfl
@[simp] theorem State.onTdi_pow (k : Nat) (f : Tdi → Tdi) : (s.onTdi k f).pow = s.pow := rfl
@[simp] theorem State.onTdi_slices (k : Nat) (f : Tdi → Tdi) : (s.onTdi k f).slices = s.slices := rfl
@[simp] theorem State.onTdi_stackTab (k : Nat) (f : Tdi → Tdi) : (s.onTdi k f).stackTab = s.stackTab := rfl
@[simp] theorem State.onTdi_health (k : Nat) (f : Tdi → Tdi) : (s.onTdi k f).health = s.health := rfl
@[simp] theorem State.onTdi_i3c (k : Nat) (f : Tdi → Tdi) : (s.onTdi k f).i3c = s.i3c := rfl
@[simp] theorem State.onTdi_latch (k : Nat) (f : Tdi → Tdi) : (s.onTdi k f).latch = s.latch := rfl

/-! ### onIsl -/

@[simp] theorem State.onIsl_pending (f : Island → Island) : (s.onIsl f).pending = s.pending := rfl
@[simp] theorem State.onIsl_clk (f : Island → Island) : (s.onIsl f).clk = s.clk := rfl
@[simp] theorem State.onIsl_draw (f : Island → Island) : (s.onIsl f).draw = s.draw := rfl
@[simp] theorem State.onIsl_mem (f : Island → Island) : (s.onIsl f).mem = s.mem := rfl
@[simp] theorem State.onIsl_marks (f : Island → Island) : (s.onIsl f).marks = s.marks := rfl
@[simp] theorem State.onIsl_cfg (f : Island → Island) : (s.onIsl f).cfg = s.cfg := rfl
@[simp] theorem State.onIsl_dev (f : Island → Island) : (s.onIsl f).dev = s.dev := rfl
@[simp] theorem State.onIsl_host (f : Island → Island) : (s.onIsl f).host = s.host := rfl
@[simp] theorem State.onIsl_tim (f : Island → Island) : (s.onIsl f).tim = s.tim := rfl
@[simp] theorem State.onIsl_bays (f : Island → Island) : (s.onIsl f).bays = s.bays := rfl
@[simp] theorem State.onIsl_seqs (f : Island → Island) : (s.onIsl f).seqs = s.seqs := rfl
@[simp] theorem State.onIsl_qerrs (f : Island → Island) : (s.onIsl f).qerrs = s.qerrs := rfl
@[simp] theorem State.onIsl_queues (f : Island → Island) : (s.onIsl f).queues = s.queues := rfl
@[simp] theorem State.onIsl_shelves (f : Island → Island) : (s.onIsl f).shelves = s.shelves := rfl
@[simp] theorem State.onIsl_ports (f : Island → Island) : (s.onIsl f).ports = s.ports := rfl
@[simp] theorem State.onIsl_tp (f : Island → Island) : (s.onIsl f).tp = s.tp := rfl
@[simp] theorem State.onIsl_windows (f : Island → Island) : (s.onIsl f).windows = s.windows := rfl
@[simp] theorem State.onIsl_genBase (f : Island → Island) : (s.onIsl f).genBase = s.genBase := rfl
@[simp] theorem State.onIsl_gens (f : Island → Island) : (s.onIsl f).gens = s.gens := rfl
@[simp] theorem State.onIsl_bins (f : Island → Island) : (s.onIsl f).bins = s.bins := rfl
@[simp] theorem State.onIsl_chest (f : Island → Island) : (s.onIsl f).chest = s.chest := rfl
@[simp] theorem State.onIsl_lcs (f : Island → Island) : (s.onIsl f).lcs = s.lcs := rfl
@[simp] theorem State.onIsl_startCount (f : Island → Island) : (s.onIsl f).startCount = s.startCount := rfl
@[simp] theorem State.onIsl_pow (f : Island → Island) : (s.onIsl f).pow = s.pow := rfl
@[simp] theorem State.onIsl_slices (f : Island → Island) : (s.onIsl f).slices = s.slices := rfl
@[simp] theorem State.onIsl_stackTab (f : Island → Island) : (s.onIsl f).stackTab = s.stackTab := rfl
@[simp] theorem State.onIsl_health (f : Island → Island) : (s.onIsl f).health = s.health := rfl
@[simp] theorem State.onIsl_i3c (f : Island → Island) : (s.onIsl f).i3c = s.i3c := rfl
@[simp] theorem State.onIsl_latch (f : Island → Island) : (s.onIsl f).latch = s.latch := rfl

/-! ### onPow -/

@[simp] theorem State.onPow_pending (f : Pow → Pow) : (s.onPow f).pending = s.pending := rfl
@[simp] theorem State.onPow_clk (f : Pow → Pow) : (s.onPow f).clk = s.clk := rfl
@[simp] theorem State.onPow_draw (f : Pow → Pow) : (s.onPow f).draw = s.draw := rfl
@[simp] theorem State.onPow_mem (f : Pow → Pow) : (s.onPow f).mem = s.mem := rfl
@[simp] theorem State.onPow_marks (f : Pow → Pow) : (s.onPow f).marks = s.marks := rfl
@[simp] theorem State.onPow_cfg (f : Pow → Pow) : (s.onPow f).cfg = s.cfg := rfl
@[simp] theorem State.onPow_dev (f : Pow → Pow) : (s.onPow f).dev = s.dev := rfl
@[simp] theorem State.onPow_host (f : Pow → Pow) : (s.onPow f).host = s.host := rfl
@[simp] theorem State.onPow_tim (f : Pow → Pow) : (s.onPow f).tim = s.tim := rfl
@[simp] theorem State.onPow_bays (f : Pow → Pow) : (s.onPow f).bays = s.bays := rfl
@[simp] theorem State.onPow_seqs (f : Pow → Pow) : (s.onPow f).seqs = s.seqs := rfl
@[simp] theorem State.onPow_qerrs (f : Pow → Pow) : (s.onPow f).qerrs = s.qerrs := rfl
@[simp] theorem State.onPow_queues (f : Pow → Pow) : (s.onPow f).queues = s.queues := rfl
@[simp] theorem State.onPow_shelves (f : Pow → Pow) : (s.onPow f).shelves = s.shelves := rfl
@[simp] theorem State.onPow_ports (f : Pow → Pow) : (s.onPow f).ports = s.ports := rfl
@[simp] theorem State.onPow_tp (f : Pow → Pow) : (s.onPow f).tp = s.tp := rfl
@[simp] theorem State.onPow_windows (f : Pow → Pow) : (s.onPow f).windows = s.windows := rfl
@[simp] theorem State.onPow_genBase (f : Pow → Pow) : (s.onPow f).genBase = s.genBase := rfl
@[simp] theorem State.onPow_gens (f : Pow → Pow) : (s.onPow f).gens = s.gens := rfl
@[simp] theorem State.onPow_bins (f : Pow → Pow) : (s.onPow f).bins = s.bins := rfl
@[simp] theorem State.onPow_chest (f : Pow → Pow) : (s.onPow f).chest = s.chest := rfl
@[simp] theorem State.onPow_lcs (f : Pow → Pow) : (s.onPow f).lcs = s.lcs := rfl
@[simp] theorem State.onPow_startCount (f : Pow → Pow) : (s.onPow f).startCount = s.startCount := rfl
@[simp] theorem State.onPow_isl (f : Pow → Pow) : (s.onPow f).isl = s.isl := rfl
@[simp] theorem State.onPow_slices (f : Pow → Pow) : (s.onPow f).slices = s.slices := rfl
@[simp] theorem State.onPow_stackTab (f : Pow → Pow) : (s.onPow f).stackTab = s.stackTab := rfl
@[simp] theorem State.onPow_health (f : Pow → Pow) : (s.onPow f).health = s.health := rfl
@[simp] theorem State.onPow_i3c (f : Pow → Pow) : (s.onPow f).i3c = s.i3c := rfl
@[simp] theorem State.onPow_latch (f : Pow → Pow) : (s.onPow f).latch = s.latch := rfl

/-! ### onTim -/

@[simp] theorem State.onTim_pending (f : Tim → Tim) : (s.onTim f).pending = s.pending := rfl
@[simp] theorem State.onTim_clk (f : Tim → Tim) : (s.onTim f).clk = s.clk := rfl
@[simp] theorem State.onTim_draw (f : Tim → Tim) : (s.onTim f).draw = s.draw := rfl
@[simp] theorem State.onTim_mem (f : Tim → Tim) : (s.onTim f).mem = s.mem := rfl
@[simp] theorem State.onTim_marks (f : Tim → Tim) : (s.onTim f).marks = s.marks := rfl
@[simp] theorem State.onTim_cfg (f : Tim → Tim) : (s.onTim f).cfg = s.cfg := rfl
@[simp] theorem State.onTim_dev (f : Tim → Tim) : (s.onTim f).dev = s.dev := rfl
@[simp] theorem State.onTim_host (f : Tim → Tim) : (s.onTim f).host = s.host := rfl
@[simp] theorem State.onTim_bays (f : Tim → Tim) : (s.onTim f).bays = s.bays := rfl
@[simp] theorem State.onTim_seqs (f : Tim → Tim) : (s.onTim f).seqs = s.seqs := rfl
@[simp] theorem State.onTim_qerrs (f : Tim → Tim) : (s.onTim f).qerrs = s.qerrs := rfl
@[simp] theorem State.onTim_queues (f : Tim → Tim) : (s.onTim f).queues = s.queues := rfl
@[simp] theorem State.onTim_shelves (f : Tim → Tim) : (s.onTim f).shelves = s.shelves := rfl
@[simp] theorem State.onTim_ports (f : Tim → Tim) : (s.onTim f).ports = s.ports := rfl
@[simp] theorem State.onTim_tp (f : Tim → Tim) : (s.onTim f).tp = s.tp := rfl
@[simp] theorem State.onTim_windows (f : Tim → Tim) : (s.onTim f).windows = s.windows := rfl
@[simp] theorem State.onTim_genBase (f : Tim → Tim) : (s.onTim f).genBase = s.genBase := rfl
@[simp] theorem State.onTim_gens (f : Tim → Tim) : (s.onTim f).gens = s.gens := rfl
@[simp] theorem State.onTim_bins (f : Tim → Tim) : (s.onTim f).bins = s.bins := rfl
@[simp] theorem State.onTim_chest (f : Tim → Tim) : (s.onTim f).chest = s.chest := rfl
@[simp] theorem State.onTim_lcs (f : Tim → Tim) : (s.onTim f).lcs = s.lcs := rfl
@[simp] theorem State.onTim_startCount (f : Tim → Tim) : (s.onTim f).startCount = s.startCount := rfl
@[simp] theorem State.onTim_isl (f : Tim → Tim) : (s.onTim f).isl = s.isl := rfl
@[simp] theorem State.onTim_pow (f : Tim → Tim) : (s.onTim f).pow = s.pow := rfl
@[simp] theorem State.onTim_slices (f : Tim → Tim) : (s.onTim f).slices = s.slices := rfl
@[simp] theorem State.onTim_stackTab (f : Tim → Tim) : (s.onTim f).stackTab = s.stackTab := rfl
@[simp] theorem State.onTim_health (f : Tim → Tim) : (s.onTim f).health = s.health := rfl
@[simp] theorem State.onTim_i3c (f : Tim → Tim) : (s.onTim f).i3c = s.i3c := rfl
@[simp] theorem State.onTim_latch (f : Tim → Tim) : (s.onTim f).latch = s.latch := rfl

/-! ### onDev -/

@[simp] theorem State.onDev_pending (f : Dev → Dev) : (s.onDev f).pending = s.pending := rfl
@[simp] theorem State.onDev_clk (f : Dev → Dev) : (s.onDev f).clk = s.clk := rfl
@[simp] theorem State.onDev_draw (f : Dev → Dev) : (s.onDev f).draw = s.draw := rfl
@[simp] theorem State.onDev_mem (f : Dev → Dev) : (s.onDev f).mem = s.mem := rfl
@[simp] theorem State.onDev_marks (f : Dev → Dev) : (s.onDev f).marks = s.marks := rfl
@[simp] theorem State.onDev_cfg (f : Dev → Dev) : (s.onDev f).cfg = s.cfg := rfl
@[simp] theorem State.onDev_host (f : Dev → Dev) : (s.onDev f).host = s.host := rfl
@[simp] theorem State.onDev_tim (f : Dev → Dev) : (s.onDev f).tim = s.tim := rfl
@[simp] theorem State.onDev_bays (f : Dev → Dev) : (s.onDev f).bays = s.bays := rfl
@[simp] theorem State.onDev_seqs (f : Dev → Dev) : (s.onDev f).seqs = s.seqs := rfl
@[simp] theorem State.onDev_qerrs (f : Dev → Dev) : (s.onDev f).qerrs = s.qerrs := rfl
@[simp] theorem State.onDev_queues (f : Dev → Dev) : (s.onDev f).queues = s.queues := rfl
@[simp] theorem State.onDev_shelves (f : Dev → Dev) : (s.onDev f).shelves = s.shelves := rfl
@[simp] theorem State.onDev_ports (f : Dev → Dev) : (s.onDev f).ports = s.ports := rfl
@[simp] theorem State.onDev_tp (f : Dev → Dev) : (s.onDev f).tp = s.tp := rfl
@[simp] theorem State.onDev_windows (f : Dev → Dev) : (s.onDev f).windows = s.windows := rfl
@[simp] theorem State.onDev_genBase (f : Dev → Dev) : (s.onDev f).genBase = s.genBase := rfl
@[simp] theorem State.onDev_gens (f : Dev → Dev) : (s.onDev f).gens = s.gens := rfl
@[simp] theorem State.onDev_bins (f : Dev → Dev) : (s.onDev f).bins = s.bins := rfl
@[simp] theorem State.onDev_chest (f : Dev → Dev) : (s.onDev f).chest = s.chest := rfl
@[simp] theorem State.onDev_lcs (f : Dev → Dev) : (s.onDev f).lcs = s.lcs := rfl
@[simp] theorem State.onDev_startCount (f : Dev → Dev) : (s.onDev f).startCount = s.startCount := rfl
@[simp] theorem State.onDev_isl (f : Dev → Dev) : (s.onDev f).isl = s.isl := rfl
@[simp] theorem State.onDev_pow (f : Dev → Dev) : (s.onDev f).pow = s.pow := rfl
@[simp] theorem State.onDev_slices (f : Dev → Dev) : (s.onDev f).slices = s.slices := rfl
@[simp] theorem State.onDev_stackTab (f : Dev → Dev) : (s.onDev f).stackTab = s.stackTab := rfl
@[simp] theorem State.onDev_health (f : Dev → Dev) : (s.onDev f).health = s.health := rfl
@[simp] theorem State.onDev_i3c (f : Dev → Dev) : (s.onDev f).i3c = s.i3c := rfl
@[simp] theorem State.onDev_latch (f : Dev → Dev) : (s.onDev f).latch = s.latch := rfl

/-! ### onHealth -/

@[simp] theorem State.onHealth_pending (f : Health → Health) : (s.onHealth f).pending = s.pending := rfl
@[simp] theorem State.onHealth_clk (f : Health → Health) : (s.onHealth f).clk = s.clk := rfl
@[simp] theorem State.onHealth_draw (f : Health → Health) : (s.onHealth f).draw = s.draw := rfl
@[simp] theorem State.onHealth_mem (f : Health → Health) : (s.onHealth f).mem = s.mem := rfl
@[simp] theorem State.onHealth_marks (f : Health → Health) : (s.onHealth f).marks = s.marks := rfl
@[simp] theorem State.onHealth_cfg (f : Health → Health) : (s.onHealth f).cfg = s.cfg := rfl
@[simp] theorem State.onHealth_dev (f : Health → Health) : (s.onHealth f).dev = s.dev := rfl
@[simp] theorem State.onHealth_host (f : Health → Health) : (s.onHealth f).host = s.host := rfl
@[simp] theorem State.onHealth_tim (f : Health → Health) : (s.onHealth f).tim = s.tim := rfl
@[simp] theorem State.onHealth_bays (f : Health → Health) : (s.onHealth f).bays = s.bays := rfl
@[simp] theorem State.onHealth_seqs (f : Health → Health) : (s.onHealth f).seqs = s.seqs := rfl
@[simp] theorem State.onHealth_qerrs (f : Health → Health) : (s.onHealth f).qerrs = s.qerrs := rfl
@[simp] theorem State.onHealth_queues (f : Health → Health) : (s.onHealth f).queues = s.queues := rfl
@[simp] theorem State.onHealth_shelves (f : Health → Health) : (s.onHealth f).shelves = s.shelves := rfl
@[simp] theorem State.onHealth_ports (f : Health → Health) : (s.onHealth f).ports = s.ports := rfl
@[simp] theorem State.onHealth_tp (f : Health → Health) : (s.onHealth f).tp = s.tp := rfl
@[simp] theorem State.onHealth_windows (f : Health → Health) : (s.onHealth f).windows = s.windows := rfl
@[simp] theorem State.onHealth_genBase (f : Health → Health) : (s.onHealth f).genBase = s.genBase := rfl
@[simp] theorem State.onHealth_gens (f : Health → Health) : (s.onHealth f).gens = s.gens := rfl
@[simp] theorem State.onHealth_bins (f : Health → Health) : (s.onHealth f).bins = s.bins := rfl
@[simp] theorem State.onHealth_chest (f : Health → Health) : (s.onHealth f).chest = s.chest := rfl
@[simp] theorem State.onHealth_lcs (f : Health → Health) : (s.onHealth f).lcs = s.lcs := rfl
@[simp] theorem State.onHealth_startCount (f : Health → Health) : (s.onHealth f).startCount = s.startCount := rfl
@[simp] theorem State.onHealth_isl (f : Health → Health) : (s.onHealth f).isl = s.isl := rfl
@[simp] theorem State.onHealth_pow (f : Health → Health) : (s.onHealth f).pow = s.pow := rfl
@[simp] theorem State.onHealth_slices (f : Health → Health) : (s.onHealth f).slices = s.slices := rfl
@[simp] theorem State.onHealth_stackTab (f : Health → Health) : (s.onHealth f).stackTab = s.stackTab := rfl
@[simp] theorem State.onHealth_i3c (f : Health → Health) : (s.onHealth f).i3c = s.i3c := rfl
@[simp] theorem State.onHealth_latch (f : Health → Health) : (s.onHealth f).latch = s.latch := rfl

/-! ### onI3c -/

@[simp] theorem State.onI3c_pending (f : I3c → I3c) : (s.onI3c f).pending = s.pending := rfl
@[simp] theorem State.onI3c_clk (f : I3c → I3c) : (s.onI3c f).clk = s.clk := rfl
@[simp] theorem State.onI3c_draw (f : I3c → I3c) : (s.onI3c f).draw = s.draw := rfl
@[simp] theorem State.onI3c_mem (f : I3c → I3c) : (s.onI3c f).mem = s.mem := rfl
@[simp] theorem State.onI3c_marks (f : I3c → I3c) : (s.onI3c f).marks = s.marks := rfl
@[simp] theorem State.onI3c_cfg (f : I3c → I3c) : (s.onI3c f).cfg = s.cfg := rfl
@[simp] theorem State.onI3c_dev (f : I3c → I3c) : (s.onI3c f).dev = s.dev := rfl
@[simp] theorem State.onI3c_host (f : I3c → I3c) : (s.onI3c f).host = s.host := rfl
@[simp] theorem State.onI3c_tim (f : I3c → I3c) : (s.onI3c f).tim = s.tim := rfl
@[simp] theorem State.onI3c_bays (f : I3c → I3c) : (s.onI3c f).bays = s.bays := rfl
@[simp] theorem State.onI3c_seqs (f : I3c → I3c) : (s.onI3c f).seqs = s.seqs := rfl
@[simp] theorem State.onI3c_qerrs (f : I3c → I3c) : (s.onI3c f).qerrs = s.qerrs := rfl
@[simp] theorem State.onI3c_queues (f : I3c → I3c) : (s.onI3c f).queues = s.queues := rfl
@[simp] theorem State.onI3c_shelves (f : I3c → I3c) : (s.onI3c f).shelves = s.shelves := rfl
@[simp] theorem State.onI3c_ports (f : I3c → I3c) : (s.onI3c f).ports = s.ports := rfl
@[simp] theorem State.onI3c_tp (f : I3c → I3c) : (s.onI3c f).tp = s.tp := rfl
@[simp] theorem State.onI3c_windows (f : I3c → I3c) : (s.onI3c f).windows = s.windows := rfl
@[simp] theorem State.onI3c_genBase (f : I3c → I3c) : (s.onI3c f).genBase = s.genBase := rfl
@[simp] theorem State.onI3c_gens (f : I3c → I3c) : (s.onI3c f).gens = s.gens := rfl
@[simp] theorem State.onI3c_bins (f : I3c → I3c) : (s.onI3c f).bins = s.bins := rfl
@[simp] theorem State.onI3c_chest (f : I3c → I3c) : (s.onI3c f).chest = s.chest := rfl
@[simp] theorem State.onI3c_lcs (f : I3c → I3c) : (s.onI3c f).lcs = s.lcs := rfl
@[simp] theorem State.onI3c_startCount (f : I3c → I3c) : (s.onI3c f).startCount = s.startCount := rfl
@[simp] theorem State.onI3c_isl (f : I3c → I3c) : (s.onI3c f).isl = s.isl := rfl
@[simp] theorem State.onI3c_pow (f : I3c → I3c) : (s.onI3c f).pow = s.pow := rfl
@[simp] theorem State.onI3c_slices (f : I3c → I3c) : (s.onI3c f).slices = s.slices := rfl
@[simp] theorem State.onI3c_stackTab (f : I3c → I3c) : (s.onI3c f).stackTab = s.stackTab := rfl
@[simp] theorem State.onI3c_health (f : I3c → I3c) : (s.onI3c f).health = s.health := rfl
@[simp] theorem State.onI3c_latch (f : I3c → I3c) : (s.onI3c f).latch = s.latch := rfl

/-! ### onTp -/

@[simp] theorem State.onTp_pending (f : Transport → Transport) : (s.onTp f).pending = s.pending := rfl
@[simp] theorem State.onTp_clk (f : Transport → Transport) : (s.onTp f).clk = s.clk := rfl
@[simp] theorem State.onTp_draw (f : Transport → Transport) : (s.onTp f).draw = s.draw := rfl
@[simp] theorem State.onTp_mem (f : Transport → Transport) : (s.onTp f).mem = s.mem := rfl
@[simp] theorem State.onTp_marks (f : Transport → Transport) : (s.onTp f).marks = s.marks := rfl
@[simp] theorem State.onTp_cfg (f : Transport → Transport) : (s.onTp f).cfg = s.cfg := rfl
@[simp] theorem State.onTp_dev (f : Transport → Transport) : (s.onTp f).dev = s.dev := rfl
@[simp] theorem State.onTp_host (f : Transport → Transport) : (s.onTp f).host = s.host := rfl
@[simp] theorem State.onTp_tim (f : Transport → Transport) : (s.onTp f).tim = s.tim := rfl
@[simp] theorem State.onTp_bays (f : Transport → Transport) : (s.onTp f).bays = s.bays := rfl
@[simp] theorem State.onTp_seqs (f : Transport → Transport) : (s.onTp f).seqs = s.seqs := rfl
@[simp] theorem State.onTp_qerrs (f : Transport → Transport) : (s.onTp f).qerrs = s.qerrs := rfl
@[simp] theorem State.onTp_queues (f : Transport → Transport) : (s.onTp f).queues = s.queues := rfl
@[simp] theorem State.onTp_shelves (f : Transport → Transport) : (s.onTp f).shelves = s.shelves := rfl
@[simp] theorem State.onTp_ports (f : Transport → Transport) : (s.onTp f).ports = s.ports := rfl
@[simp] theorem State.onTp_windows (f : Transport → Transport) : (s.onTp f).windows = s.windows := rfl
@[simp] theorem State.onTp_genBase (f : Transport → Transport) : (s.onTp f).genBase = s.genBase := rfl
@[simp] theorem State.onTp_gens (f : Transport → Transport) : (s.onTp f).gens = s.gens := rfl
@[simp] theorem State.onTp_bins (f : Transport → Transport) : (s.onTp f).bins = s.bins := rfl
@[simp] theorem State.onTp_chest (f : Transport → Transport) : (s.onTp f).chest = s.chest := rfl
@[simp] theorem State.onTp_lcs (f : Transport → Transport) : (s.onTp f).lcs = s.lcs := rfl
@[simp] theorem State.onTp_startCount (f : Transport → Transport) : (s.onTp f).startCount = s.startCount := rfl
@[simp] theorem State.onTp_isl (f : Transport → Transport) : (s.onTp f).isl = s.isl := rfl
@[simp] theorem State.onTp_pow (f : Transport → Transport) : (s.onTp f).pow = s.pow := rfl
@[simp] theorem State.onTp_slices (f : Transport → Transport) : (s.onTp f).slices = s.slices := rfl
@[simp] theorem State.onTp_stackTab (f : Transport → Transport) : (s.onTp f).stackTab = s.stackTab := rfl
@[simp] theorem State.onTp_health (f : Transport → Transport) : (s.onTp f).health = s.health := rfl
@[simp] theorem State.onTp_i3c (f : Transport → Transport) : (s.onTp f).i3c = s.i3c := rfl
@[simp] theorem State.onTp_latch (f : Transport → Transport) : (s.onTp f).latch = s.latch := rfl

/-! ### setDreg -/

@[simp] theorem State.setDreg_pending (k : Nat) (v : Word) : (s.setDreg k v).pending = s.pending := rfl
@[simp] theorem State.setDreg_clk (k : Nat) (v : Word) : (s.setDreg k v).clk = s.clk := rfl
@[simp] theorem State.setDreg_draw (k : Nat) (v : Word) : (s.setDreg k v).draw = s.draw := rfl
@[simp] theorem State.setDreg_mem (k : Nat) (v : Word) : (s.setDreg k v).mem = s.mem := rfl
@[simp] theorem State.setDreg_marks (k : Nat) (v : Word) : (s.setDreg k v).marks = s.marks := rfl
@[simp] theorem State.setDreg_dev (k : Nat) (v : Word) : (s.setDreg k v).dev = s.dev := rfl
@[simp] theorem State.setDreg_host (k : Nat) (v : Word) : (s.setDreg k v).host = s.host := rfl
@[simp] theorem State.setDreg_tim (k : Nat) (v : Word) : (s.setDreg k v).tim = s.tim := rfl
@[simp] theorem State.setDreg_bays (k : Nat) (v : Word) : (s.setDreg k v).bays = s.bays := rfl
@[simp] theorem State.setDreg_seqs (k : Nat) (v : Word) : (s.setDreg k v).seqs = s.seqs := rfl
@[simp] theorem State.setDreg_qerrs (k : Nat) (v : Word) : (s.setDreg k v).qerrs = s.qerrs := rfl
@[simp] theorem State.setDreg_queues (k : Nat) (v : Word) : (s.setDreg k v).queues = s.queues := rfl
@[simp] theorem State.setDreg_shelves (k : Nat) (v : Word) : (s.setDreg k v).shelves = s.shelves := rfl
@[simp] theorem State.setDreg_ports (k : Nat) (v : Word) : (s.setDreg k v).ports = s.ports := rfl
@[simp] theorem State.setDreg_tp (k : Nat) (v : Word) : (s.setDreg k v).tp = s.tp := rfl
@[simp] theorem State.setDreg_windows (k : Nat) (v : Word) : (s.setDreg k v).windows = s.windows := rfl
@[simp] theorem State.setDreg_genBase (k : Nat) (v : Word) : (s.setDreg k v).genBase = s.genBase := rfl
@[simp] theorem State.setDreg_gens (k : Nat) (v : Word) : (s.setDreg k v).gens = s.gens := rfl
@[simp] theorem State.setDreg_bins (k : Nat) (v : Word) : (s.setDreg k v).bins = s.bins := rfl
@[simp] theorem State.setDreg_chest (k : Nat) (v : Word) : (s.setDreg k v).chest = s.chest := rfl
@[simp] theorem State.setDreg_lcs (k : Nat) (v : Word) : (s.setDreg k v).lcs = s.lcs := rfl
@[simp] theorem State.setDreg_startCount (k : Nat) (v : Word) : (s.setDreg k v).startCount = s.startCount := rfl
@[simp] theorem State.setDreg_isl (k : Nat) (v : Word) : (s.setDreg k v).isl = s.isl := rfl
@[simp] theorem State.setDreg_pow (k : Nat) (v : Word) : (s.setDreg k v).pow = s.pow := rfl
@[simp] theorem State.setDreg_slices (k : Nat) (v : Word) : (s.setDreg k v).slices = s.slices := rfl
@[simp] theorem State.setDreg_stackTab (k : Nat) (v : Word) : (s.setDreg k v).stackTab = s.stackTab := rfl
@[simp] theorem State.setDreg_health (k : Nat) (v : Word) : (s.setDreg k v).health = s.health := rfl
@[simp] theorem State.setDreg_i3c (k : Nat) (v : Word) : (s.setDreg k v).i3c = s.i3c := rfl
@[simp] theorem State.setDreg_latch (k : Nat) (v : Word) : (s.setDreg k v).latch = s.latch := rfl

/-! ### A read after an update of the same table -/

@[simp] theorem State.onShelf_shelf_same (k : Nat) (f : Shelf → Shelf) : (s.onShelf k f).shelf k = f (s.shelf k) := tget_tput_same _ _ _ _

theorem State.onShelf_shelf_other (k j : Nat) (f : Shelf → Shelf) (h : j ≠ k) : (s.onShelf k f).shelf j = s.shelf j := tget_tput_other _ _ _ _ _ h

@[simp] theorem State.onBay_bay_same (k : Nat) (f : Bay → Bay) : (s.onBay k f).bay k = f (s.bay k) := tget_tput_same _ _ _ _

theorem State.onBay_bay_other (k j : Nat) (f : Bay → Bay) (h : j ≠ k) : (s.onBay k f).bay j = s.bay j := tget_tput_other _ _ _ _ _ h

@[simp] theorem State.onSeq_seq_same (k : Nat) (f : Seq → Seq) : (s.onSeq k f).seq k = f (s.seq k) := tget_tput_same _ _ _ _

theorem State.onSeq_seq_other (k j : Nat) (f : Seq → Seq) (h : j ≠ k) : (s.onSeq k f).seq j = s.seq j := tget_tput_other _ _ _ _ _ h

@[simp] theorem State.onQErr_qerr_same (k : Nat) (f : QErr → QErr) : (s.onQErr k f).qerr k = f (s.qerr k) := tget_tput_same _ _ _ _

theorem State.onQErr_qerr_other (k j : Nat) (f : QErr → QErr) (h : j ≠ k) : (s.onQErr k f).qerr j = s.qerr j := tget_tput_other _ _ _ _ _ h

@[simp] theorem State.onWin_win_same (k : Nat) (f : Window → Window) : (s.onWin k f).win k = f (s.win k) := tget_tput_same _ _ _ _

theorem State.onWin_win_other (k j : Nat) (f : Window → Window) (h : j ≠ k) : (s.onWin k f).win j = s.win j := tget_tput_other _ _ _ _ _ h

@[simp] theorem State.onBin_bin_same (k : Nat) (f : Bin → Bin) : (s.onBin k f).bin k = f (s.bin k) := tget_tput_same _ _ _ _

theorem State.onBin_bin_other (k j : Nat) (f : Bin → Bin) (h : j ≠ k) : (s.onBin k f).bin j = s.bin j := tget_tput_other _ _ _ _ _ h

@[simp] theorem State.onSlot_slot_same (k : Nat) (f : Slot → Slot) : (s.onSlot k f).slot k = f (s.slot k) := tget_tput_same _ _ _ _

theorem State.onSlot_slot_other (k j : Nat) (f : Slot → Slot) (h : j ≠ k) : (s.onSlot k f).slot j = s.slot j := tget_tput_other _ _ _ _ _ h

@[simp] theorem State.onStack_stack_same (k : Nat) (f : Stack → Stack) : (s.onStack k f).stack k = f (s.stack k) := tget_tput_same _ _ _ _

theorem State.onStack_stack_other (k j : Nat) (f : Stack → Stack) (h : j ≠ k) : (s.onStack k f).stack j = s.stack j := tget_tput_other _ _ _ _ _ h

@[simp] theorem State.onSlice_slice_same (k : Nat) (f : Slice → Slice) : (s.onSlice k f).slice k = f (s.slice k) := tget_tput_same _ _ _ _

theorem State.onSlice_slice_other (k j : Nat) (f : Slice → Slice) (h : j ≠ k) : (s.onSlice k f).slice j = s.slice j := tget_tput_other _ _ _ _ _ h

@[simp] theorem State.onFn_fn_same (k : Nat) (f : Fn → Fn) : (s.onFn k f).fn k = f (s.fn k) := tget_tput_same _ _ _ _

theorem State.onFn_fn_other (k j : Nat) (f : Fn → Fn) (h : j ≠ k) : (s.onFn k f).fn j = s.fn j := tget_tput_other _ _ _ _ _ h

@[simp] theorem State.onTdi_tdi_same (k : Nat) (f : Tdi → Tdi) : (s.onTdi k f).tdi k = f (s.tdi k) := tget_tput_same _ _ _ _

theorem State.onTdi_tdi_other (k j : Nat) (f : Tdi → Tdi) (h : j ≠ k) : (s.onTdi k f).tdi j = s.tdi j := tget_tput_other _ _ _ _ _ h

@[simp] theorem State.onQueue_queue_same (q n : Nat) (f : Queue → Queue) : (s.onQueue q n f).queue q n = f (s.queue q n) :=
  tget_tput_same _ _ _ _

/-- Queue n and m of the same or of different sequencers have different keys where either differs. -/
theorem queue_key_ne (q r n m : Nat) (hn : n < 16) (hm : m < 16) (h : ¬(r = q ∧ m = n)) : r * 16 + m ≠ q * 16 + n := by
  intro e; apply h; omega

theorem State.onQueue_queue_other (q r n m : Nat) (f : Queue → Queue) (hn : n < 16) (hm : m < 16) (h : ¬(r = q ∧ m = n)) :
    (s.onQueue q n f).queue r m = s.queue r m :=
  tget_tput_other _ _ _ _ _ (queue_key_ne q r n m hn hm h)

@[simp] theorem State.onCask_cask_same (b c : Nat) (f : Cask → Cask) : (s.onCask b c f).cask b c = f (s.cask b c) := by
  simp [State.onCask, State.cask]

theorem State.onCask_cask_other (b c d : Nat) (f : Cask → Cask) (h : d ≠ c) : (s.onCask b c f).cask b d = s.cask b d := by
  simp [State.onCask, State.cask, tget_tput_other _ _ _ _ _ h]

@[simp] theorem State.setDreg_same (k : Nat) (v r : Word) : tget r (s.setDreg k v).cfg k = v := tget_tput_same _ _ _ _

theorem State.setDreg_other (k j : Nat) (v r : Word) (h : j ≠ k) : tget r (s.setDreg k v).cfg j = tget r s.cfg j :=
  tget_tput_other _ _ _ _ _ h

@[simp] theorem State.setReg_same (k off : Nat) (v r : Word) : ((s.setReg k off v).shelf k).reg off r = v := by
  simp [State.setReg, Shelf.reg]

/-! ### Updates of a part of a shelf are updates of the shelf -/

@[simp] theorem State.onRound_eq (k : Nat) (f : Round → Round) : s.onRound k f = s.onShelf k (fun h => { h with round := f h.round }) := rfl
@[simp] theorem State.onIntake_eq (k : Nat) (f : Intake → Intake) : s.onIntake k f = s.onShelf k (fun h => { h with intake := f h.intake }) := rfl
@[simp] theorem State.onLedger_eq (k : Nat) (f : Ledger → Ledger) : s.onLedger k f = s.onShelf k (fun h => { h with ledger := f h.ledger }) := rfl
@[simp] theorem State.onCounts_eq (k : Nat) (f : Counts → Counts) : s.onCounts k f = s.onShelf k (fun h => { h with counts := f h.counts }) := rfl
@[simp] theorem State.onCtx_eq (k : Nat) (f : Ctx → Ctx) : s.onCtx k f = s.onShelf k (fun h => { h with ctx := f h.ctx }) := rfl
@[simp] theorem State.onRemote_eq (k : Nat) (f : Remote → Remote) : s.onRemote k f = s.onShelf k (fun h => { h with remote := f h.remote }) := rfl
@[simp] theorem State.onVerif_eq (k : Nat) (f : Verif → Verif) : s.onVerif k f = s.onShelf k (fun h => { h with verif := f h.verif }) := rfl
@[simp] theorem State.onLat_eq (k : Nat) (f : Lattice → Lattice) : s.onLat k f = s.onShelf k (fun h => { h with lat := f h.lat }) := rfl
@[simp] theorem State.onProg_eq (k : Nat) (f : Prog → Prog) : s.onProg k f = s.onShelf k (fun h => { h with prog := f h.prog }) := rfl
@[simp] theorem State.onRecov_eq (k : Nat) (f : Recov → Recov) : s.onRecov k f = s.onShelf k (fun h => { h with recov := f h.recov }) := rfl
@[simp] theorem State.onRel_eq (k : Nat) (f : Rel → Rel) : s.onRel k f = s.onShelf k (fun h => { h with rel := f h.rel }) := rfl
@[simp] theorem State.onRcv_eq (k : Nat) (f : Rcv → Rcv) : s.onRcv k f = s.onShelf k (fun h => { h with rcv := f h.rcv }) := rfl
@[simp] theorem State.onSeal_eq (k : Nat) (f : SealSt → SealSt) : s.onSeal k f = s.onShelf k (fun h => { h with sealSt := f h.sealSt }) := rfl
@[simp] theorem State.onWpt_eq (k : Nat) (f : Wpt → Wpt) : s.onWpt k f = s.onShelf k (fun h => { h with wpt := f h.wpt }) := rfl

/-! ### draw and signals -/

@[simp] theorem draw_pending (w : Nat) : (draw w s).2.pending = s.pending := rfl
@[simp] theorem draw_clk (w : Nat) : (draw w s).2.clk = s.clk := rfl
@[simp] theorem draw_mem (w : Nat) : (draw w s).2.mem = s.mem := rfl
@[simp] theorem draw_marks (w : Nat) : (draw w s).2.marks = s.marks := rfl
@[simp] theorem draw_cfg (w : Nat) : (draw w s).2.cfg = s.cfg := rfl
@[simp] theorem draw_dev (w : Nat) : (draw w s).2.dev = s.dev := rfl
@[simp] theorem draw_host (w : Nat) : (draw w s).2.host = s.host := rfl
@[simp] theorem draw_tim (w : Nat) : (draw w s).2.tim = s.tim := rfl
@[simp] theorem draw_bays (w : Nat) : (draw w s).2.bays = s.bays := rfl
@[simp] theorem draw_seqs (w : Nat) : (draw w s).2.seqs = s.seqs := rfl
@[simp] theorem draw_qerrs (w : Nat) : (draw w s).2.qerrs = s.qerrs := rfl
@[simp] theorem draw_queues (w : Nat) : (draw w s).2.queues = s.queues := rfl
@[simp] theorem draw_shelves (w : Nat) : (draw w s).2.shelves = s.shelves := rfl
@[simp] theorem draw_ports (w : Nat) : (draw w s).2.ports = s.ports := rfl
@[simp] theorem draw_tp (w : Nat) : (draw w s).2.tp = s.tp := rfl
@[simp] theorem draw_windows (w : Nat) : (draw w s).2.windows = s.windows := rfl
@[simp] theorem draw_genBase (w : Nat) : (draw w s).2.genBase = s.genBase := rfl
@[simp] theorem draw_gens (w : Nat) : (draw w s).2.gens = s.gens := rfl
@[simp] theorem draw_bins (w : Nat) : (draw w s).2.bins = s.bins := rfl
@[simp] theorem draw_chest (w : Nat) : (draw w s).2.chest = s.chest := rfl
@[simp] theorem draw_lcs (w : Nat) : (draw w s).2.lcs = s.lcs := rfl
@[simp] theorem draw_startCount (w : Nat) : (draw w s).2.startCount = s.startCount := rfl
@[simp] theorem draw_isl (w : Nat) : (draw w s).2.isl = s.isl := rfl
@[simp] theorem draw_pow (w : Nat) : (draw w s).2.pow = s.pow := rfl
@[simp] theorem draw_slices (w : Nat) : (draw w s).2.slices = s.slices := rfl
@[simp] theorem draw_stackTab (w : Nat) : (draw w s).2.stackTab = s.stackTab := rfl
@[simp] theorem draw_health (w : Nat) : (draw w s).2.health = s.health := rfl
@[simp] theorem draw_i3c (w : Nat) : (draw w s).2.i3c = s.i3c := rfl
@[simp] theorem draw_latch (w : Nat) : (draw w s).2.latch = s.latch := rfl

@[simp] theorem signal_pending (i v : Nat) : (signal i v s).pending = s.pending := by unfold signal; split <;> rfl
@[simp] theorem signal_clk (i v : Nat) : (signal i v s).clk = s.clk := by unfold signal; split <;> rfl
@[simp] theorem signal_draw (i v : Nat) : (signal i v s).draw = s.draw := by unfold signal; split <;> rfl
@[simp] theorem signal_mem (i v : Nat) : (signal i v s).mem = s.mem := by unfold signal; split <;> rfl
@[simp] theorem signal_marks (i v : Nat) : (signal i v s).marks = s.marks := by unfold signal; split <;> rfl
@[simp] theorem signal_cfg (i v : Nat) : (signal i v s).cfg = s.cfg := by unfold signal; split <;> rfl
@[simp] theorem signal_dev (i v : Nat) : (signal i v s).dev = s.dev := by unfold signal; split <;> rfl
@[simp] theorem signal_tim (i v : Nat) : (signal i v s).tim = s.tim := by unfold signal; split <;> rfl
@[simp] theorem signal_bays (i v : Nat) : (signal i v s).bays = s.bays := by unfold signal; split <;> rfl
@[simp] theorem signal_seqs (i v : Nat) : (signal i v s).seqs = s.seqs := by unfold signal; split <;> rfl
@[simp] theorem signal_qerrs (i v : Nat) : (signal i v s).qerrs = s.qerrs := by unfold signal; split <;> rfl
@[simp] theorem signal_queues (i v : Nat) : (signal i v s).queues = s.queues := by unfold signal; split <;> rfl
@[simp] theorem signal_shelves (i v : Nat) : (signal i v s).shelves = s.shelves := by unfold signal; split <;> rfl
@[simp] theorem signal_ports (i v : Nat) : (signal i v s).ports = s.ports := by unfold signal; split <;> rfl
@[simp] theorem signal_tp (i v : Nat) : (signal i v s).tp = s.tp := by unfold signal; split <;> rfl
@[simp] theorem signal_windows (i v : Nat) : (signal i v s).windows = s.windows := by unfold signal; split <;> rfl
@[simp] theorem signal_genBase (i v : Nat) : (signal i v s).genBase = s.genBase := by unfold signal; split <;> rfl
@[simp] theorem signal_gens (i v : Nat) : (signal i v s).gens = s.gens := by unfold signal; split <;> rfl
@[simp] theorem signal_bins (i v : Nat) : (signal i v s).bins = s.bins := by unfold signal; split <;> rfl
@[simp] theorem signal_chest (i v : Nat) : (signal i v s).chest = s.chest := by unfold signal; split <;> rfl
@[simp] theorem signal_lcs (i v : Nat) : (signal i v s).lcs = s.lcs := by unfold signal; split <;> rfl
@[simp] theorem signal_startCount (i v : Nat) : (signal i v s).startCount = s.startCount := by unfold signal; split <;> rfl
@[simp] theorem signal_isl (i v : Nat) : (signal i v s).isl = s.isl := by unfold signal; split <;> rfl
@[simp] theorem signal_pow (i v : Nat) : (signal i v s).pow = s.pow := by unfold signal; split <;> rfl
@[simp] theorem signal_slices (i v : Nat) : (signal i v s).slices = s.slices := by unfold signal; split <;> rfl
@[simp] theorem signal_stackTab (i v : Nat) : (signal i v s).stackTab = s.stackTab := by unfold signal; split <;> rfl
@[simp] theorem signal_health (i v : Nat) : (signal i v s).health = s.health := by unfold signal; split <;> rfl
@[simp] theorem signal_i3c (i v : Nat) : (signal i v s).i3c = s.i3c := by unfold signal; split <;> rfl
@[simp] theorem signal_latch (i v : Nat) : (signal i v s).latch = s.latch := by unfold signal; split <;> rfl

@[simp] theorem signalShelf_pending (k e : Nat) : (signalShelf k e s).pending = s.pending := by unfold signalShelf; split <;> simp
@[simp] theorem signalShelf_clk (k e : Nat) : (signalShelf k e s).clk = s.clk := by unfold signalShelf; split <;> simp
@[simp] theorem signalShelf_draw (k e : Nat) : (signalShelf k e s).draw = s.draw := by unfold signalShelf; split <;> simp
@[simp] theorem signalShelf_mem (k e : Nat) : (signalShelf k e s).mem = s.mem := by unfold signalShelf; split <;> simp
@[simp] theorem signalShelf_marks (k e : Nat) : (signalShelf k e s).marks = s.marks := by unfold signalShelf; split <;> simp
@[simp] theorem signalShelf_cfg (k e : Nat) : (signalShelf k e s).cfg = s.cfg := by unfold signalShelf; split <;> simp
@[simp] theorem signalShelf_dev (k e : Nat) : (signalShelf k e s).dev = s.dev := by unfold signalShelf; split <;> simp
@[simp] theorem signalShelf_tim (k e : Nat) : (signalShelf k e s).tim = s.tim := by unfold signalShelf; split <;> simp
@[simp] theorem signalShelf_bays (k e : Nat) : (signalShelf k e s).bays = s.bays := by unfold signalShelf; split <;> simp
@[simp] theorem signalShelf_seqs (k e : Nat) : (signalShelf k e s).seqs = s.seqs := by unfold signalShelf; split <;> simp
@[simp] theorem signalShelf_qerrs (k e : Nat) : (signalShelf k e s).qerrs = s.qerrs := by unfold signalShelf; split <;> simp
@[simp] theorem signalShelf_queues (k e : Nat) : (signalShelf k e s).queues = s.queues := by unfold signalShelf; split <;> simp
@[simp] theorem signalShelf_shelves (k e : Nat) : (signalShelf k e s).shelves = s.shelves := by unfold signalShelf; split <;> simp
@[simp] theorem signalShelf_ports (k e : Nat) : (signalShelf k e s).ports = s.ports := by unfold signalShelf; split <;> simp
@[simp] theorem signalShelf_tp (k e : Nat) : (signalShelf k e s).tp = s.tp := by unfold signalShelf; split <;> simp
@[simp] theorem signalShelf_windows (k e : Nat) : (signalShelf k e s).windows = s.windows := by unfold signalShelf; split <;> simp
@[simp] theorem signalShelf_genBase (k e : Nat) : (signalShelf k e s).genBase = s.genBase := by unfold signalShelf; split <;> simp
@[simp] theorem signalShelf_gens (k e : Nat) : (signalShelf k e s).gens = s.gens := by unfold signalShelf; split <;> simp
@[simp] theorem signalShelf_bins (k e : Nat) : (signalShelf k e s).bins = s.bins := by unfold signalShelf; split <;> simp
@[simp] theorem signalShelf_chest (k e : Nat) : (signalShelf k e s).chest = s.chest := by unfold signalShelf; split <;> simp
@[simp] theorem signalShelf_lcs (k e : Nat) : (signalShelf k e s).lcs = s.lcs := by unfold signalShelf; split <;> simp
@[simp] theorem signalShelf_startCount (k e : Nat) : (signalShelf k e s).startCount = s.startCount := by unfold signalShelf; split <;> simp
@[simp] theorem signalShelf_isl (k e : Nat) : (signalShelf k e s).isl = s.isl := by unfold signalShelf; split <;> simp
@[simp] theorem signalShelf_pow (k e : Nat) : (signalShelf k e s).pow = s.pow := by unfold signalShelf; split <;> simp
@[simp] theorem signalShelf_slices (k e : Nat) : (signalShelf k e s).slices = s.slices := by unfold signalShelf; split <;> simp
@[simp] theorem signalShelf_stackTab (k e : Nat) : (signalShelf k e s).stackTab = s.stackTab := by unfold signalShelf; split <;> simp
@[simp] theorem signalShelf_health (k e : Nat) : (signalShelf k e s).health = s.health := by unfold signalShelf; split <;> simp
@[simp] theorem signalShelf_i3c (k e : Nat) : (signalShelf k e s).i3c = s.i3c := by unfold signalShelf; split <;> simp
@[simp] theorem signalShelf_latch (k e : Nat) : (signalShelf k e s).latch = s.latch := by unfold signalShelf; split <;> simp

end Sys2Proof.Machine
end

