-- ==== Sys2Proof/Laws/Memory.lean ====
section
/-!
SUPPORT. Device memory: a read after a write, and the canonical form that every memory operation keeps.
-/
namespace Sys2Proof.Machine

/-! ### Reading -/

/-- The byte read after one byte was written. -/
theorem memGet_memPut (m : List Host.Cell) (a b : Nat) (v : Byte) : memGet (memPut m a v) b = if b = a then v else memGet m b := by
  unfold memPut memGet
  split
  · rename_i h
    rw [tget_tdel]
    split <;> simp [h]
  · exact tget_tput _ _ _ _ _

/-- The byte read after a byte string was written. -/
theorem memGet_memWrite (m : List Host.Cell) (a b : Nat) (bs : Bytes) :
    memGet (memWrite m a bs) b = if a ≤ b ∧ b < a + bs.length then bs.getD (b - a) 0 else memGet m b := by
  induction bs generalizing m a with
  | nil => simp only [memWrite, List.length_nil, Nat.add_zero]; rw [if_neg (by omega)]
  | cons x r ih =>
    simp only [memWrite, ih, memGet_memPut, List.length_cons]
    by_cases h1 : b = a
    · subst h1
      simp
    · by_cases h2 : a + 1 ≤ b ∧ b < a + 1 + r.length
      · rw [if_pos h2, if_pos (by omega)]
        obtain ⟨n, hn⟩ : ∃ n, b - a = n + 1 := ⟨b - a - 1, by omega⟩
        rw [hn, show b - (a + 1) = n by omega]
        simp
      · rw [if_neg h2, if_neg h1, if_neg (by omega)]

/-! ### The canonical form -/

/-- Every address listed is at least lo, the addresses rise, and no byte listed is zero. -/
def memFrom : Nat → List Host.Cell → Bool
  | _, [] => true
  | lo, (a, v) :: r => decide (lo ≤ a) && !(v == 0) && memFrom (a + 1) r

theorem memFrom_cons_wf (a : Nat) (v : Byte) (r : List Host.Cell) : memWf ((a, v) :: r) = (!(v == 0) && memFrom (a + 1) r) := by
  induction r generalizing a v with
  | nil => simp [memWf, memFrom]
  | cons e r ih =>
    obtain ⟨b, w⟩ := e
    simp only [memWf, memFrom, ih]
    by_cases h : a < b
    · simp [h, Nat.succ_le_of_lt h]
    · simp [h, show ¬ a + 1 ≤ b by omega]

/-- The canonical form is the form from address 0. -/
theorem memWf_iff (m : List Host.Cell) : memWf m = memFrom 0 m := by
  cases m with
  | nil => rfl
  | cons e r => obtain ⟨a, v⟩ := e; rw [memFrom_cons_wf]; simp [memFrom]

theorem memFrom_mono {lo hi : Nat} {m : List Host.Cell} (h : memFrom hi m = true) (hl : lo ≤ hi) : memFrom lo m = true := by
  cases m with
  | nil => rfl
  | cons e r =>
    obtain ⟨a, v⟩ := e
    simp only [memFrom, Bool.and_eq_true, decide_eq_true_eq] at h ⊢
    exact ⟨⟨by omega, h.1.2⟩, h.2⟩

theorem memFrom_filter {lo : Nat} {m : List Host.Cell} (p : Host.Cell → Bool) (h : memFrom lo m = true) : memFrom lo (m.filter p) = true := by
  induction m generalizing lo with
  | nil => exact h
  | cons e r ih =>
    obtain ⟨a, v⟩ := e
    simp only [memFrom, Bool.and_eq_true, decide_eq_true_eq] at h
    simp only [List.filter_cons]
    split
    · simp only [memFrom, Bool.and_eq_true, decide_eq_true_eq]
      exact ⟨h.1, ih h.2⟩
    · exact memFrom_mono (ih h.2) (by omega)

theorem memFrom_tput {lo : Nat} {m : List Host.Cell} (a : Nat) (v : Byte) (hv : v ≠ 0) (hl : lo ≤ a) (h : memFrom lo m = true) :
    memFrom lo (tput m a v) = true := by
  induction m generalizing lo with
  | nil => simp only [tput, memFrom, Bool.and_true, Bool.and_eq_true, decide_eq_true_eq]; exact ⟨hl, by simpa using hv⟩
  | cons e r ih =>
    obtain ⟨b, w⟩ := e
    simp only [memFrom, Bool.and_eq_true, decide_eq_true_eq] at h
    simp only [tput]
    split
    · simp only [memFrom, Bool.and_eq_true, decide_eq_true_eq]
      exact ⟨⟨hl, by simpa using hv⟩, ⟨by omega, h.1.2⟩, h.2⟩
    · split
      · rename_i hb
        subst hb
        simp only [memFrom, Bool.and_eq_true, decide_eq_true_eq]
        exact ⟨⟨hl, by simpa using hv⟩, h.2⟩
      · simp only [memFrom, Bool.and_eq_true, decide_eq_true_eq]
        exact ⟨h.1, ih (by omega) h.2⟩

theorem memWf_filter {m : List Host.Cell} (p : Host.Cell → Bool) (h : memWf m = true) : memWf (m.filter p) = true := by
  rw [memWf_iff] at *; exact memFrom_filter p h

theorem memWf_memPut {m : List Host.Cell} (a : Nat) (v : Byte) (h : memWf m = true) : memWf (memPut m a v) = true := by
  unfold memPut tdel
  split
  · exact memWf_filter _ h
  · rw [memWf_iff] at *; exact memFrom_tput a v ‹_› (Nat.zero_le _) h

theorem memWf_memWrite {m : List Host.Cell} (a : Nat) (bs : Bytes) (h : memWf m = true) : memWf (memWrite m a bs) = true := by
  induction bs generalizing m a with
  | nil => exact h
  | cons b r ih => exact ih (a + 1) (memWf_memPut a b h)

theorem memWf_memZero {s : State} (a n : Nat) (h : memWf s.mem = true) : memWf (memZero s a n).mem = true := memWf_filter _ h

/-- Memory after reset is in its canonical form. -/
theorem memWf_reset : memWf State.reset.mem = true := rfl

/-! ### What the counting of errors leaves alone -/

/-- A fold whose every step keeps a fact keeps it. -/
theorem foldl_keeps {α β : Type} (P : β → Prop) (f : β → α → β) (l : List α) (b : β) (h : P b) (hf : ∀ b a, P b → P (f b a)) :
    P (l.foldl f b) := by
  induction l generalizing b with
  | nil => exact h
  | cons a r ih => exact ih (f b a) (hf b a h)

theorem foldl_mem {α : Type} (f : State → α → State) (l : List α) (s : State) (hf : ∀ s a, (f s a).mem = s.mem) :
    (l.foldl f s).mem = s.mem := by
  induction l generalizing s with
  | nil => rfl
  | cons a r ih => exact (ih _).trans (hf s a)

@[simp] theorem unmark_mem (l : Nat) (s : State) : (unmark l s).mem = s.mem := rfl

@[simp] theorem mark_mem (l : Nat) (m : LineMark) (s : State) : (mark l m s).mem = s.mem := rfl

@[simp] theorem deviceEvent_mem (n en v : Nat) (s : State) : (deviceEvent n en v s).mem = s.mem := by
  unfold deviceEvent
  split
  · rfl
  · simp only
    split <;> simp

@[simp] theorem i3cEvent_mem (b : Nat) (s : State) : (i3cEvent b s).mem = s.mem := by
  unfold i3cEvent; split <;> rfl

@[simp] theorem alertEvent_mem (n u : Nat) (s : State) : (alertEvent n u s).mem = s.mem := by
  unfold alertEvent
  simp only
  split <;> simp

@[simp] theorem journalEvent_mem (s : State) : (journalEvent s).mem = s.mem := deviceEvent_mem _ _ _ _

@[simp] theorem addRepair_mem (f : Repairs → Repairs) (s : State) : (addRepair f s).mem = s.mem := by simp [addRepair]

@[simp] theorem onOwner_mem (d : Nat) (f : Counts → Counts) (s : State) : (onOwner d f s).mem = s.mem := by
  unfold onOwner; split <;> simp

@[simp] theorem listRow_mem (d : Nat) (s : State) : (listRow d s).mem = s.mem := by
  unfold listRow
  simp only
  split
  · rfl
  · split <;> simp

@[simp] theorem fencePcs_mem (k m : Nat) (s : State) : (fencePcs k m s).mem = s.mem := by
  unfold fencePcs
  simp only
  have h := foldl_mem (fun s p =>
    let s := s.onStack k (fun x => { x with fenced := x.fenced + 2 ^ p })
    let s := addRepair (fun r => { r with pcs := addTo (k * 64 + p) r.pcs }) s
    match pcOwner s (k * 64 + p) with
    | none => s
    | some i => s.onShelf i (fun h => { h with state := .fenced, rcv := { h.rcv with state := .fenced, fault := true } }))
    ((List.range 64).filter (fun p => nbit m p && !nbit (s.stack k).fenced p)) s
    (by intro s p; simp only; split <;> simp)
  split
  · exact h
  · rw [alertEvent_mem]; exact h

@[simp] theorem celError_mem (d : Nat) (b : Bool) (s : State) : (celError d b s).mem = s.mem := by
  unfold celError
  simp only
  split <;> split <;> simp

@[simp] theorem loftError_mem (d : Nat) (b : Bool) (s : State) : (loftError d b s).mem = s.mem := by
  unfold loftError
  simp only
  split <;> simp

@[simp] theorem noteCorrected_mem (d : Nat) (s : State) : (noteCorrected d s).mem = s.mem := by
  unfold noteCorrected
  simp only
  split
  · simp
  · split <;> simp

@[simp] theorem noteBad_mem (d : Nat) (s : State) : (noteBad d s).mem = s.mem := by
  unfold noteBad
  simp only
  split
  · simp
  · split <;> simp

@[simp] theorem notePoison_mem (d : Nat) (s : State) : (notePoison d s).mem = s.mem := by
  unfold notePoison
  simp only
  split
  · simp
  · split <;> simp

@[simp] theorem noteLine_mem (d : Nat) (s : State) : (noteLine d s).mem = s.mem := by
  unfold noteLine
  split
  · rfl
  · split <;> simp

/-- Counting what a read meets leaves every byte. -/
@[simp] theorem noteRead_mem (k a n : Nat) (s : State) : (noteRead k a n s).mem = s.mem := by
  unfold noteRead
  simp only
  split
  · exact foldl_mem _ _ _ (fun s d => noteLine_mem d s)
  · rw [noteLine_mem]; exact foldl_mem _ _ _ (fun s d => noteLine_mem d s)

@[simp] theorem noteBlocks_mem (k : Nat) (l : List (Nat × Nat)) (s : State) : (noteBlocks k l s).mem = s.mem :=
  foldl_mem _ _ _ (fun s b => noteRead_mem k b.1 b.2 s)

/-! ### What every write through the address map does to memory -/

/-- What putLine does to memory: it writes the bytes, or nothing (R423, R435). -/
theorem putLine_mem (d : Nat) (bs : Bytes) (s : State) : (putLine d bs s).mem = memWrite s.mem d bs ∨ (putLine d bs s).mem = s.mem := by
  unfold putLine
  split
  · exact .inr rfl
  · split
    · exact .inl rfl
    · split
      · exact .inl rfl
      · left; simp
      · right; simp
      · right; simp

theorem putLine_wf (d : Nat) (bs : Bytes) (s : State) (h : memWf s.mem = true) : memWf (putLine d bs s).mem = true := by
  rcases putLine_mem d bs s with e | e <;> rw [e]
  · exact memWf_memWrite d bs h
  · exact h

theorem dwriteAux_wf (f : Nat) (s : State) (d : Nat) (bs : Bytes) (h : memWf s.mem = true) : memWf (dwriteAux f s d bs).mem = true := by
  induction f generalizing s d bs with
  | zero => exact h
  | succ f ih =>
    unfold dwriteAux
    split
    · exact h
    · exact ih _ _ _ (putLine_wf _ _ _ h)

theorem dwrite_wf (s : State) (d : Nat) (bs : Bytes) (h : memWf s.mem = true) : memWf (dwrite s d bs).mem = true := dwriteAux_wf _ _ _ _ h

theorem vwriteAux_wf (f : Nat) (s : State) (k a : Nat) (bs : Bytes) (h : memWf s.mem = true) : memWf (vwriteAux f s k a bs).mem = true := by
  induction f generalizing s a bs with
  | zero => exact h
  | succ f ih =>
    unfold vwriteAux
    split
    · exact h
    · apply ih
      split
      · exact putLine_wf _ _ _ h
      · exact h

theorem vwrite_wf (s : State) (k a : Nat) (bs : Bytes) (h : memWf s.mem = true) : memWf (vwrite s k a bs).mem = true := vwriteAux_wf _ _ _ _ _ h

@[simp] theorem vpoison_mem (s : State) (k a n : Nat) : (vpoison s k a n).mem = s.mem := by
  unfold vpoison
  exact foldl_mem _ _ _ (by intro s x; split <;> rfl)

theorem vzero_wf (s : State) (k a n : Nat) (h : memWf s.mem = true) : memWf (vzero s k a n).mem = true := by
  unfold vzero
  refine foldl_keeps (fun (s : State) => memWf s.mem = true) _ _ _ h ?_
  intro s x hs
  split
  · exact memWf_memZero _ _ hs
  · exact hs

end Sys2Proof.Machine
end

