-- ==== Sys2Proof/Laws/Kis.lean ====
section
/-!
SUPPORT. What the shared step of the sequencers does: when an instruction runs, what retiring with a register write leaves, where a branch and
a fault go.
-/
namespace Sys2Proof.Machine

/-! ### When an instruction runs -/

/-- A word without error is fetched with no effect. -/
@[simp] theorem fetched_sound {q : Nat} {s : State} (h : fixedAt s q = false) : fetched q s = s := by
  unfold fetched; split
  · rfl
  · simp [h]

theorem kis_runs {q : Nat} {w : Word} {p : Pred} {f : State → State} {s : State} (h : Runs s q w p) : kis q w p f s = f s := by
  simp [kis, h.1, h.2.1, h.2.2]

theorem kis_off {q : Nat} {w : Word} {p : Pred} {f : State → State} {s : State} (h : atWord s q w = true) (hf : fixedAt s q = false)
    (hp : predHolds p (s.seq q) = false) : kis q w p f s = retireWith q id s := by
  simp [kis, h, hp, hf]

theorem kis_not_at {q : Nat} {w : Word} {p : Pred} {f : State → State} {s : State} (h : atWord s q w = false) : kis q w p f s = s := by
  simp [kis, h]

/-! ### Registers -/

/-- A g register after a write of one. -/
theorem gr_setG (x : Seq) (d r : BitVec 5) (v : Word) : (x.setG d v).gr r = if r = d then (if d = 0 then 0 else v) else x.gr r := by
  unfold Seq.setG Seq.gr
  by_cases hd : d = 0
  · by_cases hr : r = d
    · rw [if_pos hr, if_pos hd, if_pos (hr.trans hd), if_pos hd]
    · rw [if_neg hr, if_pos hd]
  · rw [if_neg hd]
    by_cases hr : r = d
    · rw [if_pos hr, if_neg hd, if_neg (hr ▸ hd), hr]
      exact tget_tput_same _ _ _ _
    · rw [if_neg hr]
      have : r.toNat ≠ d.toNat := fun h => hr (BitVec.eq_of_toNat_eq h)
      simp only [tget_tput_other _ _ _ _ _ this]

/-- A write of a g register changes that register file alone. -/
theorem setG_eq (x : Seq) (d : BitVec 5) (v : Word) : x.setG d v = { x with g := (x.setG d v).g } := by
  unfold Seq.setG; split <;> rfl

theorem pow_bit (i j : Nat) (hi : i < 8) : (BitVec.ofNat 8 (2 ^ i)).getLsbD j = decide (i = j) := by
  interval_cases i <;> by_cases hj : j < 8
  all_goals first
    | (interval_cases j <;> decide)
    | (rw [BitVec.getLsbD_of_ge _ _ (by omega)]; simp; omega)

/-- A p register after a write of one. -/
theorem pr_setP (x : Seq) (d r : Nat) (v : Bool) (hd : d < 8) (hr8 : r < 8) :
    (x.setP d v).pr r = if r = d then (if d = 0 then true else v) else x.pr r := by
  unfold Seq.setP Seq.pr
  by_cases h0 : d = 0
  · subst h0; by_cases hr : r = 0 <;> simp [hr]
  · have hb := pow_bit d r hd
    rw [if_neg h0]
    generalize BitVec.ofNat 8 (2 ^ d) = m at hb
    cases v <;> by_cases hr : r = d
    · subst hr; simp [h0, hb, hr8]
    · have hm : m[r] = false := by rw [← BitVec.getLsbD_eq_getElem, hb]; simpa using Ne.symm hr
      simp [hr, hr8, hm]
    · subst hr; simp [h0, hb, hr8]
    · simp [hr, hb, Ne.symm hr]

theorem setP_eq (x : Seq) (d : Nat) (v : Bool) : x.setP d v = { x with p := (x.setP d v).p } := by
  unfold Seq.setP; split <;> rfl

/-- A d register after a write of one. -/
theorem dr_setD (x : Seq) (d r : BitVec 5) (v : VDesc) : (x.setD d v).dr r = if r = d then v else x.dr r := by
  unfold Seq.setD Seq.dr
  by_cases hr : r = d
  · simp [hr]
  · rw [if_neg hr]
    have : r.toNat ≠ d.toNat := fun h => hr (BitVec.eq_of_toNat_eq h)
    simp only [tget_tput_other _ _ _ _ _ this]

/-! ### Retiring with a register write -/

theorem onlySeq_onSeq (q : Nat) (f : Seq → Seq) (s : State) : OnlySeq q s (s.onSeq q f) :=
  ⟨rfl, fun r h => State.onSeq_seq_other s q r f h⟩

@[simp] theorem retireWith_seq (q : Nat) (f : Seq → Seq) (s : State) : (retireWith q f s).seq q = (f (s.seq q)).retire := by simp [retireWith]

theorem onlySeq_retireWith (q : Nat) (f : Seq → Seq) (s : State) : OnlySeq q s (retireWith q f s) := onlySeq_onSeq _ _ _

/-- Retiring with a write of gD meets WritesG. -/
theorem writesG_retireWith (q : Nat) (d : BitVec 5) (f : Seq → Word) (s : State) :
    WritesG q d (f (s.seq q)) s (retireWith q (fun x => x.setG d (f x)) s) := by
  have hgr : ∀ r, ((retireWith q (fun x => x.setG d (f x)) s).seq q).gr r = ((s.seq q).setG d (f (s.seq q))).gr r := by
    intro r; rw [retireWith_seq]; rfl
  refine ⟨onlySeq_retireWith _ _ _, ?_, ?_, ?_, ?_⟩
  · rw [retireWith_seq, setG_eq]; exact ⟨rfl, rfl, rfl, rfl⟩
  · rw [retireWith_seq, setG_eq]; rfl
  · rw [hgr, gr_setG]; simp
  · intro r h; rw [hgr, gr_setG, if_neg h]

/-- Retiring with a write of pD meets WritesP. -/
theorem writesP_retireWith (q d : Nat) (hd : d < 8) (f : Seq → Bool) (s : State) :
    WritesP q d (f (s.seq q)) s (retireWith q (fun x => x.setP d (f x)) s) := by
  have hpr : ∀ r, ((retireWith q (fun x => x.setP d (f x)) s).seq q).pr r = ((s.seq q).setP d (f (s.seq q))).pr r := by
    intro r; rw [retireWith_seq]; rfl
  refine ⟨onlySeq_retireWith _ _ _, ?_, ?_, ?_, ?_⟩
  · rw [retireWith_seq, setP_eq]; exact ⟨rfl, rfl, rfl, rfl⟩
  · rw [retireWith_seq, setP_eq]; rfl
  · rw [hpr, pr_setP _ _ _ _ hd hd]; simp
  · intro r h8 h; rw [hpr, pr_setP _ _ _ _ hd h8, if_neg h]

/-- Retiring with a write of dD meets WritesD. -/
theorem writesD_retireWith (q : Nat) (d : BitVec 5) (f : Seq → VDesc) (s : State) :
    WritesD q d (f (s.seq q)) s (retireWith q (fun x => x.setD d (f x)) s) := by
  have hdr : ∀ r, ((retireWith q (fun x => x.setD d (f x)) s).seq q).dr r = ((s.seq q).setD d (f (s.seq q))).dr r := by
    intro r; rw [retireWith_seq]; rfl
  refine ⟨onlySeq_retireWith _ _ _, ?_, ?_, ?_, ?_⟩
  · rw [retireWith_seq]; exact ⟨rfl, rfl, rfl, rfl⟩
  · rw [retireWith_seq]; rfl
  · rw [hdr, dr_setD]; simp
  · intro r h; rw [hdr, dr_setD, if_neg h]

/-! ### Faults and branches -/

/-- A fault with a handler enabled: the sequencer goes to the handler, and nothing else changes (R318). -/
theorem raise_handled (q cause : Nat) (addr : Word) (trap : Nat) (s : State) (h1 : (s.seq q).hmode = false) (h2 : (s.seq q).evec.getLsbD 0 = true) :
    raise q cause addr trap s = s.onSeq q (fun x => { x with
      epc := BitVec.ofNat 64 x.pc, ecause := ecauseWord cause trap, eaddr := addr, wait := .none, hmode := true, run := .running
      pc := bits x.evec 16 3 * 8 }) := by
  unfold raise
  simp only [h1, bit, h2, Bool.not_false, Bool.and_self, if_true]
  rfl

/-- A branch to a legal target (R309). -/
theorem branch_legal (q : Nat) (t : Word) (f : Seq → Seq) (s : State) (h : t.toNat % 8 = 0 ∧ t.toNat < textLen s q) :
    branch q t f s = s.onSeq q (fun x => { (f x).retire with pc := t.toNat }) := if_pos h

/-- A branch to any other target (R309). -/
theorem branch_illegal (q : Nat) (t : Word) (f : Seq → Seq) (s : State) (h : ¬(t.toNat % 8 = 0 ∧ t.toNat < textLen s q)) :
    branch q t f s = raise q cFetch t 0 s := if_neg h

/-- A word that an instruction runs at is a defined instruction. -/
theorem Runs.ok {s : State} {q : Nat} {w : Word} {p : Pred} (h : Runs s q w p) : wordOk w = true := by
  have := h.1
  simp only [atWord, Bool.and_eq_true] at this
  exact this.1.1

theorem Runs.running {s : State} {q : Nat} {w : Word} {p : Pred} (h : Runs s q w p) : (s.seq q).run = .running := by
  have := h.1
  simp only [atWord, Bool.and_eq_true, beq_iff_eq] at this
  exact this.1.2

theorem Runs.fetched {s : State} {q : Nat} {w : Word} {p : Pred} (h : Runs s q w p) : fetch s q = .word w := by
  have := h.1
  simp only [atWord, Bool.and_eq_true, beq_iff_eq] at this
  exact this.2

end Sys2Proof.Machine
end

