-- ==== Sys2Proof/Tests/Slice0.lean ====
section
/-!
SUPPORT. Tests: for each check of well-formedness a term that it refuses; for each claim with hypotheses a concrete state and operands that meet
them (the theorems wit_ and the claim's name). Expected values come from the manual.
-/

set_option Elab.async false

open Sys2Proof Sys2Proof.Machine

namespace Sys2Proof.Tests

/-! ### Ill-formed commands, one for each check -/

/-- A start that finds nothing wrong (R529). -/
def finds : Finds :=
  { card := false, romOk := true, trngOk := true, trngExtOk := true, rootOk := true, islandOk := true, pllOk := true, bonds := [], rows := [], cols := []
    slices := [], seqs := [], pipes := [], bays := [], rates := [0, 0, 0, 0, 0, 0, 0, 0], channels := [], lanes := [], flit := true, rate := 6, width := 16
    mirrorOk := true, healthOk := true, measureOk := true, attestOk := true, times := [] }

/-- Always true: predicate p0. -/
def yes : Pred := { qp := 0, qn := false }

theorem test_ill_finds : illOf (.powerOn { finds with bays := [17] }) = [.finds] := by decide
theorem test_ill_sensor : illOf (.tamperAlarm 5 .none) = [.sensor] := by decide
theorem test_ill_bay_number : illOf (.oppStep 17) = [.physicalBay] := by decide
theorem test_ill_channel : illOf (.ackReceive 64 true []) = [.channel] := by decide
theorem test_ill_shelf : illOf (.freeze 8) = [.shelf] := by decide
theorem test_ill_ring : illOf (.recordDeliver 0 64) = [.ring] := by decide
theorem test_ill_bay : illOf (.segmentRetraction 16) = [.bay] := by decide
theorem test_ill_cask : illOf (.caskDisable 0 64) = [.cask] := by decide
theorem test_ill_sequencer : illOf (.nop 64 yes) = [.sequencer] := by decide
theorem test_ill_queue : illOf (.foldA 0 12) = [.queue] := by decide
theorem test_ill_slot : illOf (.refreshStageDone 0 8) = [.slot] := by decide
theorem test_ill_peer : illOf (.verifierFlush 0 16) = [.peer] := by decide
theorem test_ill_field : illOf (.slli 0 yes 1 1 64) = [.field] := by decide
theorem test_ill_signed_doubleword : illOf (.ld 0 yes 3 true 1 1 0) = [.field] := by decide
theorem test_ill_predicate : illOf (.pset 0 yes 8 true) = [.predicate] := by decide
theorem test_ill_descriptor : illOf (.dadv 0 yes 16 1) = [.descriptor] := by decide
theorem test_ill_path : illOf (.pathSuspectEnd 0 8) = [.path] := by decide
theorem test_ill_function : illOf (.info 9) = [.function] := by decide
theorem test_ill_aperture : illOf (.bar2Read 0 (2 ^ 39) 8 none) = [.aperture] := by decide
theorem test_ill_own_command : illOf (.registerWrite 0 0x100 8 1 none) = [.ownCommand] := by decide
theorem test_ill_ide_stream : illOf (.ideIntegrityFailure 9) = [.ideStream] := by decide
theorem test_ill_line : illOf (.patrolScrubLine (576 * 2 ^ 24)) = [.line] := by decide
theorem test_ill_mechanism : illOf (.wearSample 7 0 0 0) = [.mechanism] := by decide
theorem test_ill_link : illOf (.pcieLinkUp true 2 16) = [.link] := by decide
theorem test_wf_command : Instr.wf (.add 63 yes 31 0 1) = true := by decide

/-! ### A shelf, and a sequencer about to execute a word -/

/-- The descriptor of a shelf of bays 0 and 1 with one Cellar pseudo-channel. -/
def desc0 : ShelfDesc := { bayPairs := 1, pcs := [0], contexts := 2 }

/-- A shelf with a program of one word and one more. -/
def shelf0 (w : Word) : Shelf := { desc := some desc0, prog := { text := [w, w] } }

/-- Shelf 0 alone, whose sequencer 0 is x and finds the word w. -/
def at0 (w : Word) (x : Seq) : State := { shelves := [(0, shelf0 w)], seqs := [(0, x)] }

/-- A running sequencer with a handler at 8, g2 at the bay store's start, g3 0. -/
def x0 : Seq := { run := .running, evec := 9, g := [(1, 1), (2, 0x110_0000_0000)] }

theorem shelfOf_at0 (w : Word) (x : Seq) : shelfOf (at0 w x) 0 = some 0 := rfl

theorem runs_at0 {w : Word} {x : Seq} {p : Pred} (h : wordOk w = true) (hr : x.run = .running) (hp : x.pc = 0) (hq : predHolds p x = true) :
    Runs (at0 w x) 0 w p := by
  refine ⟨?_, rfl, hq⟩
  have hf : fetch (at0 w x) 0 = .word w := by
    show (match ([w, w] : List Word)[x.pc / 8]? with | none => Fetch.past | some v => Fetch.word v) = _
    rw [hp]; rfl
  have hs : (at0 w x).seq 0 = x := rfl
  simp [atWord, h, hf, hs, hr]

/-- Sequencer 0 of that shelf, in its state x0, executes a defined word. -/
theorem runs_x0 {w : Word} (h : wordOk w = true) : Runs (at0 w x0) 0 w yes := runs_at0 h rfl rfl rfl

/-! ### Sequencer instructions -/

theorem wit_ScalarRegisterResults :
    (∀ m ≤ 0x0F, Runs (at0 (wordR 0x01 m yes 31 0 31) x0) 0 (wordR 0x01 m yes 31 0 31) yes) ∧
    Runs (at0 (wordR 0x01 0x10 yes 31 1 0) x0) 0 (wordR 0x01 0x10 yes 31 1 0) yes ∧
    Runs (at0 (wordR 0x01 0x11 yes 31 1 0) x0) 0 (wordR 0x01 0x11 yes 31 1 0) yes :=
  ⟨fun m h => runs_x0 (by revert m; decide), runs_x0 (by decide), runs_x0 (by decide)⟩

theorem wit_ScalarImmediateResults :
    (∀ m ≤ 0x08, m ≠ 1 → Runs (at0 (wordI 0x02 m yes 31 1 63) x0) 0 (wordI 0x02 m yes 31 1 63) yes) ∧
    Runs (at0 (wordI 0x03 0x00 yes 31 0 0xFFFFFFFF) x0) 0 (wordI 0x03 0x00 yes 31 0 0xFFFFFFFF) yes ∧
    (∀ k : BitVec 2, Runs (at0 (wordI 0x03 (k.toNat + 1) yes 31 0 0xFFFF) x0) 0 (wordI 0x03 (k.toNat + 1) yes 31 0 0xFFFF) yes) :=
  ⟨fun m h h1 => runs_x0 (by revert m; decide), runs_x0 (by decide), fun k => runs_x0 (by revert k; decide)⟩

theorem wit_PredicateResults :
    (∀ m ≤ 0x05, Runs (at0 (wordR 0x04 m yes 7 0 1) x0) 0 (wordR 0x04 m yes 7 0 1) yes ∧
      Runs (at0 (wordI 0x05 m yes 7 0 1) x0) 0 (wordI 0x05 m yes 7 0 1) yes) ∧
    (∀ m ≤ 0x02, Runs (at0 (wordR 0x06 m yes 7 0 1) x0) 0 (wordR 0x06 m yes 7 0 1) yes) ∧
    Runs (at0 (wordR 0x06 0x03 yes 7 0 0) x0) 0 (wordR 0x06 0x03 yes 7 0 0) yes ∧
    (∀ v : Bool, Runs (at0 (wordI 0x06 0x04 yes 7 0 (if v then 1 else 0)) x0) 0 (wordI 0x06 0x04 yes 7 0 (if v then 1 else 0)) yes) ∧
    Runs (at0 (wordR 0x06 0x05 yes 31 0 0) x0) 0 (wordR 0x06 0x05 yes 31 0 0) yes ∧
    Runs (at0 (wordR 0x06 0x06 yes 0 31 0) x0) 0 (wordR 0x06 0x06 yes 0 31 0) yes :=
  ⟨fun m h => ⟨runs_x0 (by revert m; decide), runs_x0 (by revert m; decide)⟩, fun m h => runs_x0 (by revert m; decide), runs_x0 (by decide),
    fun v => runs_x0 (by revert v; decide), runs_x0 (by decide), runs_x0 (by decide)⟩

/-- The target of a branch by imm words from 0. -/
def target (imm : BitVec 32) : Word := BitVec.ofNat 64 0 + 8 * imm.signExtend 64

theorem wit_BranchResults :
    (∀ m ≤ 1, Runs (at0 (wordI 0x10 m yes 0 0 1) x0) 0 (wordI 0x10 m yes 0 0 1) yes ∧
      (target 1).toNat % 8 = 0 ∧ (target 1).toNat < textLen (at0 (wordI 0x10 m yes 0 0 1) x0) 0) ∧
    (∀ m, m = 2 ∨ m = 3 → Runs (at0 (wordR 0x10 m yes 0 3 0) x0) 0 (wordR 0x10 m yes 0 3 0) yes ∧
      (x0.gr 3).toNat % 8 = 0 ∧ (x0.gr 3).toNat < textLen (at0 (wordR 0x10 m yes 0 3 0) x0) 0) := by
  refine ⟨fun m h => ⟨runs_x0 (by revert m; decide), by decide, by show _ < 16; decide⟩, fun m h => ⟨runs_x0 ?_, by decide, by show _ < 16; decide⟩⟩
  rcases h with rfl | rfl <;> decide

theorem wit_BranchFaults :
    x0.hmode = false ∧ x0.evec.getLsbD 0 = true ∧
    (∀ m ≤ 1, Runs (at0 (wordI 0x10 m yes 0 0 2) x0) 0 (wordI 0x10 m yes 0 0 2) yes ∧
      ¬((target 2).toNat % 8 = 0 ∧ (target 2).toNat < textLen (at0 (wordI 0x10 m yes 0 0 2) x0) 0)) ∧
    (∀ m, m = 2 ∨ m = 3 → Runs (at0 (wordR 0x10 m yes 0 1 0) x0) 0 (wordR 0x10 m yes 0 1 0) yes ∧
      ¬((x0.gr 1).toNat % 8 = 0 ∧ (x0.gr 1).toNat < textLen (at0 (wordR 0x10 m yes 0 1 0) x0) 0)) ∧
    textLen (at0 0 { x0 with pc := 16 }) 0 ≤ ({ x0 with pc := 16 } : Seq).pc := by
  refine ⟨rfl, rfl, fun m h => ⟨runs_x0 (by revert m; decide), by show ¬(_ ∧ _ < 16); decide⟩, fun m h => ⟨runs_x0 ?_, by show ¬(_ ∧ _ < 16); decide⟩, by decide⟩
  rcases h with rfl | rfl <;> decide

/-- A sequencer whose p1 is 0, about to execute a word under p1. -/
def p1 : Pred := { qp := 1, qn := false }

theorem wit_PredicatedOff :
    (∀ w ∈ [wordR 0x01 0x00 p1 1 2 3, wordR 0x01 0x0A p1 1 2 3, wordI 0x02 0x00 p1 1 2 3, wordI 0x03 0x00 p1 1 0 3, wordR 0x04 0x02 p1 1 2 3,
        wordR 0x06 0x00 p1 1 2 3, wordI 0x08 0x03 p1 1 2 3, wordI 0x09 0x03 p1 1 2 3, wordR 0x0A 0x00 p1 1 2 3, wordR 0x0B 0x00 p1 0 0 0,
        wordI 0x10 0x00 p1 0 0 3, wordR 0x10 0x03 p1 0 2 0, wordI 0x18 0x00 p1 1 2 3, wordR 0x18 0x04 p1 1 2 0, wordI 0x20 0x00 p1 1 0 0,
        wordI 0x20 0x01 p1 0 2 8, wordR 0x28 0x01 p1 1 2 3, wordI 0x30 1 p1 0 2 3, wordR 0x31 0x11 p1 1 2 3, wordR 0x38 0x01 p1 0 2 0,
        wordR 0x39 0x00 p1 1 0 0, wordI 0x3F 0x02 p1 0 0 3, wordR 0x3F 0x03 p1 0 0 0, wordR 0x3F 0x04 p1 0 2 0, wordR 0x3F 0x01 p1 0 0 0],
      wordOk w = true) ∧
    (∀ w, wordOk w = true → predHolds p1 ((at0 w x0).seq 0) = false ∧ atWord (at0 w x0) 0 w = true ∧ fixedAt (at0 w x0) 0 = false) :=
  ⟨by repeat (first | exact List.forall_mem_nil _ | refine List.forall_mem_cons.2 ⟨by decide, ?_⟩), fun _ h => ⟨by show predHolds p1 x0 = false; decide, (runs_x0 h).1, rfl⟩⟩

theorem wit_DescriptorRegisterResults :
    (∀ f : BitVec 4, f.toNat ≤ 8 → Runs (at0 (wordI 0x18 0x02 yes 31 15 (f.zeroExtend 32)) x0) 0 (wordI 0x18 0x02 yes 31 15 (f.zeroExtend 32)) yes ∧
      Runs (at0 (wordI 0x18 0x03 yes 15 31 (f.zeroExtend 32)) x0) 0 (wordI 0x18 0x03 yes 15 31 (f.zeroExtend 32)) yes) ∧
    Runs (at0 (wordR 0x18 0x04 yes 15 1 0) x0) 0 (wordR 0x18 0x04 yes 15 1 0) yes ∧
    Runs (at0 (wordR 0x18 0x05 yes 15 0 0) x0) 0 (wordR 0x18 0x05 yes 15 0 0) yes ∧
    (8 < (9 : BitVec 4).toNat ∧ x0.hmode = false ∧ x0.evec.getLsbD 0 = true ∧ x0.run = .running ∧
      fixedAt (at0 (wordI 0x18 0x02 yes 1 1 9) x0) 0 = false ∧
      fetch (at0 (wordI 0x18 0x02 yes 1 1 9) x0) 0 = .word (wordI 0x18 0x02 yes 1 1 9)) :=
  ⟨fun f h => ⟨runs_x0 (by revert f; decide), runs_x0 (by revert f; decide)⟩, runs_x0 (by decide), runs_x0 (by decide), by decide, rfl, rfl, rfl, rfl, rfl⟩

/-- The same shelf in a round, with schedule entry 255 armed at epoch time 5. -/
def atR (w : Word) (x : Seq) : State :=
  { shelves := [(0, { shelf0 w with round := { active := true }, sched := [(255, { kind := 1, time := 5 })] })], seqs := [(0, x)] }

theorem runs_atR {w : Word} (h : wordOk w = true) : Runs (atR w x0) 0 w yes := ⟨by show (wordOk w && _ && (_ == Fetch.word w)) = true; rw [h]; simp [fetch, State.seq, atR, tget, x0]; rfl, rfl, rfl⟩

theorem wit_ControlReadResults (w : Word) :
    shelfOf (at0 w x0) (0 / 4) = some 0 ∧ shelfOf (atR w x0) (0 / 4) = some 0 ∧
    (∀ j ∈ [0x00, 0x02, 0x03, 0x04, 0x05, 0x08, 0x09, 0x0A, 0x0B, 0x0C, 0x10, 0x11, 0x12, 0x13],
      Runs (at0 (wordI 0x20 0x00 yes 31 0 (BitVec.ofNat 32 j)) x0) 0 (wordI 0x20 0x00 yes 31 0 (BitVec.ofNat 32 j)) yes) ∧
    (∀ n ≤ 11, Runs (at0 (wordR 0x31 n yes 31 0 0) x0) 0 (wordR 0x31 n yes 31 0 0) yes) ∧
    Runs (at0 (wordR 0x38 0x00 yes 31 0 0) x0) 0 (wordR 0x38 0x00 yes 31 0 0) yes ∧
    ((tget {} ((atR w x0).shelf 0).sched 255).kind ≠ 0 ∧ Runs (atR (wordI 0x38 0x03 yes 31 0 255) x0) 0 (wordI 0x38 0x03 yes 31 0 255) yes) ∧
    (((atR w x0).shelf 0).round.active = true ∧ ((atR w x0).shelf 0).prog.service = false ∧
      Runs (atR (wordR 0x39 0x01 yes 31 0 0) x0) 0 (wordR 0x39 0x01 yes 31 0 0) yes) ∧
    Runs (at0 (wordR 0x3F 0x00 yes 0 0 0) x0) 0 (wordR 0x3F 0x00 yes 0 0 0) yes :=
  ⟨rfl, rfl, fun j h => runs_x0 (by revert j; decide), fun n h => runs_x0 (by revert n; decide), runs_x0 (by decide), ⟨by show (1 : Nat) ≠ 0; decide, runs_atR (by decide)⟩,
    ⟨rfl, rfl, runs_atR (by decide)⟩, runs_x0 (by decide)⟩

theorem wit_ControlWriteResults :
    (∀ j : BitVec 8, Runs (at0 (wordI 0x20 0x01 yes 0 1 (j.zeroExtend 32)) x0) 0 (wordI 0x20 0x01 yes 0 1 (j.zeroExtend 32)) yes) ∧
    (¬((0x0A : BitVec 8) = 0x08 ∨ (0x0A : BitVec 8) = 0x09 ∨ (0x0A : BitVec 8) = 0x0C ∨
      (0x10 ≤ (0x0A : BitVec 8).toNat ∧ (0x0A : BitVec 8).toNat ≤ 0x13))) ∧ x0.hmode = false ∧ x0.evec.getLsbD 0 = true :=
  ⟨fun j => runs_x0 (by revert j; decide), by decide, rfl, rfl⟩

/-! ### Sequencer instructions that touch memory, queues and time -/

/-- The address of the first byte of the shelf's first bay store. -/
def store0 : Nat := 0x110_0000_0000

/-- Sequencer 0 waiting. -/
def waits (v : Wait) : State := at0 0 { x0 with run := .waiting, wait := v }

theorem wit_LoadResults :
    (∀ z : BitVec 2, ∀ sx : Bool, ¬(z = 3 ∧ sx = true) →
      Runs (at0 (wordI 0x08 (z.toNat + (if sx then 4 else 0)) yes 31 2 8) x0) 0 (wordI 0x08 (z.toNat + (if sx then 4 else 0)) yes 31 2 8) yes) ∧
    (∀ w, (x0.gr 2 + (8 : BitVec 32).signExtend 64).toNat = store0 + 8 ∧ (∀ z : BitVec 2, (store0 + 8) % 2 ^ z.toNat = 0 ∧
      seqAccess (at0 w x0) 0 (store0 + 8) (2 ^ z.toNat) = true)) ∧
    (Runs (at0 (wordI 0x18 0x00 yes 15 2 32) x0) 0 (wordI 0x18 0x00 yes 15 2 32) yes ∧
      (∀ w, (x0.gr 2 + (32 : BitVec 32).signExtend 64).toNat % 32 = 0 ∧ seqAccess (at0 w x0) 0 (x0.gr 2 + (32 : BitVec 32).signExtend 64).toNat 32 = true)) ∧
    (((waits (.load 31 8 false store0)).seq 0).wait = .load 31 8 false store0 ∧ mmio? store0 = none ∧
      (inProgress (waits (.load 31 8 false store0)) 0).any (fun r => overlap store0 8 r.1 r.2) = false ∧ vstat (waits (.load 31 8 false store0)) 0 store0 8 = .ok) ∧
    (let s : State := { waits (.load 31 8 false (store0 + 28)) with
        queues := [(4, { inflight := [{ kind := 0x1A, desc := 0x1A :: zeros 7 ++ zeros 16 ++ toLe 8 store0 ++ zeros 32 }] })] };
      (s.seq 0).wait = .load 31 8 false (store0 + 28) ∧ (inProgress s 0).any (fun r => overlap (store0 + 28) 8 r.1 r.2) = true) ∧
    (((waits (.loadDesc 15 store0)).seq 0).wait = .loadDesc 15 store0 ∧
      (inProgress (waits (.loadDesc 15 store0)) 0).any (fun r => overlap store0 32 r.1 r.2) = false ∧ vstat (waits (.loadDesc 15 store0)) 0 store0 32 = .ok) := by
  refine ⟨fun z sx h => runs_x0 (by revert z sx; decide), fun w => ⟨by decide, fun z => ⟨by revert z; decide, ?_⟩⟩, ⟨runs_x0 (by decide), fun w => ⟨by decide, ?_⟩⟩,
    by decide +kernel, by decide +kernel, by decide +kernel⟩
  · revert z; show ∀ z : BitVec 2, seqAccess (at0 0 x0) 0 (store0 + 8) (2 ^ z.toNat) = true; decide
  · show seqAccess (at0 0 x0) 0 (store0 + 32) 32 = true; decide

theorem wit_AccessFaults :
    x0.hmode = false ∧ x0.evec.getLsbD 0 = true ∧
    (Runs (at0 (wordI 0x08 3 yes 1 2 4) x0) 0 (wordI 0x08 3 yes 1 2 4) yes ∧ Runs (at0 (wordI 0x09 3 yes 1 2 4) x0) 0 (wordI 0x09 3 yes 1 2 4) yes ∧
      (x0.gr 2 + (4 : BitVec 32).signExtend 64).toNat % 8 ≠ 0) ∧
    (Runs (at0 (wordI 0x08 3 yes 1 2 0xC00000) x0) 0 (wordI 0x08 3 yes 1 2 0xC00000) yes ∧
      (x0.gr 2 + (0xC00000 : BitVec 32).signExtend 64).toNat % 8 = 0 ∧
      seqAccess (at0 (wordI 0x08 3 yes 1 2 0xC00000) x0) 0 (x0.gr 2 + (0xC00000 : BitVec 32).signExtend 64).toNat 8 = false) ∧
    (Runs (at0 (wordR 0x0A 0 yes 1 1 1) x0) 0 (wordR 0x0A 0 yes 1 1 1) yes ∧ Runs (at0 (wordR 0x0A 1 yes 1 1 1) x0) 0 (wordR 0x0A 1 yes 1 1 1) yes ∧
      (x0.gr 1).toNat % 8 ≠ 0) ∧
    (Runs (at0 (wordR 0x0A 0 yes 1 3 1) x0) 0 (wordR 0x0A 0 yes 1 3 1) yes ∧ (x0.gr 3).toNat % 8 = 0 ∧
      inLoft ((at0 (wordR 0x0A 0 yes 1 3 1) x0).shelf 0) (x0.gr 3).toNat 8 = false ∧
      inStore ((at0 (wordR 0x0A 0 yes 1 3 1) x0).shelf 0) (x0.gr 3).toNat 8 = false) :=
  ⟨rfl, rfl, ⟨runs_x0 (by decide), runs_x0 (by decide), by decide⟩, ⟨runs_x0 (by decide), by decide, by decide⟩,
    ⟨runs_x0 (by decide), runs_x0 (by decide), by decide⟩, runs_x0 (by decide), by decide, by decide, by decide⟩

/-- x0 with one store in its buffer. -/
def xs : Seq := { x0 with stores := [{ addr := store0, data := [1, 2] }] }

theorem wit_StoreResults :
    (∀ z : BitVec 2, Runs (at0 (wordI 0x09 z.toNat yes 1 2 8) x0) 0 (wordI 0x09 z.toNat yes 1 2 8) yes ∧ (store0 + 8) % 2 ^ z.toNat = 0) ∧
    (∀ z : BitVec 2, seqAccess (at0 0 x0) 0 (store0 + 8) (2 ^ z.toNat) = true) ∧
    (Runs (at0 (wordI 0x18 0x01 yes 15 2 0) x0) 0 (wordI 0x18 0x01 yes 15 2 0) yes ∧ store0 % 32 = 0 ∧
      seqAccess (at0 (wordI 0x18 0x01 yes 15 2 0) x0) 0 store0 32 = true) ∧
    Runs (at0 (wordR 0x0B 0 yes 0 0 0) xs) 0 (wordR 0x0B 0 yes 0 0 0) yes ∧ ((waits .sync).seq 0).wait = .sync :=
  ⟨fun z => ⟨runs_x0 (by revert z; decide), by revert z; decide⟩, by decide, ⟨runs_x0 (by decide), by decide, by decide⟩,
    runs_at0 (by decide) rfl rfl rfl, rfl⟩

theorem wit_StorePerformed :
    let s := at0 0 { xs with run := .waiting, wait := .sync };
    shelfOf s (0 / 4) = some 0 ∧ (s.seq 0).wait = .sync ∧ (s.seq 0).stores = [{ addr := store0, data := [1, 2] }] ∧ mmio? store0 = none ∧
    ([1, 2] : Bytes) ≠ [] ∧ store0 % 64 + 2 ≤ 64 ∧ dev? s 0 store0 = some store0 ∧ fencedAt s store0 = false ∧ markOf s store0 = none := by decide

theorem wit_AtomicResults :
    ∀ m ≤ 1, let s := at0 (wordR 0x0A m yes 1 2 3) x0;
      Runs s 0 (wordR 0x0A m yes 1 2 3) yes ∧ ((s.seq 0).gr 2).toNat = store0 ∧ store0 % 8 = 0 ∧ inStore (s.shelf 0) store0 8 = true ∧
      openRange s 0 store0 8 = true ∧ performStores 0 s = s ∧ shelfOf s 0 = some 0 ∧ vstat s 0 store0 8 = .ok ∧ dev? s 0 store0 = some store0 ∧
      markOf s store0 = none := by
  intro m h s
  refine ⟨runs_x0 (by revert m; decide), rfl, by decide, ?_, ?_, rfl, rfl, ?_, ?_, rfl⟩
  · show inStore ((at0 0 x0).shelf 0) store0 8 = true; decide
  · show openRange (at0 0 x0) 0 store0 8 = true; decide
  · show vstat (at0 0 x0) 0 store0 8 = .ok; decide
  · show dev? (at0 0 x0) 0 store0 = some store0; decide

/-- A crate record. -/
def rec0 : CrateRecord :=
  { logSeq := 0, time := 1, client := 7, kind := 1, sigScheme := 1, ring := 0, entryOffset := 0, payloadLen := 4, proofLen := 0, trailerLen := 64
    elemCount := 1, coordOffset := 0 }

theorem wit_TakeResults :
    ((x0.gr 2).toNat % 64 = 0 ∧ inOwnStore (at0 0 x0) 0 (x0.gr 2).toNat 64 = true) ∧
    (Runs (at0 (wordR 0x28 0 yes 7 2 0) x0) 0 (wordR 0x28 0 yes 7 2 0) yes ∧ x0.inbox = []) ∧
    Runs (at0 (wordR 0x28 0 yes 7 2 0) { x0 with inbox := [rec0] }) 0 (wordR 0x28 0 yes 7 2 0) yes ∧
    (Runs { at0 (wordR 0x28 1 yes 7 2 1) x0 with tim := { base := 1 } } 0 (wordR 0x28 1 yes 7 2 1) yes ∧ x0.gr 1 ≠ 0 ∧
      (x0.gr 1).toNat ≤ { at0 (wordR 0x28 1 yes 7 2 1) x0 with tim := { base := 1 } }.epoch) ∧
    (Runs (at0 (wordR 0x28 1 yes 7 2 1) x0) 0 (wordR 0x28 1 yes 7 2 1) yes ∧ (at0 (wordR 0x28 1 yes 7 2 1) x0).epoch < (x0.gr 1).toNat) ∧
    ({ x0 with wait := .take 7 store0 0, inbox := [rec0] } : Seq).wait = .take 7 store0 0 :=
  ⟨by decide, ⟨runs_x0 (by decide), rfl⟩, runs_at0 (by decide) rfl rfl rfl, ⟨⟨by decide, rfl, rfl⟩, by decide, by decide⟩, ⟨runs_x0 (by decide), by decide⟩, rfl⟩

/-- A queue with so many entries. -/
def queueOf (n : Nat) : Queue := { entries := List.replicate n { desc := zeros 64 } }

theorem wit_IssueResults :
    (∀ n : BitVec 4, n.toNat < 12 → Runs (at0 (wordI 0x30 n.toNat yes 0 2 64) x0) 0 (wordI 0x30 n.toNat yes 0 2 64) yes) ∧
    (let s := at0 (wordI 0x30 11 yes 0 2 64) x0;
      (store0 + 64) % 64 = 0 ∧ inOwnStore s 0 (store0 + 64) 64 = true ∧ vstat s 0 (store0 + 64) 64 = .ok ∧ noteRead 0 (store0 + 64) 64 s = s ∧
      (s.queue 0 11).entries.length < 256) ∧
    256 ≤ ({ at0 (wordI 0x30 11 yes 0 2 64) x0 with queues := [(11, queueOf 256)] }.queue 0 11).entries.length ∧
    ((waits (.queueFull 11 (zeros 64))).seq 0).wait = .queueFull 11 (zeros 64) ∧ ((waits (.queueFull 11 (zeros 64))).queue 0 11).entries.length < 256 := by
  refine ⟨fun n h => runs_x0 (by revert n; decide), ⟨by decide, by decide, by decide, rfl, by decide⟩, ?_, rfl, by decide⟩
  exact Nat.le_of_eq List.length_replicate.symm

/-- The shelf whose queue 11 of sequencer 0 has counted n commands. -/
def counted (w : Word) (x : Seq) (n : BitVec 32) : State := { at0 w x with queues := [(11, { count := n })] }

theorem runs_counted {w : Word} {n : BitVec 32} (h : wordOk w = true) : Runs (counted w x0 n) 0 w yes :=
  ⟨by show (wordOk w && _ && (_ == Fetch.word w)) = true; rw [h]; simp [fetch, State.seq, counted, at0, tget, x0]; rfl, rfl, rfl⟩

theorem wit_CounterWaits :
    (Runs (counted (wordR 0x31 0x1B yes 7 1 3) x0 1) 0 (wordR 0x31 0x1B yes 7 1 3) yes ∧ (1 + 2 ^ 32 - 1) % 2 ^ 32 < 2 ^ 31) ∧
    (Runs { counted (wordR 0x31 0x1B yes 7 1 1) x0 0 with tim := { base := 1 } } 0 (wordR 0x31 0x1B yes 7 1 1) yes ∧
      2 ^ 31 ≤ (0 + 2 ^ 32 - 1) % 2 ^ 32 ∧ x0.gr 1 ≠ 0 ∧ (x0.gr 1).toNat ≤ { counted (wordR 0x31 0x1B yes 7 1 1) x0 0 with tim := { base := 1 } }.epoch) ∧
    (Runs (counted (wordR 0x31 0x1B yes 7 1 3) x0 0) 0 (wordR 0x31 0x1B yes 7 1 3) yes ∧ x0.gr 3 = 0) ∧
    (let x : Seq := { x0 with run := .waiting, wait := .counter 7 11 5 0 };
      ((counted 0 x 5).seq 0).wait = .counter 7 11 5 0 ∧ (((counted 0 x 5).queue 0 11).count.toNat + 2 ^ 32 - 5) % 2 ^ 32 < 2 ^ 31) :=
  ⟨⟨runs_counted (by decide), by decide⟩, ⟨⟨by decide, rfl, rfl⟩, by decide, by decide, by decide⟩, ⟨runs_counted (by decide), rfl⟩, rfl, by decide⟩

theorem wit_TimeWaits :
    (Runs (at0 (wordR 0x38 1 yes 0 3 0) x0) 0 (wordR 0x38 1 yes 0 3 0) yes ∧ (x0.gr 3).toNat ≤ (at0 (wordR 0x38 1 yes 0 3 0) x0).epoch) ∧
    (Runs (at0 (wordR 0x38 1 yes 0 1 0) x0) 0 (wordR 0x38 1 yes 0 1 0) yes ∧ (at0 (wordR 0x38 1 yes 0 1 0) x0).epoch < (x0.gr 1).toNat) ∧
    (Runs (atR (wordI 0x38 2 yes 0 0 255) x0) 0 (wordI 0x38 2 yes 0 0 255) yes ∧
      (tget {} ((atR (wordI 0x38 2 yes 0 0 255) x0).shelf 0).sched 255).kind ≠ 0 ∧
      (atR (wordI 0x38 2 yes 0 0 255) x0).epoch < (tget {} ((atR (wordI 0x38 2 yes 0 0 255) x0).shelf 0).sched 255).time.toNat) ∧
    ((waits (.epoch 9)).seq 0).wait = .epoch 9 ∧
    (Runs (atR (wordR 0x39 0 yes 31 0 0) x0) 0 (wordR 0x39 0 yes 31 0 0) yes ∧ ((atR (wordR 0x39 0 yes 31 0 0) x0).shelf 0).round.active = true) ∧
    (let h : Shelf := { shelf0 0 with round := { active := true, desc := { flags := 8 } }, wpt := { ends := [(1, 5)] } };
      let s : State := { shelves := [(0, h)], seqs := [(0, { x0 with run := .waiting, wait := .waypoint 31 0 })] };
      (s.seq 0).wait = .waypoint 31 0 ∧ (s.shelf 0).wpt.ends = (1, 5) :: []) :=
  ⟨⟨runs_x0 (by decide), by decide⟩, ⟨runs_x0 (by decide), by decide⟩, ⟨runs_atR (by decide), by decide, by decide⟩, rfl,
    ⟨runs_atR (by decide), rfl⟩, rfl, rfl⟩

theorem wit_NotePendEret :
    Runs (at0 (wordR 0x3F 4 yes 0 1 0) x0) 0 (wordR 0x3F 4 yes 0 1 0) yes ∧ Runs (at0 (wordR 0x3F 1 yes 0 0 0) x0) 0 (wordR 0x3F 1 yes 0 0 0) yes ∧
    (Runs (at0 (wordR 0x3F 3 yes 0 0 0) { x0 with hmode := true }) 0 (wordR 0x3F 3 yes 0 0 0) yes ∧ ({ x0 with hmode := true } : Seq).hmode = true) :=
  ⟨runs_x0 (by decide), runs_x0 (by decide), runs_at0 (by decide) rfl rfl rfl, rfl⟩

theorem wit_TrapAndFetchFaults :
    x0.hmode = false ∧ x0.evec.getLsbD 0 = true ∧ Runs (at0 (wordI 0x3F 2 yes 0 0 0xFFFF) x0) 0 (wordI 0x3F 2 yes 0 0 0xFFFF) yes ∧
    (x0.run = .running ∧ fetch (at0 0 { x0 with pc := 16 }) 0 = .past) ∧ (fetch (at0 0 x0) 0 = .word 0 ∧ fixedAt (at0 0 x0) 0 = false ∧ wordOk 0 = false) :=
  ⟨rfl, rfl, runs_x0 (by decide), ⟨rfl, rfl⟩, rfl, rfl, by decide⟩

theorem wit_UnhandledFaultInService :
    let w := wordI 0x3F 2 yes 0 0 1;
    ((at0 w x0).shelf 0).round.active = false ∧ (({ x0 with hmode := true } : Seq).hmode = true ∧ Runs (at0 w { x0 with hmode := true }) 0 w yes) ∧
    (({ x0 with evec := 8 } : Seq).evec.getLsbD 0 = false ∧ Runs (at0 w { x0 with evec := 8 }) 0 w yes) :=
  ⟨rfl, ⟨rfl, runs_at0 (by decide) rfl rfl rfl⟩, by decide, runs_at0 (by decide) rfl rfl rfl⟩

/-- The shelf whose program store corrects the word at the PC. -/
def fixed0 (w : Word) : State :=
  { shelves := [(0, { desc := some desc0, prog := { text := [w, w], fixText := [(0, 0)] } })], seqs := [(0, x0)] }

theorem fixed0_fixed (w : Word) : fixedAt (fixed0 w) 0 = true := by
  have h1 : shelfOf (fixed0 w) 0 = some 0 := rfl
  have h2 : (fixed0 w).seq 0 = x0 := rfl
  have h3 : ((fixed0 w).shelf 0).prog.fixText = [(0, 0)] := rfl
  unfold fixedAt
  rw [h1, h2]
  simp only [h3]
  decide

theorem wit_CorrectedWord :
    (∀ w, shelfOf (fixed0 w) (0 / 4) = some 0 ∧ fixedAt (fixed0 w) 0 = true) ∧
    ∀ w ∈ [wordR 0x01 0x00 yes 1 2 3, wordI 0x02 0x00 yes 1 2 3, wordI 0x03 0x00 yes 1 0 3, wordR 0x04 0x02 yes 1 2 3, wordI 0x08 0x03 yes 1 2 3,
      wordI 0x09 0x03 yes 1 2 3, wordR 0x0A 0x00 yes 1 2 3, wordI 0x10 0x00 yes 0 0 3, wordI 0x18 0x00 yes 1 2 3, wordR 0x28 0x01 yes 1 2 3,
      wordI 0x30 1 yes 0 2 3, wordR 0x31 0x11 yes 1 2 3, wordR 0x38 0x01 yes 0 2 0, wordR 0x39 0x00 yes 1 0 0, wordR 0x3F 0x04 yes 0 2 0,
      wordR 0x3F 0x01 yes 0 0 0], atWord (fixed0 w) 0 w = true := by
  refine ⟨fun w => ⟨rfl, fixed0_fixed w⟩, fun w hw => ?_⟩
  have ok : ∀ w ∈ [wordR 0x01 0x00 yes 1 2 3, wordI 0x02 0x00 yes 1 2 3, wordI 0x03 0x00 yes 1 0 3, wordR 0x04 0x02 yes 1 2 3, wordI 0x08 0x03 yes 1 2 3,
      wordI 0x09 0x03 yes 1 2 3, wordR 0x0A 0x00 yes 1 2 3, wordI 0x10 0x00 yes 0 0 3, wordI 0x18 0x00 yes 1 2 3, wordR 0x28 0x01 yes 1 2 3,
      wordI 0x30 1 yes 0 2 3, wordR 0x31 0x11 yes 1 2 3, wordR 0x38 0x01 yes 0 2 0, wordR 0x39 0x00 yes 1 0 0, wordR 0x3F 0x04 yes 0 2 0,
      wordR 0x3F 0x01 yes 0 0 0], wordOk w = true := by
    repeat' first | exact List.forall_mem_nil _ | refine List.forall_mem_cons.mpr ⟨by decide, ?_⟩
  have hf : fetch (fixed0 w) 0 = .word w := by
    have h1 : shelfOf (fixed0 w) 0 = some 0 := rfl
    have h2 : (fixed0 w).seq 0 = x0 := rfl
    have h3 : ((fixed0 w).shelf 0).prog.text = [w, w] := rfl
    have h4 : ((fixed0 w).shelf 0).prog.badText = [] := rfl
    unfold fetch
    rw [h1, h2]
    simp [h3, h4, x0]
  have hs : (fixed0 w).seq 0 = x0 := rfl
  simp [atWord, ok w hw, hf, hs, x0]

/-! ### Commands at the head of a queue -/

/-- A command descriptor from its bytes 0 and 8 to 63. -/
def cmd (kind : Byte) (rest : Bytes) : Bytes := kind :: 0 :: 0 :: 0 :: 0 :: 0 :: 0 :: 0 :: (rest ++ zeros (56 - rest.length))

/-- A state with a descriptor at the head of queue n of sequencer 0. -/
def put (n : Nat) (d : Bytes) (s : State) : State := { s with queues := [(n, { entries := [{ desc := d }] })] }

/-- Shelf 0 alone, idle. -/
def idle0 : State := { shelves := [(0, { desc := some desc0 })] }

/-- A queue that alone holds commands is in its turn. -/
theorem inTurn_put {n : Nat} {d : Bytes} {s : State} (h12 : n < 12) : inTurn (put n d s) 0 n = true := by
  have h1 : (put n d s).queue 0 n = { entries := [{ desc := d }] } := by simp [put, State.queue, tget]
  unfold inTurn
  simp only [h1]
  split
  · rfl
  · simp only [List.all_eq_true, Bool.or_eq_true, decide_eq_true_eq, Bool.not_eq_true', List.mem_range]
    intro i _ m hm
    by_cases e : 0 / 4 * 4 + i = 0 ∧ m = n
    · left; rw [e.1, e.2]
    · right
      have hq : (put n d s).queue (0 / 4 * 4 + i) m = {} := by
        have h : n ≠ (0 / 4 * 4 + i) * 16 + m := by omega
        show (if n = (0 / 4 * 4 + i) * 16 + m then ({ entries := [{ desc := d }] } : Queue) else {}) = {}
        rw [if_neg h]
      unfold competes
      rw [hq]

theorem presents_put {n kind : Nat} {d : Bytes} {s : State} (hk : dKind d = kind) (hc : classOk n kind = true) (hl : layoutOk d = true)
    (hn : ¬(latticeKind kind = true ∧ latticeGated s 0 = true)) (h₀ : shelfOf s 0 = some 0) (hf : (s.shelf 0).fenced = false) (h12 : n < 12 := by decide) :
    Presents (put n d s) 0 n 0 kind d := by
  have h1 : (put n d s).queue 0 n = { entries := [{ desc := d }] } := by simp [put, State.queue, tget]
  have h2 : shelfOf (put n d s) 0 = some 0 := h₀
  have h3 : latticeGated (put n d s) 0 = latticeGated s 0 := rfl
  refine ⟨?_, ?_, hl, h2, hf⟩
  · unfold presents offers
    simp only [h1, Nat.zero_div, h2, h3, inTurn_put h12]
    simp [Queue.ready, Queue.held, hk, hc]
    cases h : latticeKind kind <;> cases h' : latticeGated s 0 <;> simp_all
  · simp [headDesc, h1]

theorem wit_QueueControlAccepted :
    (Presents (put 0 (cmd 0x3C [1, 11]) idle0) 0 0 0 0x3C (cmd 0x3C [1, 11]) ∧
      (idle0.shelf 0).seqs[field (cmd 0x3C [1, 11]) 8 1]? = some 1 ∧ field (cmd 0x3C [1, 11]) 9 1 ≤ 11) ∧
    (Presents (put 0 (cmd 0x3C [8, 11]) idle0) 0 0 0 0x3C (cmd 0x3C [8, 11]) ∧ (idle0.shelf 0).seqs[field (cmd 0x3C [8, 11]) 8 1]? = none) ∧
    (Presents (put 0 (cmd 0x3C [0, 12]) idle0) 0 0 0 0x3C (cmd 0x3C [0, 12]) ∧ 11 < field (cmd 0x3C [0, 12]) 9 1) ∧
    (Presents (put 0 (cmd 0x3C [0, 0]) idle0) 0 0 0 0x3C (cmd 0x3C [0, 0]) ∧
      (idle0.shelf 0).seqs[field (cmd 0x3C [0, 0]) 8 1]? = some 0 ∧ field (cmd 0x3C [0, 0]) 9 1 = 0) ∧
    Presents (put 11 (cmd 0x3D [1]) idle0) 0 11 0 0x3D (cmd 0x3D [1]) ∧ Presents (put 0 (cmd 0x3E []) idle0) 0 0 0 0x3E (cmd 0x3E []) := by
  refine ⟨⟨presents_put ?_ ?_ ?_ ?_ ?_ ?_, ?_⟩, ⟨presents_put ?_ ?_ ?_ ?_ ?_ ?_, ?_⟩, ⟨presents_put ?_ ?_ ?_ ?_ ?_ ?_, ?_⟩, ⟨presents_put ?_ ?_ ?_ ?_ ?_ ?_, ?_⟩,
    presents_put ?_ ?_ ?_ ?_ ?_ ?_, presents_put ?_ ?_ ?_ ?_ ?_ ?_⟩ <;> decide +kernel

theorem wit_CompletionCounted :
    let s : State := { idle0 with queues := [(11, { inflight := [{ desc := zeros 64, kind := 0x3E, result := some .poisoned }] })] };
    (s.queue 0 11).inflight = [{ desc := zeros 64, kind := 0x3E, result := some .poisoned }] ∧ (s.qerr 0).qrec.getLsbD 0 = false := by decide +kernel

theorem wit_UnacceptedCompletes :
    (let s : State := { idle0 with queues := [(0, { entries := [{ desc := zeros 64, bad := true }] })] };
      (s.queue 0 0).inflight = [] ∧ (s.queue 0 0).entries = [{ desc := zeros 64, bad := true }] ∧ (s.qerr 0).qrec.getLsbD 0 = false) ∧
    (let s : State := { idle0 with queues := [(0, { entries := [{ desc := cmd 0x3E [] }], halted := true, haltStatus := .poisoned })] };
      (s.queue 0 0).halted = true ∧ dKind (cmd 0x3E []) ≠ 0x3D) ∧
    ((put 0 (zeros 64) idle0).queue 0 0).halted = false ∧ classOk 0 (dKind (zeros 64)) = false := by decide +kernel

/-! ### Fold units -/

/-- A block F command: Cask, OPF, COFF, COUNT, WIDE and the image of a source. -/
def fCmd (kind : Byte) (cask opf coff count wide : Nat) (img : Bytes) : Bytes :=
  cmd kind (toLe 1 cask ++ toLe 1 opf ++ zeros 2 ++ toLe 4 coff ++ toLe 4 count ++ zeros 4 ++ toLe 8 wide ++ img)

/-- An enabled Cask of four elements of arithmetic op. -/
def cask0 (op : Nat) : Cask := { cfg := BitVec.ofNat 64 (1 + op * 256), area := 0x4_4000, keg := 0x100 }

/-- Shelf 0 with Cask 5 of bay 0. -/
def folds0 (op : Nat) : State := { idle0 with bays := [(0, { casks := [(5, cask0 op)] })] }

/-- The image of four 32-bit words at the bay store's start. -/
def src0 : Bytes := imgBytes { base := 0x110_0000_0000, len := 4, etype := 1 }

/-- A block F command in queue 0 of sequencer 0. -/
def foldsCmd (op : Nat) (d : Bytes) : State := put 0 d (folds0 op)

theorem presents_fold {op kind : Nat} {d : Bytes} (hk : dKind d = kind) (hc : classOk 0 kind = true) (hl : layoutOk d = true)
    (hn : latticeKind kind = false) : Presents (foldsCmd op d) 0 0 0 kind d :=
  presents_put hk hc hl (by simp [hn]) rfl rfl

/-- A Cask of a state without error marks is sound. -/
theorem sound_clean {s : State} {b ci : Nat} (h : s.marks = []) (hs : (s.cask b ci).sel ≤ (s.cask b ci).tilesM1) (hl : (s.cask b ci).live = []) :
    CaskSound s b ci := by
  simp [CaskSound, markOf, h, hs, hl]

theorem wit_FoldArithmetic :
    ((cask0 1).op = 0x01 ∧ (cask0 2).op = 0x02) ∧
    ((cask0 3).op = 0x03 ∧ 0 < (cask0 3).modulus [(0, 97)] 0 ∧ (cask0 4).op = 0x04 ∧ 0 < (cask0 4).modulus [] 0 ∧ (cask0 5).op = 0x05 ∧
      0 < (cask0 5).modulus [] 0 ∧ (cask0 13).op = 0x0D ∧ 0 < (cask0 13).modulus [(0, 97)] 3) ∧
    ((cask0 6).op = 0x06 ∧ (cask0 7).op = 0x07 ∧ -2 ^ 63 ≤ sext 64 (2 ^ 63) + 0 ∧ sext 64 (2 ^ 63 - 1) + 0 < 2 ^ 63) ∧
    ((cask0 8).op = 0x08 ∧ (cask0 9).op = 0x09 ∧ (cask0 10).op = 0x0A) ∧
    ((cask0 11).op = 0x0B ∧ (cask0 11).signed = false ∧ (cask0 12).op = 0x0C ∧ (cask0 12).signed = false) ∧
    ({ cask0 11 with cfg := 0xB03 } : Cask).signed = true := by decide

theorem wit_SourceConversion : 2 ≤ 2 ∧ 62 ≤ 62 ∧ 0 < 2 ^ 23 - 1 := by decide

theorem wit_FoldsElements :
    ((folds0 1).bay 0).retr = [] ∧ ((folds0 1).bay 0).hold = [] ∧ (cask0 1).folds + 1 < 2 ^ (cask0 1).log2Interval ∧
    (let d := fCmd 0x01 5 1 0 4 0 src0;
      Presents (foldsCmd 1 d) 0 0 0 0x01 d ∧ foldACheck 0 0 d (foldsCmd 1 d) = none ∧ blocksStat (foldsCmd 1 d) 0 (v0 d).blocks = .ok) ∧
    (let d := fCmd 0x02 5 2 3 1 0 [];
      Presents (foldsCmd 1 d) 0 0 0 0x02 d ∧ foldOCheck 0 0 d (foldsCmd 1 d) = none ∧ pendingOf (foldsCmd 1 d) 0 0 d = [] ∧ (fOpf d).testBit 1 = true) ∧
    (let d := fCmd 0x02 5 0 0 4 0 src0;
      Presents (foldsCmd 1 d) 0 0 0 0x02 d ∧ foldOCheck 0 0 d (foldsCmd 1 d) = none ∧ pendingOf (foldsCmd 1 d) 0 0 d = [] ∧ (fOpf d).testBit 1 = false ∧
      blocksStat (foldsCmd 1 d) 0 (v0 d).blocks = .ok) := by
  refine ⟨rfl, rfl, by decide, ⟨presents_fold ?_ ?_ ?_ ?_, ?_, ?_⟩, ⟨presents_fold ?_ ?_ ?_ ?_, ?_, ?_, ?_⟩, ⟨presents_fold ?_ ?_ ?_ ?_, ?_, ?_, ?_, ?_⟩⟩ <;>
    decide +kernel

theorem wit_FoldRefusals :
    (let d := fCmd 0x01 4 0 0 4 0 src0;
      Presents (foldsCmd 1 d) 0 0 0 0x01 d ∧ ((foldsCmd 1 d).cask 0 (fCask d)).en = false) ∧
    (let d := fCmd 0x01 5 1 0 4 0 src0;
      Presents (foldsCmd 9 d) 0 0 0 0x01 d ∧ (fOpf d).testBit 0 = true ∧ ((foldsCmd 9 d).cask 0 (fCask d)).op = 0x09) ∧
    (let d := fCmd 0x01 5 0 0 4 0 src0;
      Presents (foldsCmd 2 d) 0 0 0 0x01 d ∧ ((foldsCmd 2 d).cask 0 (fCask d)).accepts (v0 d).etype.toNat = false) ∧
    (let d := fCmd 0x02 5 0 4 1 0 src0;
      Presents (foldsCmd 1 d) 0 0 0 0x02 d ∧ ((foldsCmd 1 d).cask 0 (fCask d)).len < fCoff d + fCount d) ∧
    (let d := cmd 0x04 [4];
      Presents (foldsCmd 1 d) 0 0 0 0x04 d ∧ ((foldsCmd 1 d).cask 0 (fCask d)).en = false) ∧
    (let d := fCmd 0x05 5 8 0 4 64 [];
      Presents (foldsCmd 1 d) 0 0 0 0x05 d ∧ fOpf d % 16 / 8 = 1 ∧ fOpf d % 8 / 4 = 0) ∧
    (let d := fCmd 0x06 5 0 0 0 64 [];
      Presents (foldsCmd 1 d) 0 0 0 0x06 d ∧ fCount d = 0) := by
  refine ⟨⟨presents_fold ?_ ?_ ?_ ?_, ?_⟩, ⟨presents_fold ?_ ?_ ?_ ?_, ?_, ?_⟩, ⟨presents_fold ?_ ?_ ?_ ?_, ?_⟩, ⟨presents_fold ?_ ?_ ?_ ?_, ?_⟩,
    ⟨presents_fold ?_ ?_ ?_ ?_, ?_⟩, ⟨presents_fold ?_ ?_ ?_ ?_, ?_, ?_⟩, ⟨presents_fold ?_ ?_ ?_ ?_, ?_⟩⟩ <;> decide +kernel

theorem wit_SpillKeepsCombined :
    (∀ d, CaskSound (foldsCmd 1 d) 0 5) ∧ foldShut ((folds0 6).shelf 0) = false ∧ (cask0 1).en = true ∧ (cask0 1).fieldsOk [] = true ∧ ((cask0 1).words.map (·.1)).Nodup ∧
    (let d := cmd 0x04 [5];
      Presents (foldsCmd 1 d) 0 0 0 0x04 d) ∧
    (let d := fCmd 0x05 5 4 0 4 0 [];
      Presents (foldsCmd 1 d) 0 0 0 0x05 d ∧ fOpf d = 4 ∧ fWide d = 0 ∧ 1 ≤ fCount d ∧ fCoff d + fCount d ≤ (cask0 1).len ∧
      (cask0 1).rangeBad (fCoff d) (fCount d) = false ∧ pendingOf (foldsCmd 1 d) 0 0 d = [] ∧ fCoff d = 0 ∧ fCount d = (cask0 1).len) := by
  refine ⟨fun _ => sound_clean rfl (by show (cask0 1).sel ≤ (cask0 1).tilesM1; decide) rfl, rfl, by decide, by decide, by decide, presents_fold ?_ ?_ ?_ ?_, ⟨presents_fold ?_ ?_ ?_ ?_, ?_, ?_, ?_, ?_, ?_, ?_, ?_, ?_⟩⟩ <;> decide +kernel

theorem wit_DrainsCombined :
    (∀ d, CaskSound (foldsCmd 1 d) 0 5) ∧ (∀ i, i < 4 → (cask0 1).elemBad i = false) ∧
    (let d := fCmd 0x05 5 0 0 4 store0 [];
      Presents (foldsCmd 1 d) 0 0 0 0x05 d ∧ fOpf d = 0 ∧ drainWCheck 0 0 d (foldsCmd 1 d) = none ∧ pendingOf (foldsCmd 1 d) 0 0 d = [] ∧
      hitsSum ((foldsCmd 1 d).shelf 0) (fWide d) (fCount d * 8) = false ∧ (cask0 1).rangeBad (fCoff d) (fCount d) = false) ∧
    (let d := fCmd 0x06 5 0 0 4 store0 [];
      Presents (foldsCmd 1 d) 0 0 0 0x06 d ∧ drainKCheck 0 0 d (foldsCmd 1 d) = none) := by
  refine ⟨fun _ => sound_clean rfl (by show (cask0 1).sel ≤ (cask0 1).tilesM1; decide) rfl, ?_, ⟨presents_fold ?_ ?_ ?_ ?_, ?_, ?_, ?_, ?_, ?_⟩,
    ⟨presents_fold ?_ ?_ ?_ ?_, ?_⟩⟩ <;> decide +kernel

theorem wit_CaskRegisters :
    (let c : Cask := { area := 0x4_4000, keg := 0x100 };
      let s : State := { idle0 with bays := [(0, { casks := [(5, c)] })] };
      (s.cask 0 5).en = false ∧ caskEnableOk (s.onCask 0 5 (fun c => { c with cfg := 0x101 &&& 0xFFF_FF3F_FF02 })) 0 5 = true ∧
      caskEnableOk (s.onCask 0 5 (fun c => { c with cfg := 0xE01 &&& 0xFFF_FF3F_FF02 })) 0 5 = false) ∧
    (((folds0 1).cask 0 5).en = true ∧ caskIdle (folds0 1) 0 5 = true ∧ caskProvisional (folds0 1) 0 5 = 0 ∧
      (0 : Word).toNat / 2 ^ 32 % 256 ≤ (cask0 1).tilesM1) ∧
    (let s : State := { idle0 with bays := [(0, { casks := [(5, { cask0 1 with kegInit := true })] })] };
      (s.cask 0 5).en = true ∧ caskIdle s 0 5 = false) ∧
    ({ scrub := true } : Cask).scrub = true := by decide +kernel

theorem wit_HeldCommandRuns :
    let d := fCmd 0x05 5 4 0 4 0 [];
    let s : State := { idle0 with
      bays := [(0, { casks := [(5, cask0 1)], hold := [{ seq := 0, queue := 0 }] })]
      queues := [(0, { inflight := [{ desc := d, kind := 5 }] })] };
    (s.bay 0).hold = [{ seq := 0, queue := 0 }] ∧ 0 / 4 = 0 ∧ (s.queue 0 0).inflight = [] ++ [{ desc := d, kind := 5 }] ∧ shelfOf s 0 = some 0 ∧
    dKind d = 0x05 ∧ fOpf d = 4 ∧ (s.cask 0 (fCask d)).en = true ∧ (s.cask 0 (fCask d)).fieldsOk (s.bay 0).mods = true ∧
    ((s.cask 0 (fCask d)).words.map (·.1)).Nodup ∧ pendingOf s 0 0 d = [] ∧ (s.cask 0 (fCask d)).rangeBad (fCoff d) (fCount d) = false ∧ fCoff d + fCount d ≤ (s.cask 0 (fCask d)).len ∧
    CaskSound s 0 (fCask d) :=
  ⟨rfl, rfl, rfl, rfl, by decide +kernel, by decide +kernel, by decide +kernel, by decide +kernel, by decide +kernel, by decide +kernel, by decide +kernel,
    by decide +kernel, sound_clean rfl (by decide +kernel) (by decide +kernel)⟩

/-! ### The ledger -/

/-- A message of 512 header bytes and 16 payload bytes (R83). -/
def msg0 : Bytes := zeros 0x28 ++ toLe 4 16 ++ zeros (512 - 0x2C) ++ toLe 4 1 ++ toLe 4 2 ++ toLe 4 3 ++ toLe 4 4

/-- Ring 0, with the message of crate 0. -/
def ring0 : Ring :=
  { middleBase := 0, middleSize := 0, bay := 0, seqMask := 1, highWater := 8, entries := [{ offset := 64, len := 528, logSeq := 0, data := msg0 }] }

/-- The crate-log entry of crate 0, an update crate. -/
def crate0 (st : LogState) : LogEntry := { logSeq := 0, offset := 0, len := 528, state := st, kind := 1, entryOffset := 64, body := 16 }

/-- Shelf 0 in COLLECT with crate 0 and a ledger, and Cask 5 of bay 0. -/
def ledger0 (st : LogState) (l : List LedgerEntry) : State :=
  { shelves := [(0, { desc := some { desc0 with ledger256 := 1, seg4k := 1 }, round := { active := true, begun := true, phase := .collect, desc := { mode := 1 } }
                      intake := { rings := [(0, ring0)], log := [crate0 st] }, ledger := { entries := l } })]
    bays := [(0, { casks := [(5, cask0 1)] })] }

theorem presents_ledger {st : LogState} {l : List LedgerEntry} {n kind : Nat} {d : Bytes} (hk : dKind d = kind) (hc : classOk n kind = true)
    (hl : layoutOk d = true) (hn : latticeKind kind = false) (h12 : n < 12 := by decide) : Presents (put n d (ledger0 st l)) 0 n 0 kind d :=
  presents_put hk hc hl (by simp [hn]) rfl rfl h12

/-- COMMIT and RETRACT of crate 0. -/
def commit0 : Bytes := fCmd 0x10 0 0 0 0 0 []
def retract0 (reason : Nat) : Bytes := fCmd 0x11 reason 0 0 0 0 []

theorem wit_VerdictTable :
    (∀ st l, Presents (put 4 commit0 (ledger0 st l)) 0 4 0 0x10 commit0 ∧ Presents (put 4 (retract0 0x0F) (ledger0 st l)) 0 4 0 0x11 (retract0 0x0F) ∧
      logEntry (put 4 commit0 (ledger0 st l)) 0 (fWide commit0) = some (crate0 st) ∧ ((ledger0 st l).shelf 0).round.active = true ∧
      (crate0 st).kind = 1 ∧ (crate0 st).roundId = ((ledger0 st l).shelf 0).round.desc.roundId ∧ ((ledger0 st l).shelf 0).round.desc.mode ≠ 2 ∧
      ((ledger0 st l).shelf 0).ledger.rowBad = false) ∧
    (let s := put 4 commit0 { ledger0 .admitted [] with shelves := [(0, { ((ledger0 .admitted []).shelf 0) with round := { active := true, desc := { mode := 2 } } })] };
      Presents s 0 4 0 0x10 commit0 ∧ (s.shelf 0).round.desc.mode = 2 ∧ flpvDone s 0 (fWide commit0) = false) ∧
    (∀ v ∈ [Verdict.pending, .commit, .retract], ledgerEntry (ledger0 .admitted [{ logSeq := 0, client := 0, plan := 1, verdict := v }]) 0 0 =
      some { logSeq := 0, client := 0, plan := 1, verdict := v }) ∧
    (∀ st ∈ [LogState.admitted, .committed, .retracted], ledgerEntry (ledger0 st []) 0 0 = none ∧ (crate0 st).state = st) ∧
    (field (retract0 0x0F) 8 1 = 0x0F ∧ field (retract0 0x10) 8 1 = 0x10 ∧ field (retract0 0x11) 8 1 ≠ 0x0F ∧ field (retract0 0x11) 8 1 ≠ 0x10) ∧
    (Presents (put 4 commit0 idle0) 0 4 0 0x10 commit0 ∧ logEntry (put 4 commit0 idle0) 0 (fWide commit0) = none) := by
  refine ⟨fun st l => ⟨presents_ledger ?_ ?_ ?_ ?_, presents_ledger ?_ ?_ ?_ ?_, rfl, rfl, rfl, rfl, ?_, rfl⟩, ⟨presents_put (by decide +kernel) (by decide +kernel) (by decide +kernel) (by simp [latticeKind]) rfl rfl, by decide, by decide +kernel⟩,
    ?_, ?_, ?_, presents_put ?_ ?_ ?_ ?_ ?_ ?_, ?_⟩
  · decide +kernel
  · decide +kernel
  · decide +kernel
  · decide +kernel
  · decide +kernel
  · decide +kernel
  · decide +kernel
  · decide +kernel
  · show (1 : Nat) ≠ 2; decide
  all_goals decide +kernel

/-- FOLD.P of crate 0 from its ring entry, plan 1, segment seg. -/
def pCmd : Bytes :=
  cmd 0x03 ([5, 0, 1, 0] ++ toLe 4 0 ++ toLe 4 4 ++ zeros 4 ++ toLe 8 0 ++ imgBytes { base := 64, len := 4, etype := 1, rsrc := true })

/-- The segment that it records. -/
def seg0 : Segment := { bay := 0, cask := 5, seg := 0, neg := false, etype := 1, scaleE := 0, coff := 0, count := 4, srcOff := 0, tile := 0 }

theorem wit_ProvisionalFold :
    (∀ l ∈ [[], [({ logSeq := 0, client := 0, plan := 1, segs := [seg0] } : LedgerEntry)], [{ logSeq := 0, client := 0, plan := 1, verdict := .retract }]],
      let s := put 0 pCmd (ledger0 .admitted l);
      Presents s 0 0 0 0x03 pCmd ∧ (s.bay 0).retr = [] ∧ (s.bay 0).hold = [] ∧ foldPCheck 0 0 pCmd s = none ∧ foldPStalls s 0 0 = false ∧ (s.shelf 0).ledger.rowBad = false ∧
      (s.shelf 0).round.active = true ∧ (s.shelf 0).round.phase = .collect ∧ (s.shelf 0).round.begun = true ∧ (s.shelf 0).round.frozen = false ∧
      foldPCrate s 0 (s.cask 0 (fCask pCmd)) pCmd = some (crate0 .admitted) ∧
      (crateRead 0 (fWide pCmd) 512 (ringBytes (s.cask 0 (fCask pCmd)) (v0 pCmd) 4) s).1 = .ok) ∧ (∀ l, CaskSound (put 0 pCmd (ledger0 .admitted l)) 0 (fCask pCmd)) ∧
    ledgerEntry (ledger0 .admitted []) 0 0 = none ∧ sameSegment seg0 (segmentOf (ledger0 .admitted []) 0 0 pCmd) = true ∧ fPlan pCmd = 1 ∧
    (segmentOf (ledger0 .admitted []) 0 0 pCmd).seg = 0 := by
  refine ⟨fun l h => ?_, fun _ => sound_clean rfl (by show (cask0 1).sel ≤ (cask0 1).tilesM1; decide) rfl, ?_, ?_, ?_, ?_⟩
  · simp only [List.mem_cons, List.not_mem_nil, or_false] at h
    rcases h with rfl | rfl | rfl <;> refine ⟨presents_ledger ?_ ?_ ?_ ?_, ?_⟩ <;> decide +kernel
  all_goals decide +kernel

theorem wit_RetractionUndoesFold :
    opInvertible (cask0 1).op = true ∧ opDefined (cask0 1).op = true ∧ (cask0 1).fieldsOk [] = true ∧ (∀ e, (cask0 1).word e < 2 ^ 32) ∧
    (cask0 1).op = 0x01 ∧ (cask0 1).inexact + 4 < 2 ^ 48 - 1 ∧ (cask0 1).nan + 4 < 2 ^ 48 - 1 :=
  ⟨by decide +kernel, by decide +kernel, by decide +kernel, fun _ => by show (cask0 1).ident < 2 ^ 32; decide +kernel, by decide +kernel, by decide, by decide⟩

theorem wit_SegmentRetracted :
    let h : Shelf := { desc := some desc0, cfg := [(0x320, 0x1_0000_0000)], intake := { log := [crate0 .admitted] }
                       ledger := { entries := [{ logSeq := 0, client := 0, plan := 1, verdict := .retract, segs := [seg0] }] } };
    let s : State := { shelves := [(0, h)], bays := [(0, { casks := [(5, cask0 1)], retr := [{ shelf := 0, logSeq := 0, seg := 0 }] })] };
    (s.bay 0).retr = [{ shelf := 0, logSeq := 0, seg := 0 }] ∧
    (ledgerEntry s 0 0).bind (fun e => e.segs.find? (fun x => x.seg == 0)) = some seg0 ∧ logEntry s 0 0 = some (crate0 .admitted) ∧
    (clogRead s 0 (64 + 512) 16).1 = .ok ∧ seg0.tile = (s.cask 0 5).sel ∧ CaskSound s 0 5 ∧ seg0.coff + seg0.count ≤ (s.cask 0 5).len ∧
    (s.shelf ((shelfOf s 0).getD 0)).ledger.rowBad = false :=
  ⟨rfl, by decide +kernel, by decide +kernel, by decide +kernel, by decide +kernel, sound_clean rfl (by decide +kernel) (by decide +kernel), by decide +kernel, by decide +kernel⟩

theorem wit_LedgerRowError :
    let s : State := { shelves := [(0, { desc := some desc0, round := { active := true }, ledger := { rowBad := true } })] };
    shelfOf s (0 / 4) = some 0 ∧ shelfOf s 0 = some 0 ∧ (s.shelf 0).ledger.rowBad = true ∧ (s.shelf 0).round.active = true := by decide

theorem wit_CrateSettles :
    (∀ st l, ((ledger0 st l).shelf 0).ledger.rowBad = false) ∧
    (let e : LedgerEntry := { logSeq := 0, client := 0, plan := 1, verdict := .commit, segs := [seg0] };
      ledgerEntry (ledger0 .admitted [e]) 0 0 = some e ∧ logEntry (ledger0 .admitted [e]) 0 0 = some (crate0 .admitted) ∧ e.unreadable = false ∧
      e.segs.length = e.plan) ∧
    (let e : LedgerEntry := { logSeq := 0, client := 0, plan := 1, verdict := .retract, segs := [{ seg0 with retired := true }] };
      ledgerEntry (ledger0 .admitted [e]) 0 0 = some e ∧ ∀ g ∈ e.segs, g.retired = true) ∧
    (let e : LedgerEntry := { logSeq := 0, client := 0, plan := 1 };
      ledgerEntry (ledger0 .admitted [e]) 0 0 = some e ∧ e.verdict = .pending) := by
  refine ⟨fun _ _ => rfl, ?_, ?_, ?_⟩ <;> decide +kernel

/-! ### Rounds and intake -/

/-- A masked-sum round descriptor of four clients, at Cellar offset 0 (R48). -/
def desc256 : Bytes :=
  toLe 4 0x444E524B ++ toLe 2 1 ++ toLe 1 1 ++ toLe 1 0 ++ toLe 8 7 ++ toLe 8 0 ++ toLe 4 0 ++ toLe 4 4 ++ toLe 4 2 ++ [1, 1, 0, 1] ++ toLe 4 4 ++
  toLe 4 0 ++ toLe 8 0 ++ toLe 2 2 ++ toLe 2 2 ++ [1, 0, 0, 0] ++ toLe 8 1 ++ toLe 8 2 ++ toLe 8 3 ++ toLe 8 0 ++ toLe 8 4 ++ zeros 8 ++ zeros 32 ++
  toLe 8 0 ++ toLe 8 0 ++ toLe 8 0x8000_0000 ++ toLe 8 0 ++ toLe 8 0 ++ toLe 8 0 ++ [0, 2, 3, 0, 0, 0, 0, 0] ++ zeros 32 ++ zeros 24

/-- A release descriptor with two buffers of 2 × 64 KiB (R288). -/
def rel64 : Bytes :=
  toLe 4 0x5344524B ++ toLe 2 1 ++ [0xFF, 0] ++ zeros 16 ++ toLe 8 0x100_0000 ++ toLe 8 0x200_0000 ++ toLe 4 2 ++ zeros 20

/-- A chest half of a kind with a usage, for the island and any shelf that is not confidential (an empty key: the kernel evaluates it quickly). -/
def key0 (kind usage : Nat) : Half := { key := [], attr := BitVec.ofNat 64 (usage + 2 ^ 8 + 2 ^ 13 + 2 ^ 16 + kind * 2 ^ 22 + 15 * 2 ^ 26) }

/-- A region register: base and size in 64 KiB. -/
def reg64 (base size : Nat) : Word := BitVec.ofNat 64 (base + size * 2 ^ 32)

/-- Shelf 0 ready to start a round: logs, tables and scratch in place, a program loaded, keys in the chest, time locked. -/
def start0 : State :=
  let h : Shelf := { desc := some { desc0 with pcs := [0, 1] }, prog := { loaded := true, digest := zeros 32 }
                     cfg := [(0x310, 0x300_0000), (0x318, 0x4_0000_0000), (0x320, reg64 0x1000 0x100), (0x348, reg64 0x1200 1), (0x900, 0x1300_0000),
                             (0x908, reg64 0x1400 3), (0xF10, reg64 0x1500 2), (0x1B00, reg64 0x1600 16)] };
  { shelves := [(0, h)], tim := { state := .locked }, chest := [(0, { cur := some (key0 7 32) }), (1, { cur := some (key0 6 32) }), (2, { cur := some (key0 1 1) })]
    mem := memWrite (memWrite [] 0 desc256) 0x10_0000_0000 rel64 }

theorem wit_RoundStarts :
    (1 : Word).getLsbD 1 = false ∧ startBusy (atR 0 x0) 0 = true ∧
    (startBusy idle0 0 = false ∧ inCellar ((idle0.setReg 0 0x200 0xFFFF_FFFF_FFFF).shelf 0) (0xFFFF_FFFF_FFC0) 256 = false ∧
      (((idle0.setReg 0 0x200 0xFFFF_FFFF_FFFF).shelf 0).reg 0x200).toNat / 64 % 2 ^ 42 * 64 = 0xFFFF_FFFF_FFC0) ∧
    (let s₁ := clearCounters 0 (start0.setReg 0 0x208 ((0 ||| 1) &&& 0x1FF04));
      startBusy start0 0 = false ∧ inCellar (start0.shelf 0) 0 256 = true ∧ vstat s₁ 0 0 256 = .ok ∧ noteRead 0 0 256 s₁ = s₁ ∧
      ((start0.shelf 0).reg 0x200).toNat / 64 % 2 ^ 42 * 64 = 0 ∧
      (match startChecks (s₁.onRound 0 (fun r => { r with descDigest := sha3 (vread s₁ 0 0 256) })) 0 (parseDesc (vread s₁ 0 0 256)) with
        | .ok _ => true | .error _ => false) = true) ∧
    (start0.shelf 0).ctx.pending = false ∧ (start0.shelf 0).ctx.waiting = false := by
  refine ⟨by decide, by decide, by decide +kernel, ⟨by decide, by decide, by decide +kernel, ?_, by decide, by decide +kernel⟩, rfl, rfl⟩
  rfl

theorem wit_RoundEnds :
    ((atR 0 x0).shelf 0).round.active = true ∧ (0 : Word).getLsbD 0 = false ∧
    (((atR 0 x0).shelf 0).round.sealDone = false ∧ ((atR 0 x0).shelf 0).fenced = false ∧ ((atR 0 x0).shelf 0).round.desc.mode ≠ 2) ∧
    (idle0.shelf 0).round.active = false := by decide

theorem wit_OpenBegins :
    let s : State := { shelves := [(0, { desc := some desc0, prog := { entries := [0, 8] }, round := { active := true } })] };
    (s.shelf 0).round.active = true ∧ (s.shelf 0).round.begun = false ∧ (s.shelf 0).round.desc.mode ≠ 1 ∧
    (s.shelf 0).prog.entries.getD 1 0xFFFFFFFF ≠ 0xFFFFFFFF ∧ allCounted s 0 = true ∧
    allCounted { s with queues := [(4, { inflight := [{ kind := 0x30, desc := commit0 }] })] } 0 = false := by decide

theorem wit_PhaseCompletes :
    (let s : State := { shelves := [(0, { desc := some desc0, round := { active := true, begun := true, phase := .open_ } })] };
      phaseDone s 0 = true ∧ (s.shelf 0).round.phase = .open_) ∧
    phaseDone idle0 0 = false := by decide +kernel

/-- Shelf 0 in COLLECT past its cut-off, its committed count c. -/
def cut0 (c : Nat) : State :=
  { shelves := [(0, { desc := some desc0, round := { active := true, begun := true, phase := .collect, cutPassed := true, committed := c
                                                     desc := { mode := 1, minCohort := 2, clientCount := 4 } } })] }

theorem wit_CutOffAndFreeze :
    (((atR 0 x0).shelf 0).round.active = true ∧ ((atR 0 x0).shelf 0).round.cutPassed = false) ∧
    vstat (cut0 2) 0 ((cut0 2).shelf 0).ctab.1 (ctabLen 4) = .ok ∧
    vstat { cut0 2 with marks := [(0, .poisoned)] } 0 ((cut0 2).shelf 0).ctab.1 (ctabLen 4) ≠ .ok ∧
    (freezeDue (cut0 2) 0 = true ∧ ((cut0 2).shelf 0).round.peers = [] ∧ 2 ≤ 2 ∧ ((cut0 2).shelf 0).round.desc.mode ≠ 3) ∧
    (freezeDue (cut0 1) 0 = true ∧ ((cut0 1).shelf 0).round.committed < ((cut0 1).shelf 0).round.desc.minCohort) ∧ freezeDue idle0 0 = false := by
  decide +kernel

theorem wit_ExchangeAndFlip :
    (let r : Round := { active := true, frozen := true, phase := .collect, desc := { mode := 1 } };
      r.active = true ∧ r.exchPassed = false ∧ r.frozen = true ∧ r.peers = [] ∧ r.desc.mode = 1 ∧ r.phase ≠ .recover) ∧
    (let r : Round := { active := true, sealDone := true, desc := { minCohort := 2 } };
      r.active = true ∧ r.sealDone = true ∧ r.committed < r.desc.minCohort) := by decide

theorem wit_SealAndReseed :
    (let h : Shelf := { round := { active := true, phase := .seal }, rel := { sigs := [1] } };
      h.round.active = true ∧ h.round.phase = .seal ∧ h.rel.sigs ≠ [] ∧ h.rel.signed = false) ∧
    (let s : State := { bays := [(15, { sampler := { reseeding := true } })] };
      (s.bay (15 : BitVec 4).toNat).sampler.reseeding = true) ∧
    (idle0.shelf 0).round.active = false := by decide

/-- The first cohort digest of peer 1, sealed under the pairwise key (R208, R209), and an envelope of kind 4 that does not open. -/
def envelope (kind : Nat) (good : Bool) : Bytes :=
  let head := envHead kind 1 0 7 0 4 0;
  let x := gcmSeal [] (envNonce kind 1 7 0) head [1, 2, 3, 4];
  head ++ (if good then x.1 ++ x.2 else zeros 20)

/-- Shelf 0 in a round of group size 2 with an envelope at the front of its group messages. -/
def group0 (kind : Nat) (good : Bool) : State :=
  { shelves := [(0, { desc := some desc0, remote := { group := [(groupTag 7 kind (if good then 1 else 2), 0, 0, 52)] }
                      round := { active := true, frozen := true, desc := { roundId := 7, groupSize := 2, peerSlot := 8 } } })]
    chest := [(8, { cur := some (key0 1 3) })], mem := memWrite [] 0 (envelope kind good) }

theorem wit_GroupMessages :
    (∀ x ∈ [group0 1 true, group0 4 false], vstat x 0 0 52 = .ok ∧ noteRead 0 0 52 x = x) ∧
    (let s := group0 1 true;
      let s₁ := groupFree 0 0 (s.onRemote 0 (fun x => { x with group := [] }));
      field (groupBytes s 0 (groupTag 7 1 1, 0, 0, 52)) 5 1 = 1 ∧
      openEnvelope s₁ 0 (roundCtx (s.shelf 0)) (groupTag 7 1 1) (groupBytes s 0 (groupTag 7 1 1, 0, 0, 52)) = some (1, 1, [1, 2, 3, 4])) ∧
    (let s := group0 4 false;
      let s₁ := groupFree 0 0 (s.onRemote 0 (fun x => { x with group := [] }));
      field (groupBytes s 0 (groupTag 7 4 2, 0, 0, 52)) 5 1 = 4 ∧
      openEnvelope s₁ 0 (roundCtx (s.shelf 0)) (groupTag 7 4 2) (groupBytes s 0 (groupTag 7 4 2, 0, 0, 52)) = none) := by
  decide +kernel

/-- A legal ring descriptor without a middle, at Cellar offset 0 (R90). -/
def ring64 : Bytes := zeros 16 ++ [0, 15, 8] ++ zeros 45

theorem wit_RingCommands :
    (let s : State := { idle0 with mem := memWrite [] 0 ring64 };
      inCellar (s.shelf 0) 0 64 = true ∧ vstat s 0 0 64 = .ok ∧ noteRead 0 0 64 s = s ∧ ringOf s 0 63 = none ∧
      ringParse s 0 (vread s 0 0 64) = some { middleBase := 0, middleSize := 0, bay := 0, seqMask := 15, highWater := 8 } ∧
      (s.shelf 0).bayOf 0 = some 0 ∧ findReserve s 0 = some [(95 * 0x8_0000, 0x8_0000)]) ∧
    inCellar (idle0.shelf 0) ((2 ^ 42 - 1) * 64) 64 = false ∧
    (let s : State := { shelves := [(0, { desc := some desc0, intake := { rings := [(63, { ring0 with entries := [] })] } })] };
      ringOf s 0 63 = some { ring0 with entries := [] } ∧ ringNamed s 0 63 = false ∧ (s.shelf 0).round.active = false) ∧
    ring0.entries ≠ [] := by
  decide +kernel

theorem wit_LogsAndDelivery :
    ((idle0.shelf 0).round.active = false ∧ (0x8000_0000_0000_0000 : Word).getLsbD 63 = true ∧ inCellar (idle0.shelf 0) 0 0x20000 = true) ∧
    ((atR 0 x0).shelf 0).round.active = true ∧ (∀ e ∈ [crate0 .committed], e.state ≠ .arriving ∧ e.state ≠ .admitted) ∧
    (let x : Ring := { ring0 with waiting := [rec0] };
      let h : Shelf := { desc := some desc0, round := { active := true, begun := true, phase := .collect }, intake := { rings := [(63, x)] } };
      let s : State := { shelves := [(0, h)] };
      ringOf s 0 63 = some x ∧ recordDue h rec0 = true ∧ arrivingBefore h 63 rec0.logSeq = false ∧
      (ringSeqs h x).find? (fun e => decide ((s.seq e.2).inbox.length < 64)) = some (0, 0)) := by decide +kernel

/-! ### Masks, streams and dropout recovery -/

/-- (The graph seed is empty: no key schedule, so that the kernel evaluates the neighbour graph quickly.) A masked-sum round of four clients of degree 2 in a phase; client 0 committed, the others dropped; the client table at Cellar offset 0, the
mask-key table at 0x100. -/
def masked0 (p : Phase) (x : Recov) (m : Bytes) : State :=
  { shelves := [(0, { desc := some desc0, cfg := [(0x348, reg64 0 1), (0x900, 0x100)], recov := x
                      round := { active := true, begun := true, phase := p
                                 desc := { mode := 1, foldOp := 1, clientCount := 4, degree := 2, threshold := 2, minCohort := 2, tExchange := 10 } }
                      intake := { rings := [(0, ring0)], log := [{ crate0 .admitted with kind := 2, len := 256 }] } })]
    bays := [(0, { casks := [(5, cask0 1)] })], mem := memWrite [(0, 2)] 0x4000 m }

theorem presents_masked {p : Phase} {x : Recov} {m : Bytes} {n kind : Nat} {d : Bytes} (hk : dKind d = kind) (hc : classOk n kind = true)
    (hl : layoutOk d = true) (hn : latticeKind kind = false) (h12 : n < 12 := by decide) : Presents (put n d (masked0 p x m)) 0 n 0 kind d :=
  presents_put hk hc hl (by simp [hn]) rfl rfl h12

/-- A mask form over Cask 5 of the pairs from 0. -/
def mCmd (kind : Byte) (set num : Nat) : Bytes :=
  cmd kind ([5, 0, 0] ++ toLe 1 set ++ toLe 4 0 ++ toLe 4 4 ++ toLe 4 0 ++ toLe 4 0 ++ toLe 4 num)

theorem wit_MaskFolds :
    (let s := put 0 (mCmd 7 0 1) (masked0 .unmask { selfKeys := [(0, zeros 32)] } []);
      Presents s 0 0 0 0x07 (mCmd 7 0 1) ∧ maskCheck false 0 0 (mCmd 7 0 1) s = none ∧
      maskEntries s 0 (mSet (mCmd 7 0 1)) (mFirst (mCmd 7 0 1)) (mNum (mCmd 7 0 1)) = some [(zeros 32, true)] ∧ CaskSound s 0 (fCask (mCmd 7 0 1))) ∧
    (let s := put 0 (mCmd 7 1 7) (masked0 .unmask {} []);
      Presents s 0 0 0 0x07 (mCmd 7 1 7) ∧ maskEntries s 0 (mSet (mCmd 7 1 7)) (mFirst (mCmd 7 1 7)) (mNum (mCmd 7 1 7)) = none ∧ CaskSound s 0 (fCask (mCmd 7 1 7))) ∧
    (let r : State := { masked0 .unmask { selfKeys := [(0, zeros 32)] } [] with
        shelves := [(0, { (masked0 .unmask { selfKeys := [(0, zeros 32)] } []).shelf 0 with
          round := { ((masked0 .unmask {} []).shelf 0).round with desc := { ((masked0 .unmask {} []).shelf 0).round.desc with flags := 1 } } })] };
      Presents (put 0 (mCmd 8 0 1) r) 0 0 0 0x08 (mCmd 8 0 1) ∧ maskCheck true 0 0 (mCmd 8 0 1) (put 0 (mCmd 8 0 1) r) = none ∧
      maskEntries (put 0 (mCmd 8 0 1) r) 0 0 0 1 = some [(zeros 32, true)] ∧ CaskSound (put 0 (mCmd 8 0 1) r) 0 (fCask (mCmd 8 0 1))) := by
  refine ⟨⟨presents_masked ?_ ?_ ?_ ?_, ?_, ?_, sound_clean rfl ?_ rfl⟩, ⟨presents_masked ?_ ?_ ?_ ?_, ?_, sound_clean rfl ?_ rfl⟩,
    ⟨presents_put ?_ ?_ ?_ ?_ ?_ ?_, ?_, ?_, sound_clean rfl ?_ rfl⟩⟩ <;> decide +kernel

theorem wit_NeighboursSymmetric :
    let d : RoundDesc := { clientCount := 4, degree := 2 };
    d.clientCount < 2 ^ 24 ∧ d.k < d.clientCount ∧ 3 < d.clientCount ∧ (List.range 4).any (fun j => (neighbours d 3).contains j) = true := by
  decide +kernel

/-- A stream or hash: SLOT, LENGTH, DST, SRC, SRC_LEN. -/
def hCmd (kind : Byte) (slot len dst src m : Nat) : Bytes :=
  cmd kind (toLe 8 slot ++ toLe 8 len ++ toLe 8 dst ++ toLe 8 src ++ toLe 8 m)

/-- Shelf 0 with a key in slot 3 for the sequencers. -/
def keyed0 : State := { idle0 with chest := [(3, { cur := some { key := zeros 32, attr := BitVec.ofNat 64 (1 + 2 ^ 9 + 2 ^ 13 + 2 ^ 16 + 2 ^ 22 + 15 * 2 ^ 26) } })] }

theorem wit_StreamsAndHashes :
    (let d := hCmd 0x18 3 32 store0 0 0;
      Presents (put 4 d keyed0) 0 4 0 0x18 d ∧ operandOk (put 4 d keyed0) 0 store0 32 8 = true ∧
      (match bindCur (put 4 d keyed0) 3 (xstreamUse 0) with | .ok _ => true | .error _ => false) = true ∧
      (match bindCur (put 4 d keyed0) 4 (xstreamUse 0) with | .ok _ => true | .error _ => false) = false ∧
      operandOk (put 4 d keyed0) 0 (store0 + 4) 32 8 = false) ∧
    (let d := hCmd 0x19 0 32 store0 (store0 + 64) 8;
      Presents (put 4 d idle0) 0 4 0 0x19 d ∧ operandOk (put 4 d idle0) 0 store0 32 8 = true ∧ operandOk (put 4 d idle0) 0 (store0 + 64) 8 8 = true ∧
      vstat (put 4 d idle0) 0 (store0 + 64) 8 = .ok ∧ operandOk (put 4 d idle0) 0 (store0 + 65) 8 8 = false) ∧
    (let d := hCmd 0x1A 0 0 store0 (store0 + 64) 8;
      let s : State := { put 4 d idle0 with marks := [((store0 + 64) / 64, .poisoned)] };
      Presents (put 4 d idle0) 0 4 0 0x1A d ∧ Presents s 0 4 0 0x1A d ∧ operandOk s 0 store0 32 8 = true ∧ operandOk s 0 (store0 + 64) 8 8 = true ∧ 0 < 8 ∧
      vstat s 0 (store0 + 64) 8 ≠ .ok) := by
  refine ⟨⟨presents_put ?_ ?_ ?_ ?_ ?_ ?_, ?_⟩, ⟨presents_put ?_ ?_ ?_ ?_ ?_ ?_, ?_⟩, presents_put ?_ ?_ ?_ ?_ ?_ ?_,
    presents_put (s := { idle0 with marks := [((store0 + 64) / 64, .poisoned)] }) ?_ ?_ ?_ ?_ ?_ ?_, ?_⟩ <;> decide +kernel

theorem wit_SignatureVerdict :
    (let d := fCmd 0x12 0 0 0 0 0 [];
      let s := put 4 d (ledger0 .admitted []);
      Presents s 0 4 0 0x12 d ∧ heldCrate s 0 (fWide d) = some (crate0 .admitted) ∧ (sigParts 0 (fWide d) s).1 = .ok ∧
      (sigParts 0 (fWide d) s).2.2.2 = s) ∧
    (let d := fCmd 0x12 0 0 0 0 1 [];
      Presents (put 4 d (ledger0 .admitted [])) 0 4 0 0x12 d ∧ heldCrate (put 4 d (ledger0 .admitted [])) 0 (fWide d) = none) := by
  refine ⟨⟨presents_ledger ?_ ?_ ?_ ?_, ?_, ?_, rfl⟩, ⟨presents_ledger ?_ ?_ ?_ ?_, ?_⟩⟩ <;> decide +kernel

/-- A share slot for target w of a KIND (R180). -/
def slot64 (kind w l0 : Nat) : Bytes := toLe 1 kind ++ zeros 3 ++ toLe 4 w ++ zeros 8 ++ toLe 16 l0 ++ zeros 32

theorem wit_ShareSlots :
    field (slot64 0 1 0) 0 1 = 0 ∧ (field (slot64 1 1 0) 4 4 ≠ 0 + 2 ∧ 2 < field (slot64 3 1 0) 0 1 ∧ p127 ≤ field (slot64 1 1 p127) 0x10 16) ∧
    (zeroAt (slot64 1 1 0) 1 3 = true ∧ zeroAt (slot64 1 1 0) 8 8 = true) ∧
    (field (slot64 1 0 0) 0 1 = 1 ∧ survives (masked0 .recover {} []) 0 0 = true) ∧
    (field (slot64 2 1 0) 0 1 = 2 ∧ survives (masked0 .recover {} []) 0 1 = false ∧ survives (masked0 .recover {} []) 0 0 = true) := by decide +kernel

theorem wit_SharesTaken :
    let d := fCmd 0x14 0 0 0 0 0 [];
    let s := put 4 d (masked0 .recover {} []);
    Presents s 0 4 0 0x14 d ∧ admittedOf s 0 (fWide d) 2 = some { crate0 .admitted with kind := 2, len := 256 } ∧ field d 9 1 = 0 ∧
    pastExchange s 0 = false ∧ pastExchange { s with clk := 10 } 0 = true ∧
    (crateRead 0 (fWide d) 512 192 s).1 = .ok ∧ (crateRead 0 (fWide d) 512 192 s).2.2 = s ∧
    (let d2 := fCmd 0x14 0 0 0 0 9 [];
      Presents (put 4 d2 (masked0 .recover {} [])) 0 4 0 0x14 d2 ∧ admittedOf (put 4 d2 (masked0 .recover {} [])) 0 (fWide d2) 2 = none) := by
  refine ⟨presents_masked ?_ ?_ ?_ ?_, ?_, ?_, ?_, ?_, ?_, rfl, presents_masked ?_ ?_ ?_ ?_, ?_⟩ <;> decide +kernel

/-- A constant polynomial's shares of client 0 at its three holders, and its seed. -/
def rec3 : Recov := { checked := true, shares := [(0, { l0 := 5, l1 := 6, l2 := 7 }), (1, { l0 := 5, l1 := 6, l2 := 7 }), (2, { l0 := 5, l1 := 6, l2 := 7 })] }
def seed32 : Bytes := toLe 15 5 ++ toLe 15 6 ++ toLe 2 7

/-- LAGR and ECDH of one client. -/
def lCmd (kind : Byte) (w : Nat) : Bytes := cmd kind (zeros 4 ++ toLe 4 w ++ toLe 4 1)

theorem wit_SecretsRebuilt :
    (Presents (put 4 (lCmd 0x15 0) (masked0 .recover {} [])) 0 4 0 0x15 (lCmd 0x15 0) ∧ recovChecked ((masked0 .recover {} []).shelf 0) = false) ∧
    (let m := zeros 32 ++ seedCommit { mode := 1 } 0 seed32;
      let s := put 4 (lCmd 0x15 0) (masked0 .recover rec3 m);
      Presents s 0 4 0 0x15 (lCmd 0x15 0) ∧ recovChecked (s.shelf 0) = true ∧
      clientRange (s.shelf 0).round.desc (field (lCmd 0x15 0) 0xC 4) (field (lCmd 0x15 0) 0x10 4) = [0] ∧ tmem (s.shelf 0).recov.secrets 0 = false ∧
      Clean s 0 (maskkeyAddr (s.shelf 0) 0) 64 ∧ reconstruct s 0 0 = some seed32) ∧
    reconstruct (masked0 .recover rec3 []) 0 1 = none ∧
    Presents (put 4 (lCmd 0x16 1) (masked0 .recover {} [])) 0 4 0 0x16 (lCmd 0x16 1) ∧
    (let s := put 4 (lCmd 0x16 1) (masked0 .recover { checked := true, secrets := [(1, zeros 32)] } (toLe 32 9));
      recovChecked (s.shelf 0) = true ∧ tmem (s.shelf 0).recov.secrets 1 = true ∧
      (dropped s 0).zipIdx.filter (fun e => (clientRange (s.shelf 0).round.desc (field (lCmd 0x16 1) 0xC 4) (field (lCmd 0x16 1) 0x10 4)).contains e.1) = [(1, 0)] ∧
      tmem (s.shelf 0).recov.pairs 0 = false ∧ (pairSlots s 0 0 1).length = 1 ∧ (pairSlots s 0 0 1).head?.map (·.2) = some 0 ∧
      Clean s 0 (maskkeyAddr (s.shelf 0) 0) 64 ∧
      (x25519 (tget [] (s.shelf 0).recov.secrets 1) (vread s 0 (maskkeyAddr (s.shelf 0) 0) 32)).all (· == 0) = false) := by
  refine ⟨⟨presents_masked ?_ ?_ ?_ ?_, ?_⟩, ⟨presents_masked ?_ ?_ ?_ ?_, ?_, ?_, ?_, ?_, ?_⟩, ?_, presents_masked ?_ ?_ ?_ ?_, ?_⟩
  all_goals first | (unfold Clean; decide +kernel) | decide +kernel

/-! ### The lattice cluster, sealed rounds and refresh -/

theorem wit_TransformInverse :
    2 < 17 ∧ (∀ d, d ∣ 17 → d = 1 ∨ d = 17) ∧ 2 ^ (2 + 1) ∣ 17 - 1 ∧ ([1, 2, 3, 16] : Limb).length = 2 ^ 2 ∧ ∀ x ∈ ([1, 2, 3, 16] : Limb), x < 17 := by
  refine ⟨by decide, fun d h => ?_, by decide, by decide, by decide⟩
  have hd : d < 18 := Nat.lt_succ_of_le (Nat.le_of_dvd (by decide) h)
  have : ∀ d < 18, d ∣ 17 → d = 1 ∨ d = 17 := by decide
  exact this d hd h

/-- A parameter block with its first bytes and its primes. -/
def pset0 (log2n limbs special cts t : Nat) (primes : List Nat) : Machine.PSet :=
  { block := toLe 4 0x5453504B ++ toLe 2 1 ++ [1] ++ toLe 1 log2n ++ toLe 1 limbs ++ toLe 1 special ++ toLe 1 special ++ [0, 0, 0] ++ toLe 1 cts ++ [1] ++
      toLe 8 t ++ toLe 2 200 ++ toLe 2 100 ++ toLe 2 20 ++ toLe 2 150 ++ zeros 32 ++ primes.flatMap (toLe 8) }

/-- A shelf with two Cellar pseudo-channels and a lattice state. -/
def lat0 (l : Lattice) (f : Shelf → Shelf) : State := { shelves := [(0, f { desc := some { desc0 with pcs := [0, 1] }, lat := l })] }

/-- A residue command of one block of set 0. -/
def rCmd (kind : Byte) (flags src src2 dst : Nat) : Bytes :=
  cmd kind ([0, 0, 1, 1] ++ toLe 1 flags ++ zeros 3 ++ toLe 8 src ++ toLe 8 src2 ++ toLe 8 dst)

/-- A shelf with a set of degree 4. -/
def res0 (d : Bytes) : State := put 4 d (lat0 { psets := [(0, pset0 2 1 0 1 3 [17])] } id)

theorem presents_lat {l : Lattice} {f : Shelf → Shelf} {n kind : Nat} {d : Bytes} (hk : dKind d = kind) (hc : classOk n kind = true) (hl : layoutOk d = true)
    (h₀ : shelfOf (lat0 l f) 0 = some 0) (hf : ((lat0 l f).shelf 0).fenced = false) (h12 : n < 12 := by decide) :
    Presents (put n d (lat0 l f)) 0 n 0 kind d :=
  presents_put hk hc hl (by simp [latticeGated, lat0]) h₀ hf h12

theorem wit_ResidueCommands :
    (∀ d ∈ [rCmd 0x20 0 store0 0 store0, rCmd 0x21 0 store0 0 (store0 + 64), rCmd 0x20 0 store0 0 (store0 + 16), rCmd 0x21 0 store0 0 (store0 + 16),
        rCmd 0x22 0 store0 (store0 + 128) (store0 + 16), rCmd 0x22 0 store0 (store0 + 128) store0, rCmd 0x22 3 store0 (store0 + 128) store0],
      layoutOk d = true ∧ resSet ((res0 d).shelf 0) d = some (pset0 2 1 0 1 3 [17]) ∧ resLen (pset0 2 1 0 1 3 [17]) d = 32) ∧
    Presents (res0 (rCmd 0x20 0 store0 0 store0)) 0 4 0 0x20 (rCmd 0x20 0 store0 0 store0) ∧
    Presents (res0 (rCmd 0x21 0 store0 0 (store0 + 64))) 0 4 0 0x21 (rCmd 0x21 0 store0 0 (store0 + 64)) ∧
    Presents (res0 (rCmd 0x20 0 store0 0 (store0 + 16))) 0 4 0 0x20 (rCmd 0x20 0 store0 0 (store0 + 16)) ∧
    Presents (res0 (rCmd 0x21 0 store0 0 (store0 + 16))) 0 4 0 0x21 (rCmd 0x21 0 store0 0 (store0 + 16)) ∧
    Presents (res0 (rCmd 0x22 0 store0 (store0 + 128) (store0 + 16))) 0 4 0 0x22 (rCmd 0x22 0 store0 (store0 + 128) (store0 + 16)) ∧
    Presents (res0 (rCmd 0x22 0 store0 (store0 + 128) store0)) 0 4 0 0x22 (rCmd 0x22 0 store0 (store0 + 128) store0) ∧
    Presents (res0 (rCmd 0x22 3 store0 (store0 + 128) store0)) 0 4 0 0x22 (rCmd 0x22 3 store0 (store0 + 128) store0) ∧
    (let s := res0 (rCmd 0x22 0 store0 (store0 + 128) store0);
      latticeOk s 0 store0 32 = true ∧ Clean s 0 store0 32 ∧ latticeOk s 0 (store0 + 64) 32 = true ∧ overlap store0 32 (store0 + 64) 32 = false ∧
      overlap store0 32 (store0 + 16) 32 = true ∧ latticeOk s 0 (store0 + 128) 32 = true ∧ Clean s 0 (store0 + 128) 32 ∧
      overlap (store0 + 128) 32 store0 32 = false ∧ latticeOk s 0 (store0 + 128) 8 = true ∧ Clean s 0 (store0 + 128) 8) := by
  refine ⟨?_, presents_lat ?_ ?_ ?_ ?_ ?_, presents_lat ?_ ?_ ?_ ?_ ?_, presents_lat ?_ ?_ ?_ ?_ ?_, presents_lat ?_ ?_ ?_ ?_ ?_, presents_lat ?_ ?_ ?_ ?_ ?_,
    presents_lat ?_ ?_ ?_ ?_ ?_, presents_lat ?_ ?_ ?_ ?_ ?_, ?_⟩ <;> (try unfold Clean) <;> decide +kernel

/-- A set of degree 4096 with one prime and one special prime, and a key set of it with one key and no chunks. -/
def p12 : Machine.PSet := pset0 12 1 1 2 3 [40961, 65537]
def kset0 : KSet := { base := 0, units := 0, pset := 0, header := zeros 8 ++ toLe 8 77 ++ zeros 0x13 ++ [3, 1, 0] ++ zeros 0x10DA }

/-- Its PARAM_FP (R218). -/
def p12Fp : Nat := 5520857277946448486
theorem p12_fp : p12.fp = p12Fp := by decide +kernel

/-- A key switch by set 0 from Cellar offset 0x10_0000. -/
def kCmd : Bytes := cmd 0x23 ([0] ++ zeros 7 ++ toLe 8 0x10_0000 ++ toLe 8 0x20_0000 ++ toLe 8 0x30_0000)

/-- The shelf with an object there of a key set, budget and flags. -/
def ksw0 (id flags budget : Nat) : State :=
  put 4 kCmd { lat0 { psets := [(0, p12)], ksets := [(0, kset0)] } (fun h => h) with mem := memWrite [] 0x200_0000 (hdrBytes 1 12 id p12Fp 1 flags budget 0) }

theorem presents_ksw {id flags budget : Nat} : Presents (ksw0 id flags budget) 0 4 0 0x23 kCmd :=
  presents_put (by decide +kernel) (by decide +kernel) (by decide +kernel) (by simp [latticeGated, lat0]) rfl rfl

theorem wit_KeySwitch :
    (∀ id flags budget, Presents (ksw0 id flags budget) 0 4 0 0x23 kCmd ∧ ((ksw0 id flags budget).shelf 0).lat.mismatch = 0 ∧
      ((ksw0 id flags budget).shelf 0).lat.exhausted = 0 ∧ ((ksw0 id flags budget).shelf 0).conf = false ∧
      ((ksw0 id flags budget).shelf 0).kset (field kCmd 8 1) = some kset0 ∧ ((ksw0 id flags budget).shelf 0).pset kset0.pset = some p12) ∧
    (let s := ksw0 77 4 100;
      latticeOk s 0 0x10_0000 64 = true ∧ Clean s 0 0x10_0000 64 ∧ hdrOk (vread s 0 0x10_0000 64) = true ∧ oInvalid (vread s 0 0x10_0000 64) = true) ∧
    (let s := ksw0 77 0 100;
      let hb := vread s 0 0x10_0000 64;
      hdrOk hb = true ∧ oInvalid hb = false ∧ latticeOk s 0 0x10_0000 (oLen hb) = true ∧ (oParam hb = p12Fp ∧ oScheme hb = p12.scheme ∧ oLog2n hb = p12.log2n ∧ oLevel hb ≤ p12.limbs) ∧
      keyswOperands s 0 0x10_0000 (oLen hb) 0x20_0000 0x30_0000 (oLevel hb) p12 = true ∧ p12.special ≠ 0 ∧ p12.dnum ≠ 0 ∧ 0 < kset0.keys ∧
      oKeyset hb = kset0.id ∧ p12.decCost + 16 ≤ min (oBudget hb) p12.kswCap ∧ streamStatus s 0 kset0 (kset0.first 0) (kset0.count 0) = .ok ∧
      Clean s 0 0x10_0000 (oLen hb)) ∧
    oKeyset (vread (ksw0 76 0 100) 0 0x10_0000 64) ≠ kset0.id ∧
    (let hb := vread (ksw0 77 0 35) 0 0x10_0000 64;
      oKeyset hb = kset0.id ∧ oPolicy hb = 0 ∧ min (oBudget hb) p12.kswCap < p12.decCost + 16) := by
  refine ⟨fun _ _ _ => ⟨presents_ksw, rfl, rfl, rfl, rfl, rfl⟩, ⟨?_, ?_, ?_, ?_⟩, ⟨?_, ?_, ?_, ?_, ?_, ?_, ?_, ?_, ?_, ?_, ?_, ?_⟩, ?_, ?_⟩
  all_goals first | (unfold Clean; decide +kernel) | decide +kernel

/-- PDEC of sum object 0, in a sealed round in UNMASK whose share slot is 9; the sum area is at Cellar offset 0x10_0000. -/
def dCmd : Bytes := cmd 0x24 [0, 0, 1]
def pdec0 : State :=
  let x : KSet := { base := 0, units := 0, pset := 0, header := zeros 8 ++ toLe 8 77 ++ zeros 0x13 ++ [9] ++ zeros 0x10DC };
  put 4 dCmd { lat0 { psets := [(0, p12)], ksets := [(0, x)] } (fun h => { h with
      cfg := [(0xC10, 0x10_0000), (0xC18, reg64 0x100 8)]
      round := { active := true, begun := true, phase := .unmask, desc := { mode := 3, groupSize := 2, threshold := 2, keysetId := 77 } }
      sealSt := { sumReady := true } }) with
    chest := [(9, { cur := some (key0 1 8) })], mem := memWrite [] 0x200_0000 (hdrBytes 1 12 77 p12Fp 1 0 100 0) }

theorem wit_PartialDecryption :
    (let s : State := { put 4 dCmd idle0 with bays := [(0, { sampler := { reseeding := true } })] };
      Presents s 0 4 0 0x24 dCmd ∧ (s.bay 0).sampler.reseeding = true) ∧
    (∃ ki x key, Presents pdec0 0 4 0 0x24 dCmd ∧ (pdec0.bay 0).sampler.reseeding = false ∧ (pdec0.shelf 0).roundSet = some p12 ∧
      roundKset (pdec0.shelf 0) = some (ki, x) ∧ (pdec0.shelf 0).sealedRound = true ∧ (pdec0.shelf 0).round.phase = .unmask ∧ field dCmd 0xA 1 = 1 ∧
      field dCmd 9 1 < p12.cts ∧ (pdec0.shelf 0).sealSt.pdecObjs.length + 1 < p12.cts ∧ bindCur pdec0 x.shareSlot (shareUse 0) = .ok key ∧
      ((pdec0.shelf 0).sumArea p12).1 + 0 * p12.obj = 0x10_0000 ∧ Clean pdec0 0 0x10_0000 64 ∧ srcRefused false .ok (vread pdec0 0 0x10_0000 64) = none ∧
      p12.decCost ≤ oBudget (vread pdec0 0 0x10_0000 64) ∧ Clean pdec0 0 0x10_0000 (oLen (vread pdec0 0 0x10_0000 64)) ∧
      Clean pdec0 0 (x.chunkAt x.shareFirst) p12.shareLen) ∧
    (Presents (put 4 dCmd idle0) 0 4 0 0x24 dCmd ∧ (idle0.shelf 0).sealedRound = false) := by
  have h : Presents (put 4 dCmd idle0) 0 4 0 0x24 dCmd := by refine presents_put ?_ ?_ ?_ ?_ ?_ ?_ <;> decide +kernel
  refine ⟨⟨h, rfl⟩, ⟨_, _, _, ?_, rfl, rfl, rfl, rfl, rfl, ?_, ?_, ?_, rfl, ?_, ?_, ?_, ?_, ?_, ?_⟩, h, rfl⟩
  · exact presents_put (by decide +kernel) (by decide +kernel) (by decide +kernel) (by simp [latticeGated, lat0]) rfl rfl
  all_goals first | (unfold Clean; decide +kernel) | decide +kernel

/-- A set of degree 4 with one prime. -/
def p4 : Machine.PSet := pset0 2 1 0 1 3 [17]

/-- PCOMB of object 0 into Cask 5. -/
def bCmd : Bytes := cmd 0x0B ([5] ++ zeros 15 ++ toLe 4 0 ++ toLe 4 1)

theorem wit_Combination :
    (let s : State := put 0 bCmd { lat0 { psets := [(0, p4)] } (fun h => { h with
        cfg := [(0xC10, 0x10_0000), (0xC18, reg64 0x100 8)]
        round := { active := true, begun := true, phase := .unmask, desc := { mode := 3, groupSize := 2, threshold := 2 } }
        sealSt := { set_ := [0, 1] } }) with bays := [(0, { casks := [(5, { cask0 6 with cfg := 0x8_0601 })] })], mem := memWrite [] 0x200_0000 (hdrBytes 1 12 77 5 1 0 100 0) };
      Presents s 0 0 0 0x0B bCmd ∧ (s.bay 0).retr = [] ∧ (s.bay 0).hold = [] ∧ pcombCheck 0 0 bCmd s = none ∧ (s.shelf 0).roundSet = some p4 ∧
      combineStat s 0 p4 [0] = .ok ∧ CaskSound s 0 (fCask bCmd) ∧
      fCoff bCmd + ((combineValues s 0 p4 0).map (fun v => wrap 64 (centred p4.t v))).length ≤ (s.cask 0 (fCask bCmd)).len ∧
      srcRefused false (vstat s 0 ((s.shelf 0).sumArea p4).1 64) (vread s 0 ((s.shelf 0).sumArea p4).1 64) = none ∧
      (List.range (mNum bCmd)).map (· + mFirst bCmd) = [0]) ∧
    (Presents (put 0 bCmd idle0) 0 0 0 0x0B bCmd ∧ (idle0.shelf 0).roundSet = none) := by
  refine ⟨⟨presents_put ?_ ?_ ?_ ?_ rfl rfl, rfl, rfl, ?_, rfl, ?_, sound_clean rfl ?_ rfl, ?_, ?_, ?_⟩, presents_put ?_ ?_ ?_ ?_ ?_ ?_, rfl⟩ <;> decide +kernel

/-- A key set with refresh keys, of set 0 with PARAM_FP 5. -/
def rset0 : KSet := { base := 0x40_0000, units := 2, pset := 0, header := zeros 6 ++ [1, 0] ++ toLe 8 77 ++ zeros 8 ++ toLe 8 5 ++ zeros 0x10E0 }

/-- A shelf with refresh slots of 4 units each at 0x100_0000, an object at 0x10_0000, and slot 1 as given. -/
def ref0 (kind : Byte) (part : Nat) (x : Tab RSlot) : State :=
  let d := cmd kind ([0, 0, 0, 0, 0, 1] ++ toLe 1 part ++ [2] ++ (if kind = 0x25 then toLe 8 0x10_0000 ++ zeros 8 ++ toLe 8 0x30_0000 else []));
  put 4 d { lat0 { psets := [(0, p4)], ksets := [(0, rset0)], slots := x } (fun h => { h with cfg := [(0xE80, reg64 0x100 8), (0xE88, 0x4_0000_0002)] }) with
    mem := memWrite [] 0x200_0000 (hdrBytes 1 12 77 5 1 0 100 0) }

theorem presents_ref {kind : Byte} {part : Nat} {x : Tab RSlot} (hk : dKind (headDesc (ref0 kind part []) 0 4) = kind.toNat)
    (hl : layoutOk (headDesc (ref0 kind part []) 0 4) = true) (hc : classOk 4 kind.toNat = true) :
    Presents (ref0 kind part x) 0 4 0 kind.toNat (headDesc (ref0 kind part []) 0 4) :=
  presents_put (s := { lat0 { psets := [(0, p4)], ksets := [(0, rset0)], slots := x }
    (fun h => { h with cfg := [(0xE80, reg64 0x100 8), (0xE88, 0x4_0000_0002)] }) with mem := memWrite [] 0x200_0000 (hdrBytes 1 12 77 5 1 0 100 0) })
    hk hc hl (by simp [latticeGated, lat0]) rfl rfl

/-- The operands of those commands. -/
theorem ref0_fields :
    let d := headDesc (ref0 0x25 0 []) 0 4;
    field d 0xD 1 = 1 ∧ field d 0xE 1 = 0 ∧ field d 0xF 1 = 2 ∧ field d 0x10 8 = 0x10_0000 ∧ field d 0x20 8 = 0x30_0000 := by decide +kernel

/-- A slot that has gathered the part of bay 1, and one that is suspended, its source a block of zeros. -/
def gather0 : RSlot :=
  { state := .gather, partsN := 2, parts := [(0, 1)], kset := 0, src := 0x10_0000, dst := 0x30_0000, keysetId := 77, paramFp := 5
    head := hdrBytes 1 12 77 5 1 0 100 0, outLen := p4.obj }
def suspended0 : RSlot := { state := .suspended, partsN := 2, src := 0x20_0000, keysetId := 77, digest := sha3 (zeros 64) }

theorem wit_RefreshIssued :
    (∀ x, Presents (ref0 0x25 0 x) 0 4 0 0x25 (headDesc (ref0 0x25 0 []) 0 4) ∧ Presents (ref0 0x25 1 x) 0 4 0 0x25 (headDesc (ref0 0x25 1 []) 0 4) ∧
      Presents (ref0 0x26 0 x) 0 4 0 0x26 (headDesc (ref0 0x26 0 []) 0 4) ∧ ((ref0 0x25 0 x).shelf 0).kset 0 = some rset0 ∧
      ((ref0 0x25 0 x).shelf 0).pset rset0.pset = some p4 ∧ ((ref0 0x25 0 x).shelf 0).conf = false) ∧
    (let s := ref0 0x25 0 [];
      let hb := vread s 0 0x10_0000 64;
      latticeOk s 0 0x10_0000 64 = true ∧ srcRefused false .ok hb = none ∧ latticeOk s 0 0x10_0000 (oLen hb) = true ∧ Clean s 0 0x10_0000 (oLen hb) ∧
      Clean s 0 0x10_0000 64 ∧ rset0.refreshKeys = true ∧ oKeyset hb = rset0.id ∧ oParam hb = rset0.paramFp ∧
      slotFits (s.shelf 0) p4 (rdE (refreshDesc s 0 rset0)) 1 = true ∧ partsOk (s.shelf 0) 0 2 = true ∧ partsOk (s.shelf 0) 1 2 = true ∧
      rdMin (refreshDesc s 0 rset0) ≤ oBudget hb ∧ (s.rslot 0 1).state = .free ∧ dstOk s 0 1 0x10_0000 0x30_0000 (oLen hb) p4.obj = true) ∧
    (let s := ref0 0x25 1 [(1, gather0)];
      s.rslot 0 1 = gather0 ∧ field (headDesc s 0 4) 0xE 1 = 1 ∧ (∀ e ∈ gather0.parts, e.1 ≠ 1 ∧ e.2 ≠ 0) ∧ gather0.parts.length + 1 = 2 ∧
      mayRun (s.shelf 0) gather0 = true ∧ dstOk s 0 1 0x10_0000 0x30_0000 (oLen (vread s 0 0x10_0000 64)) p4.obj = true) ∧
    (let s := ref0 0x26 0 [(1, suspended0)];
      s.rslot 0 1 = suspended0 ∧ partsOk (s.shelf 0) 0 2 = true ∧ suspended0.state = .suspended ∧ suspended0.parts = [] ∧
      Clean s 0 suspended0.src (oLen (vread s 0 suspended0.src 64)) ∧
      (s.shelf 0).lat.ksets.find? (fun e => e.2.id == suspended0.keysetId && e.2.refreshKeys) = some (0, rset0) ∧ (s.shelf 0).kset 0 = some rset0 ∧
      sha3 (vread s 0 suspended0.src (oLen (vread s 0 suspended0.src 64))) = suspended0.digest) := by
  refine ⟨fun x => ⟨presents_ref ?_ ?_ ?_, presents_ref ?_ ?_ ?_, presents_ref ?_ ?_ ?_, rfl, rfl, rfl⟩,
    ⟨?_, ?_, ?_, ?_, ?_, ?_, ?_, ?_, ?_, ?_, ?_, ?_, rfl, ?_⟩, ⟨rfl, ?_, ?_, rfl, ?_, ?_⟩, ⟨rfl, ?_, rfl, rfl, ?_, ?_, rfl, ?_⟩⟩
  case refine_30 =>
    have h : vread (ref0 0x26 0 [(1, suspended0)]) 0 suspended0.src (oLen (vread (ref0 0x26 0 [(1, suspended0)]) 0 suspended0.src 64)) = zeros 64 := by decide +kernel
    have hd : suspended0.digest = sha3 (zeros 64) := by simp only [suspended0]
    rw [hd]; exact congrArg sha3 h
  case refine_29 => rfl
  all_goals first | (unfold Clean; decide +kernel) | decide +kernel

theorem wit_RefreshStages :
    (let s := ref0 0x25 0 [(1, { gather0 with state := .running })];
      (s.rslot 0 1).state = .running ∧ slotKeys s 0 1 = some (rset0, p4) ∧ stageKeys (refreshDesc s 0 rset0) 1 = [] ∧
      vstat s 0 0x10_0000 (oLen gather0.head) = .ok ∧ (s.rslot 0 1).last = 0) ∧
    (let s := ref0 0x25 0 [(1, { gather0 with state := .running, last := 5 })];
      (s.rslot 0 1).last = 5 ∧ stageKeys (refreshDesc s 0 rset0) 6 = [] ∧ (s.rslot 0 1).dst ≠ 0 ∧
      vstat s 0 ((s.shelf 0).slotHalf p4 (rdE (refreshDesc s 0 rset0)) 1 (stageOut 5)) (halfUnits p4 (rdE (refreshDesc s 0 rset0)) * 0x10000) = .ok) ∧
    gather0.state ≠ .running := by
  refine ⟨⟨rfl, rfl, ?_, ?_, rfl⟩, ⟨rfl, ?_, ?_, ?_⟩, ?_⟩ <;> decide +kernel

theorem wit_RefreshSlotFreed :
    ((ref0 0x26 0 [(1, suspended0)]).rslot 0 (1 : BitVec 3).toNat).state = .suspended ∧ (1 : BitVec 3).toNat < ((ref0 0x26 0 []).shelf 0).refSlots ∧
    ((ref0 0x26 0 [(1, { gather0 with state := .paused })]).rslot 0 (1 : BitVec 3).toNat).state = .paused := by decide +kernel

/-- A legal parameter set of degree 4096 without special primes (R217, R218). -/
def pset12 : Bytes := (pset0 12 1 0 1 3 [40961]).block ++ zeros (1024 - 0x48)

/-- The header of a key-set image without keys or chunks, of a set whose block is empty (the checks of R228 pass on it). -/
def ksetHead : Bytes :=
  toLe 4 0x5445534B ++ toLe 2 1 ++ zeros 2 ++ toLe 8 7357219233906154824 ++ zeros 8 ++ toLe 8 7410425521722818471 ++ [0, 2, 2, 9] ++ zeros 12 ++
    toLe 32 33591244640371925502122120465629805428922884526608935689726864827131003076519 ++ zeros 12 ++ toLe 16 1329227995784915872903807060280344576

/-- Shelf 0 with the parameter block, or the image, at Cellar offset 0. -/
def sets0 (m : Bytes) (l : Lattice) : State :=
  { shelves := [(0, { desc := some desc0, lat := l })], chest := [(9, { cur := some (key0 1 8) })], mem := memWrite [] 0 m }

theorem vread_drop (s : State) (k a n m : Nat) : (vread s k a n).drop m = vread s k (a + m) (n - m) := by
  induction m generalizing a n with
  | zero => simp
  | succ m ih =>
    cases n with
    | zero => simp [vread]
    | succ n =>
      have : a + 1 + m = a + (m + 1) := by omega
      simp [vread, ih, this]

theorem vread_zeros {s : State} {k a n : Nat} (h : ∀ i < n, vbyte s k (a + i) = 0) : vread s k a n = zeros n := by
  induction n generalizing a with
  | zero => rfl
  | succ n ih =>
    have h1 : vread s k (a + 1) n = zeros n := ih fun i hi => by
      have := h (i + 1) (by omega)
      rwa [show a + 1 + i = a + (i + 1) by omega]
    have h0 := h 0 (by omega)
    simp only [Nat.add_zero] at h0
    simp [vread, h1, h0, zeros, List.replicate_succ]

theorem tget_absent {α : Type} (d : α) : ∀ (t : Tab α) (k : Nat), (∀ e ∈ t, e.1 ≠ k) → tget d t k = d
  | [], _, _ => rfl
  | (i, v) :: r, k, h => by
    have h1 : i ≠ k := h (i, v) (by simp)
    simp only [tget, if_neg h1]
    exact tget_absent d r k fun e he => h e (by simp [he])

theorem all_lt : ∀ (t : Tab Byte) (b : Nat), t.all (fun e => decide (e.1 < b)) = true → ∀ e ∈ t, e.1 < b := by
  intro t b h e he
  rw [List.all_eq_true] at h
  exact of_decide_eq_true (h e he)

theorem image_low : ∀ e ∈ memWrite [] 0 ksetHead, e.1 < 0x4000 := all_lt _ _ (by decide +kernel)

theorem sets0_mem (m : Bytes) (l : Lattice) : (sets0 m l).mem = memWrite [] 0 m := rfl

/-- The rest of the image's first chunk reads as zeros. -/
theorem image_rest (l : Lattice) : (vread (sets0 ksetHead l) 0 0 0x10000).drop 0x1100 = zeros 0xEF00 := by
  rw [vread_drop]
  refine vread_zeros fun i hi => ?_
  have hd : dev? (sets0 ksetHead l) 0 (0 + 0x1100 + i) = some ((0x1100 + i) / 256 * 0x4000 + i % 256) := by
    have h1 : ((sets0 ksetHead l).shelf 0).desc = some desc0 := rfl
    have h2 : cellarRegions desc0 = [[0]] := by decide
    have h3 : 0 + 0x1100 + i < loftBase := by simp only [loftBase]; omega
    have h4 : 0 + 0x1100 + i < ([0] : List Nat).length * pcSize := by simp only [List.length_singleton, pcSize]; omega
    unfold dev?
    simp only [h1, h2, if_pos h3]
    unfold cellarXlate
    rw [if_pos h4]
    have h5 : (0 + 0x1100 + i) / 256 % ([0] : List Nat).length = 0 := by simp only [List.length_singleton]; omega
    rw [h5]
    rw [List.getElem?_cons_zero, Option.map_some, List.length_singleton]
    refine congrArg some ?_
    unfold pcAddr
    omega
  show (match dev? (sets0 ksetHead l) 0 (0 + 4352 + i) with | some d => memGet (sets0 ksetHead l).mem d | none => 0) = 0
  rw [hd, sets0_mem]
  exact tget_absent 0 _ _ fun e he => by have := image_low e he; omega


def sets1 : State := sets0 ksetHead { psets := [(3, { block := [] })] }
def ksetX : KSet := { base := 0, units := 1, pset := 0, header := (vread sets1 0 0 0x10000).take 0x1100 }

theorem sets1_clean (n : Nat) : Clean sets1 0 0 n := by
  exact fun d _ => ⟨by unfold fencedAt; rw [show (sets1.stack (pcOf d / 64)).fenced = 0 from rfl]; simp [nbit], rfl⟩

theorem passes {c : Status × Option KSet} (h : (match c with | (.ok, some _) => true | _ => false) = true) : ∃ y, c = (.ok, some y) := by
  split at h
  · exact ⟨_, rfl⟩
  · cases h

theorem wit_SetsLoaded :
    (let s := sets0 pset12 {};
      let p : Machine.PSet := { block := vread s 0 0 1024 };
      inCellar (s.shelf 0) 0 1024 = true ∧ vstat s 0 0 1024 = .ok ∧ p.ok = true ∧ psetUsers (s.shelf 0) 0 = 0) ∧
    inCellar ((sets0 [] {}).shelf 0) pcSize 1024 = false ∧
    (let s := sets0 [] {};
      vstat s 0 0 1024 = .ok ∧ ({ block := vread s 0 0 1024 } : Machine.PSet).ok = false) ∧
    (let h := (sets0 [] { psets := [(0, p12)] }).shelf 0;
      (h.pset 0).isSome = true ∧ psetUsers h 0 = 0) ∧
    (let h := (sets0 [] { psets := [(0, p12)], ksets := [(0, kset0)] }).shelf 0;
      psetUsers h 0 ≠ 0) ∧
    (let n := 1 + tagChunks (field (vread sets1 0 0 0x10000) 0x28 4) + field (vread sets1 0 0 0x10000) 0x28 4;
      n = 1 ∧ inCellar (sets1.shelf 0) 0 (n * 0x10000) = true ∧ Clean sets1 0 0 (n * 0x10000) ∧
      ∃ y, ksetCheck sets1 0 0 ksetX ((vread sets1 0 0 0x10000).drop 0x1100) = (.ok, some y)) ∧
    64 % 0x10000 ≠ 0 ∧
    (let h := (sets0 [] { psets := [(0, p12)], ksets := [(0, kset0)] }).shelf 0;
      h.kset 0 = some kset0 ∧ ksetInUse h 0 = 0 ∧ ksetNamed h kset0 = false) ∧
    (let h : Shelf := { lat := { ksets := [(0, kset0)] }, round := { active := true, desc := { mode := 3, keysetId := 77 } } };
      h.kset 0 = some kset0 ∧ ksetNamed h kset0 = true) := by
  refine ⟨⟨by decide +kernel, by decide +kernel, by decide +kernel, by decide +kernel⟩, by decide +kernel, ⟨by decide +kernel, by decide +kernel⟩,
    ⟨rfl, rfl⟩, by decide, ⟨by decide +kernel, by decide +kernel, sets1_clean _, ?_⟩, by decide, ⟨rfl, rfl, rfl⟩, rfl, by decide +kernel⟩
  refine passes ?_
  rw [show (vread sets1 0 0 0x10000).drop 0x1100 = zeros 0xEF00 from image_rest _]
  decide +kernel

/-! ### Shared mode and release -/

/-- FLPV of crate 0 in a shared round of two aggregators, with the verify key in slot 9 or in none. -/
def vCmd : Bytes := fCmd 0x13 0 0 0 0 0 []
/-- A share crate's message for a Count instance: a payload of one element and a proof of five. -/
def msg1 (b : Byte) : Bytes := zeros 0x28 ++ toLe 4 8 ++ toLe 4 40 ++ zeros (512 - 0x30) ++ List.replicate 8 b ++ zeros 40
def flpv0 (ch : Tab Slot) (b : Byte := 0) (past : Bool := false) : State :=
  put 4 vCmd { ledger0 .admitted [] with
    chest := ch
    shelves := [(0, { desc := some { desc0 with ledger256 := 1, seg4k := 1 }, cfg := [(0x0A00, 0x11), (0x0A08, 9 <<< 32)]
                      round := { active := true, begun := true, phase := .collect, exchPassed := past, desc := { mode := 2, groupSize := 2, tExchange := 10 } }
                      intake := { rings := [(0, { ring0 with entries := [{ offset := 64, len := 560, logSeq := 0, data := msg1 b }] })]
                                  log := [{ crate0 .admitted with len := 560, body := 48 }] } })] }

theorem wit_FlpQuery :
    (∀ ch b past, Presents (flpv0 ch b past) 0 4 0 0x13 vCmd ∧
      admittedOf (flpv0 ch b past) 0 (field vCmd 0x18 8) 1 = some { crate0 .admitted with len := 560, body := 48 } ∧
      ((flpv0 ch b past).shelf 0).round.desc.mode = 2 ∧ ((flpv0 ch b past).shelf 0).round.phase = .collect ∧ ((flpv0 ch b past).shelf 0).verif.flpv = [] ∧
      flpvOpen (flpv0 ch b past) 0 0 = false) ∧
    pastExchange (flpv0 [] 0 true) 0 = true ∧ pastExchange (flpv0 []) 0 = false ∧ tmem ((flpv0 []).shelf 0).verif.flpv 0 = false ∧
    (∀ b ∈ [0, 0xFF], bindCur (flpv0 [(9, { cur := some (key0 1 528) })] b) 9 (vkUse 0) = .ok (key0 1 528)) ∧ ((flpv0 []).shelf 0).roundInst.vkSlot = 9 ∧
    (let s := flpv0 [(9, { cur := some (key0 1 528) })];
      let h := s.shelf 0;
      let i := h.roundInst;
      let got := crateRead 0 0 0 560 s;
      let pay := slice got.2.1 512 (field got.2.1 0x28 4);
      let proof := slice got.2.1 (512 + pay.length) (field got.2.1 0x2C 4);
      got.1 = .ok ∧ canonical i pay = true ∧ canonical i (proof.take (i.proofs * i.pl * i.elem)) = true ∧ i.proofs = 1 ∧
      (prioPrep i (prioCtx h 0) 2 0 [] pay proof (proofParts i 2 proof).1 (proofParts i 2 proof).2).isSome = true) ∧
    (∀ b, (crateRead 0 0 0 560 (flpv0 [(9, { cur := some (key0 1 528) })] b)).2.2 = flpv0 [(9, { cur := some (key0 1 528) })] b) ∧
    (let s := flpv0 [(9, { cur := some (key0 1 528) })] 0xFF;
      let got := crateRead 0 0 0 560 s;
      got.1 = .ok ∧ canonical (s.shelf 0).roundInst (slice got.2.1 512 (field got.2.1 0x28 4)) = false) ∧
    (let s := flpv0 [];
      bindCur s 9 (vkUse 0) = .error .deniedAttribute ∧ (crate0 .admitted).client ∉ (s.shelf 0).verif.rejectSent ∧
      (crate0 .admitted).client ∉ (s.shelf 0).verif.rejectFrom) := by
  refine ⟨fun ch b past => ⟨presents_put (by decide +kernel) (by decide +kernel) (by decide +kernel) (by simp [latticeKind]) rfl rfl, rfl, rfl, rfl, rfl, rfl⟩,
    rfl, by decide +kernel, rfl, by decide +kernel, by decide +kernel, ⟨?_, ?_, ?_, ?_, ?_⟩, fun _ => rfl, ?_, rfl, by decide, by decide⟩
  all_goals decide +kernel

/-- Shelf 0 in a shared round with records waiting for peer 1 and envelopes for the relay ring of 64 KiB. -/
def share0 (l : List (Nat × Bytes)) (held : List (Nat × Nat × Bytes)) (ch : Tab Slot) : State :=
  { shelves := [(0, { desc := some desc0, cfg := [(0x0B30, reg64 0x100 1)], verif := { queued := [(1, l)], held := held }
                      round := { active := true, begun := true, phase := .collect, desc := { mode := 2, groupSize := 2, peerSlot := 8, tExchange := 10 } } })]
    chest := ch }

theorem wit_VerifierSends :
    (∀ l ch, recordsRun (share0 l [] ch) 0 = true) ∧
    (let h := (share0 (List.replicate 64 (0, [])) [] []).shelf 0;
      batch h ≤ (tget [] h.verif.queued 1).length) ∧
    (let h := (share0 [(0, [])] [] []).shelf 0;
      (tget [] h.verif.queued 1).length < batch h ∧ tget [] h.verif.queued 1 = (0, []) :: []) ∧
    tget [] ((share0 [] [] []).shelf 0).verif.queued 1 = [] ∧
    bindCur (share0 [(0, [])] [] [(8, { cur := some (key0 1 3) })]) (peerSlot 8 0 1) (peerUse 0) = .ok (key0 1 3) ∧
    bindCur (share0 [(0, [])] [] []) (peerSlot 8 0 1) (peerUse 0) = .error .deniedAttribute := by
  exact ⟨fun _ _ => by show recordsRun (share0 [] [] []) 0 = true; decide +kernel, by decide, ⟨by decide, rfl⟩, rfl, rfl, rfl⟩

theorem wit_RelayTail :
    ((share0 [] [] []).shelf 0).verif.held = [] ∧
    (let h := (share0 [] [(1, 5, zeros 52)] []).shelf 0;
      let units := (region64k (h.reg 0x0B30)).2 / 64;
      h.verif.held = [(1, 5, zeros 52)] ∧ (h.verif.head + units - (0 : Word).toNat / 2 ^ 32 % max 1 units) % max 1 units + (relayEntry 1 5 (zeros 52)).length / 64 < units ∧
      units ≤ (h.verif.head + units - (0x1_0000_0000 : Word).toNat / 2 ^ 32 % max 1 units) % max 1 units + (relayEntry 1 5 (zeros 52)).length / 64) ∧
    (let h := (share0 [] [(1, 5, zeros 300), (2, 6, zeros 52)] []).shelf 0;
      let units := (region64k (h.reg 0x0B30)).2 / 64;
      let used := (h.verif.head + units - (0x3_0000_0000 : Word).toNat / 2 ^ 32 % max 1 units) % max 1 units;
      h.verif.held = [(1, 5, zeros 300), (2, 6, zeros 52)] ∧ 1 ≠ 2 ∧ units ≤ used + (relayEntry 1 5 (zeros 300)).length / 64 ∧
      used + (relayEntry 2 6 (zeros 52)).length / 64 < units) := by
  decide +kernel

/-- The header of a share object of two aggregators, this one with index 1, at EPOCH 1 after refresh 5, at Cellar offset 0 (R211). -/
def sob64 : Bytes :=
  toLe 4 0x5348524B ++ toLe 2 1 ++ [0x10, 0] ++ toLe 8 9 ++ [2, 1, 0, 0] ++ toLe 4 8 ++ toLe 8 1 ++ toLe 8 5 ++ zeros 24
def shref0 (x : ShRefresh) (r : Round) : State :=
  { shelves := [(0, { desc := some desc0, cfg := [(0x0B70, 6), (0x0B78, 100)], verif := { shref := x }, round := r })]
    chest := [(8, { cur := some (key0 1 3) })], mem := memWrite [] 0 sob64 }

theorem wit_ShareRefreshes :
    ((shref0 {} { active := true }).shelf 0).round.active = true ∧ ((shref0 { busy := true } {}).shelf 0).verif.shref.busy = true ∧
    (let s := shref0 {} {};
      let h := s.shelf 0;
      let hb := vread s 0 0 64;
      (h.reg 0x0B68).toNat / 64 % 2 ^ 42 * 64 = 0 ∧ h.round.active = false ∧ h.verif.shref.busy = false ∧ inCellar h 0 64 = true ∧ Clean s 0 0 64 ∧
      sobOk h 0 hb = true ∧ (h.reg 0x0B70).toNat % 2 ^ 48 ≠ 0 ∧ sobLast hb < (h.reg 0x0B70).toNat % 2 ^ 48 ∧ s.epoch < (h.reg 0x0B78).toNat ∧
      sobIndex hb + 1 = sobGroup hb ∧ (∀ j ∈ shrefPeers hb, ∃ y, bindCur s (peerSlot (8 : BitVec 8).toNat (sobIndex hb) j) (peerUse 0) = .ok y) ∧
      0 < sobEpoch hb ∧ sobLast hb ≠ 0) := by
  refine ⟨rfl, rfl, by decide, rfl, rfl, by decide, ?_, ?_, by decide, ?_, by decide, ?_, ?_, ?_, ?_⟩
  case refine_5 =>
    rw [show shrefPeers (vread (shref0 {} {}) 0 0 64) = [0] by decide +kernel]
    intro j hj
    rw [List.mem_singleton.mp hj, show sobIndex (vread (shref0 {} {}) 0 0 64) = 1 by decide +kernel]
    exact ⟨_, rfl⟩
  all_goals first | (unfold Clean; decide +kernel) | decide +kernel

/-- Shelf 0 in a phase of a round with noise, step and Cask 5. -/
def release0 (n : Nat) (d : Bytes) (p : Phase) (s : Sampler) : State :=
  put n d { shelves := [(0, { desc := some { desc0 with pcs := [0, 1] }, rel := { opt := zeros 6 ++ [2] ++ zeros 0x19 ++ toLe 8 0x10_0000 }
                              round := { active := true, begun := true, phase := p, desc := { mode := 0, elemCount := 4, flags := 6 } } })]
            bays := [(0, { casks := [(5, { cask0 1 with kegInit := true })], sampler := s })] }
def nCmd : Bytes := fCmd 0x09 5 0 0 4 0 []
def oCmd : Bytes := fCmd 0x28 5 0 0 1 0 []

theorem wit_NoiseAdded :
    (∀ p x, Presents (release0 0 nCmd p x) 0 0 0 0x09 nCmd ∧ ((release0 0 nCmd p x).bay 0).retr = [] ∧ ((release0 0 nCmd p x).bay 0).hold = [] ∧
      CaskSound (release0 0 nCmd p x) 0 (fCask nCmd)) ∧
    ((release0 0 nCmd .noise { reseeding := true }).bay 0).sampler.reseeding = true ∧
    (let s := release0 0 nCmd .noise {};
      (s.bay 0).sampler.reseeding = false ∧ noiseCheck 0 0 nCmd s = none ∧ ∀ g ∈ [0], (s.cask 0 (fCask nCmd)).groupBad (fTile nCmd) g = false) ∧
    ((release0 0 nCmd .step {}).shelf 0).round.phase ≠ .noise := by
  refine ⟨fun p x => ⟨presents_put (by decide +kernel) (by decide +kernel) (by decide +kernel) (by simp [latticeKind]) rfl rfl, rfl, rfl,
    sound_clean rfl (by show (cask0 1).sel ≤ (cask0 1).tilesM1; decide) rfl⟩, rfl, ⟨rfl, ?_, ?_⟩, ?_⟩
  · decide +kernel
  · intro g hg; rw [List.mem_singleton.mp hg]; decide +kernel
  · show Phase.step ≠ .noise; decide

theorem wit_OptimiserStep :
    (∀ p x, Presents (release0 4 oCmd p x) 0 4 0 0x28 oCmd ∧ CaskSound (release0 4 oCmd p x) 0 (fCask oCmd)) ∧
    (let s := release0 4 oCmd .step {};
      let h := s.shelf 0;
      let c := s.cask 0 (fCask oCmd);
      fCount oCmd = 1 ∧ h.round.active = true ∧ h.round.phase = .step ∧ h.round.desc.stepEn = true ∧ h.rel.witness = false ∧ c.release = true ∧
      rangeOk c (fCoff oCmd) 1 = true ∧ fTile oCmd ≤ c.tilesM1 ∧ fAux oCmd + 1 ≤ h.round.desc.elemCount ∧ fAux oCmd ∉ h.rel.steps ∧
      c.kegRowOf (fTile oCmd) (fCoff oCmd) ∉ c.kegBad ∧ (optPar h.rel.opt).opt = 2 ∧
      ∀ o ∈ [some (vecAt 2 4).1, (vecAt 2 4).2.1, (vecAt 2 4).2.2].filterMap id, Clean s 0 (h.copyAt + o + 4 * 0) 4) ∧
    ((release0 4 oCmd .noise {}).shelf 0).round.phase ≠ .step := by
  refine ⟨fun p x => ⟨presents_put (by decide +kernel) (by decide +kernel) (by decide +kernel) (by simp [latticeKind]) rfl rfl,
    sound_clean rfl (by show (cask0 1).sel ≤ (cask0 1).tilesM1; decide) rfl⟩, ⟨?_, rfl, rfl, rfl, rfl, ?_, ?_, ?_, ?_, ?_, ?_, ?_, ?_⟩, ?_⟩
  case refine_9 =>
    rw [show [some (vecAt 2 4).1, (vecAt 2 4).2.1, (vecAt 2 4).2.2].filterMap id = [64, 128] by decide]
    intro o ho
    rcases List.mem_cons.mp ho with h | h
    · rw [h]; unfold Clean; decide +kernel
    · rw [List.mem_singleton.mp h]; unfold Clean; decide +kernel
  case refine_10 => show Phase.noise ≠ .step; decide
  all_goals decide +kernel

/-! ### Ports, transport and remote access -/

/-- A device of NODE 5 with channel 0 up at address 9, and destination 0 at itself (R346, R374, R376); shelf 0 with slices of windows, bins and flights. -/
def net0 (flight : Nat) (f : Shelf → Shelf) (g : State → State) : State :=
  g { shelves := [(0, f { desc := some { desc0 with flightA := flight, win256 := 1, bin256 := 1 } })], ports := [(0, { up := 1 })]
      cfg := [(0x40_0100, 0x02_0000_0000_01), (0x40_0108, 0x02_0000_0000_01), (0x60_0008, 0x1_0005), (0x60_1000, 0), (0x60_1008, 9), (0x62_0008, 9),
              (0x62_0010, 0x5_0100_0001)] }

/-- RMA.WR, RMA.RD and TSEND of four words of the bay store to destination i, and POSTRECV of bin i into them. -/
def sCmd (kind i : Byte) : Bytes := cmd kind ([i, 0, 0, 0, 0, 0, 0, 0] ++ zeros 16 ++ src0)
def bin0 (flags : Byte) : Bytes := cmd 0x33 ([0, 0, 0, 0, 0, 0, flags, 0] ++ zeros 16 ++ src0)

theorem wit_SendingCommands :
    (∀ kind ∈ [(0x30 : Byte), 0x31, 0x32], ∀ i ∈ [(0 : Byte), 1], ∀ fl ∈ [0, 1], Presents (put 8 (sCmd kind i) (net0 fl id id)) 0 8 0 kind.toNat (sCmd kind i)) ∧
    (∀ e ∈ [((0x30 : Byte), 1), (0x31, 3), (0x32, 2)],
      sendCheck e.2 0 (sCmd e.1 0) (net0 1 id id) = none ∧ nSeal (sCmd e.1 0) = false ∧ flightUsed (net0 1 id id) 0 0 < flightSlice ((net0 1 id id).shelf 0) 0 ∧
      ((net0 0 id id).dest (nDest (sCmd e.1 0))).usable 0 = true ∧ flightSlice ((net0 0 id id).shelf 0) 0 = 0 ∧
      ((net0 1 id id).dest (nDest (sCmd e.1 1))).usable 0 = false) := by
  refine ⟨?_, by decide +kernel⟩
  intro kind hk i hi fl hf
  have h1 : dKind (sCmd kind i) = kind.toNat ∧ classOk 8 kind.toNat = true ∧ layoutOk (sCmd kind i) = true ∧ latticeKind kind.toNat = false := by
    simp only [List.mem_cons, List.not_mem_nil, or_false] at hk hi
    rcases hk with rfl | rfl | rfl <;> rcases hi with rfl | rfl <;> decide +kernel
  simp only [List.mem_cons, List.not_mem_nil, or_false] at hf
  rcases hf with rfl | rfl <;> exact presents_put h1.1 h1.2.1 h1.2.2.1 (by simp [h1.2.2.2]) rfl rfl

theorem wit_PostedBins :
    (let s := put 8 (bin0 0) (net0 1 id id);
      Presents s 0 8 0 0x33 (bin0 0) ∧ postCheck 0 (bin0 0) s = true ∧ (s.shelf 0).remote.unex = []) ∧
    (let s := put 8 (bin0 3) (net0 1 id id);
      Presents s 0 8 0 0x33 (bin0 3) ∧ postCheck 0 (bin0 3) s = false) := by
  refine ⟨⟨presents_put ?_ ?_ ?_ ?_ ?_ ?_, ?_, rfl⟩, presents_put ?_ ?_ ?_ ?_ ?_ ?_, ?_⟩ <;> decide +kernel

/-- A window descriptor of 64 bytes of the Cellar at 0x100, for writes and reads (R378). -/
def win64 : Bytes := toLe 4 0x4E49574B ++ toLe 2 1 ++ [1, 3] ++ toLe 8 0x100 ++ toLe 8 64 ++ toLe 4 5 ++ zeros 36
def win0 (w : Window) : State := net0 1 id (fun s => { s with windows := [(0, w)], gens := [(0, 3)], mem := memWrite [] 0 win64 })

theorem wit_WindowCommands :
    (∀ w, (((win0 w).shelf 0).reg 0x1910).toNat % 65536 = 0 ∧ 0 < winSlice ((win0 w).shelf 0) ∧ (win0 w).win (slotKey 0 0) = w ∧
      ((win0 w).shelf 0).evtCfg.getLsbD 0 = false) ∧
    (let s := win0 {};
      (s.win 0).isFree = true ∧ inShelf (s.shelf 0) 0 64 = true ∧ Clean s 0 0 64 ∧ winOk s 0 (vread s 0 0 64) = true) ∧
    (({ state := .open_, inflight := 1 } : Window).isFree = false ∧ ({ state := .open_, inflight := 1 } : Window).isOpen = true ∧
      ({ state := .open_ } : Window).isOpen = true ∧ ({ state := .draining } : Window).isOpen = false) := by
  refine ⟨fun w => ⟨rfl, ?_, rfl, ?_⟩, ⟨rfl, ?_, ?_, ?_⟩, by decide⟩
  case refine_1 => show 0 < 256; decide
  case refine_2 => show evtCfgReset.getLsbD 0 = false; decide
  all_goals first | (unfold Clean; decide +kernel) | decide +kernel

theorem wit_BinsAndEvents :
    (let s := net0 1 id (fun s => { s with bins := [(2, { state := .posted })] });
      (2 : BitVec 16).toNat < binSlice (s.shelf 0) ∧ (s.bin (slotKey 0 2)).posted = true ∧ (s.shelf 0).evtCfg.getLsbD 0 = false ∧
      (s.bin (slotKey 0 3)).posted = false ∧ waitingRx s 0 = [] ∧ drainingWins s 0 = [] ∧ waitingUnex s 0 = [] ∧ (s.shelf 0).remote.evtQueue = []) ∧
    (let s := net0 1 (fun h => { h with cfg := [(rEvtCfg, 0x19)], remote := { evtQueue := [zeros 32] } }) id;
      (s.shelf 0).remote.evtQueue = [zeros 32] ∧ (s.shelf 0).evtCfg.getLsbD 0 = true ∧ ((s.shelf 0).remote.evtHead + 65536 - 0) % 65536 ≠ evtSize (s.shelf 0) ∧
      waitingRx s 0 = [] ∧ drainingWins s 0 = [] ∧ waitingUnex s 0 = []) ∧
    (let u : Unex := { id := 4, off := 0, len := 0, snode := 5, sshelf := 0, tag := 0, msgSeq := 1, delivered := true };
      ∀ n ∈ [0, 10], let s := net0 1 (fun h => { h with cfg := [(rUnexStatus, BitVec.ofNat 64 (n * 2 ^ 52))], remote := { unex := [u] } }) id;
        unexMsg s 0 4 = some u ∧ u.delivered = true ∧ u.bin = none ∧ u.gone = false ∧ (s.shelf 0).evtCfg.getLsbD 0 = false ∧ ageMs (s.shelf 0) = n) := by
  decide +kernel

theorem wit_TransportConfig :
    ¬2 ≤ (0 : Word).toNat % 2 ^ 8 ∧
    (let f := fun lo n : Nat => (0x0004_07D0_0404_8708 : Word).toNat / 2 ^ lo % 2 ^ n;
      2 ≤ f 0 8 ∧ f 0 8 ≤ 200 ∧ 1 ≤ f 8 4 ∧ f 8 4 ≤ 12 ∧ 1 ≤ f 12 4 ∧ 1 ≤ f 24 8 ∧ 100 ≤ f 32 12 ∧ 8 ≤ f 44 8 ∧ f 0 8 * (2 ^ (f 8 4 + 1) - 1) + 1000 ≤ f 16 8 * 1000) ∧
    (let f := fun lo n : Nat => (0x0000_0508_4080_0400 : Word).toNat / 2 ^ lo % 2 ^ n;
      1 ≤ f 10 10 ∧ 1 ≤ f 28 4 ∧ f 28 4 ≤ 10 ∧ 1 ≤ f 32 8) ∧
    ¬1 ≤ (0 : Word).toNat / 2 ^ 10 % 2 ^ 10 ∧
    ((0x20_2001 : Word).getLsbD 0 = true ∧ (0x20_0001 : Word).toNat / 2 ^ 8 % 2 ^ 6 / 32 ≠ (0x20_0001 : Word).toNat / 2 ^ 16 % 2 ^ 6 / 32) ∧
    ((0x81 : Word).getLsbD 0 = true ∧ (0x81 : Word).toNat / 2 ^ 8 % 2 ^ 6 / 32 = (0x81 : Word).toNat / 2 ^ 16 % 2 ^ 6 / 32 ∧ idle0.dev.card = false ∧
      (0x81 : Word).getLsbD 7 = true) := by decide

/-- Port 0 in MODE 3 as given, port 8 held on a card. -/
def port0 (p : Port) (card : Bool) : State := { idle0 with cfg := [(0x40_0000, 3)], ports := [(0, p)], dev := { card := card } }

theorem wit_PortChannels :
    (portHeld (port0 {} false) 0 = false ∧ (0 : Word).toNat % 4 ≠ (port0 {} false).portMode 0 ∧ (3 : Word).toNat % 4 = (port0 {} false).portMode 0 ∧ ({} : Port).up < 16) ∧
    portHeld (port0 {} true) 8 = true ∧ (nbit ({ training := 4 } : Port).training 2 = true ∧ nbit ({ training := 4 } : Port).training 1 = false) ∧
    (nbit ({ up := 4 } : Port).up 2 = true ∧ nbit ({ up := 4 } : Port).up 1 = false ∧ nbit (modeChannels ((port0 {} false).portMode 0)) 2 = true ∧
      modeLanes ((port0 {} false).portMode 0) 2 &&& ({ up := 4 } : Port).failed = 0) ∧
    (laneChannels (port0 {} false) 0 1 ≠ 0 ∧ nbit ({} : Port).failed 1 = false ∧ spareUsed (port0 { spareHere := true } false) 0 = true ∧
      spareUsed (port0 {} false) 0 = false ∧ 16 < (17 : BitVec 16).toNat ∧ (16 : BitVec 16).toNat ≤ 16) := by decide

/-- A packet of the device's transport, framed for its own channel 0. -/
def frame0 (b : Bytes) : Bytes := frameOf (net0 1 id id) 0 9 0 2 0 0xC000 ((net0 1 id id).tpCfg.toNat / 2 ^ 16 % 2 ^ 16) b

/-- A neighbor solicitation from address 7 for address 9 (RFC 4861). -/
def solicit0 : Bytes :=
  zeros 12 ++ [0x86, 0xDD] ++ [0x60, 0, 0, 0, 0, 32, 58, 255] ++ toBe 16 7 ++ toBe 16 9 ++ [135, 0, 0x71, 0x85, 0, 0, 0, 0] ++ toBe 16 9 ++ [1, 1, 2, 2, 2, 2, 2, 2]

theorem wit_FramesCounted :
    chanUp (net0 1 id id) 0 = true ∧ beNat (slice (zeros 12 ++ [0x88, 0x08]) 12 2) = 0x8808 ∧ beNat (slice (zeros 12 ++ [0x81, 0, 0, 0]) 12 2) = 0x8100 ∧
    ((net0 1 id id).portCfg 0).getLsbD 2 = false ∧ beNat (slice (zeros 12 ++ [8, 0]) 12 2) = 0x0800 ∧
    frameKind (net0 1 id id) 0 true solicit0 = .solicit 7 (some [2, 2, 2, 2, 2, 2]) := by
  refine ⟨by decide, by decide, by decide, by decide, by decide, ?_⟩
  rfl

/-- A message of 4 bytes in SEND, with a rate record. -/
def tx0 (st : TxState) (u : TxUse) : TxMsg := { shelf := 0, use := u, op := 1, flow := 0, len := 4, source := .held [1, 2, 3, 4], state := st, addr := 9, node := 5 }

theorem wit_PacketSent :
    ∀ st ∈ [TxState.send, .wait],
      let m := tx0 st (.buddy 0 0);
      let s := net0 1 id (fun s => { s with tp := { tx := [(1, m)], rates := [(rateKey 0 5, { r := 1 })] } });
      s.txMsg 1 = some m ∧ m.source = .held [1, 2, 3, 4] ∧ m.op ≠ 3 ∧ s.tpEn = true ∧ chanUp s (egress s m) = true ∧ m.sent.length < m.packets s.mss ∧
      m.sent.length < m.cum + 257 ∧ tmem s.tp.rates (rateKey m.chan m.node) = true ∧ flowRoom s (m.chan / 32) (0, m.shelf, m.dest, m.flow) = true := by
  decide +kernel

/-- An acknowledgement of message 1 (R359). -/
def ack0 (flags : Nat) (seq : Nat) : Bytes := toBe 1 0x12 ++ toBe 1 flags ++ zeros 2 ++ toBe 4 seq ++ toBe 4 1 ++ zeros 10 ++ toBe 2 5 ++ zeros 40

theorem got {α : Type} {o : Option α} {f : α → Bool} {P : α → Prop} (hp : ∀ p, f p = true → P p) (h : o.any f = true) : ∃ p, o = some p ∧ P p := by
  cases o with
  | none => cases h
  | some p => exact ⟨p, rfl, hp p h⟩

theorem wit_MessageEnds :
    (let m := tx0 .drain (.command 0 8 0);
      let s := net0 1 id (fun s => { s with tp := { tx := [(1, m)] } });
      s.txMsg 1 = some m ∧ m.op ≠ 3 ∧ (∀ fl ∈ [1, 2], ∃ p, basdoOf s 0 true (frame0 (ack0 fl 1)) = some p ∧ field p.bytes 0 1 = 0x12 ∧ ackOk p.bytes = true ∧
        ackKey s (parseAck p.bytes) = some 1 ∧ (parseAck p.bytes).done = (fl == 1) ∧ (parseAck p.bytes).refused = (fl == 2)) ∧
      ∃ p, basdoOf s 0 true (frame0 (ack0 4 1)) = some p ∧ field p.bytes 0 1 = 0x12 ∧ ackOk p.bytes = false) ∧
    (let m := { tx0 .drain (.command 0 8 0) with sent := [(0, 0)], tries := 7 };
      m.sent ≠ [] ∧ m.tries = (net0 1 id id).tpTimer.toNat / 256 % 16) ∧ (net0 1 id id).tpEn = true ∧
    (let m := { tx0 .drain (.command 0 8 0) with sent := [(0, 0)] };
      m.source = .held [1, 2, 3, 4] ∧ m.sent = [(0, 0)] ∧ m.acked = [] ∧ m.tries ≠ (net0 1 id id).tpTimer.toNat / 256 % 16 ∧
      chanUp (net0 1 id id) (egress (net0 1 id id) m) = true ∧
      (let u := net0 1 id (fun s => { s with ports := [] });
        chanUp u (egress u m) = false)) := by
  refine ⟨⟨rfl, by decide, ?_, ?_⟩, by decide, by decide, by decide⟩
  · intro fl hf
    refine got (f := fun p => decide (field p.bytes 0 1 = 0x12 ∧ ackOk p.bytes = true ∧ ackKey _ (parseAck p.bytes) = some 1 ∧
      (parseAck p.bytes).done = (fl == 1) ∧ (parseAck p.bytes).refused = (fl == 2))) (fun p h => of_decide_eq_true h) ?_
    simp only [List.mem_cons, List.not_mem_nil, or_false] at hf
    rcases hf with rfl | rfl <;> decide +kernel
  · exact got (f := fun p => decide (field p.bytes 0 1 = 0x12 ∧ ackOk p.bytes = false)) (fun p h => of_decide_eq_true h) (by decide +kernel)

theorem wit_PathsAndRates :
    (let s : State := { idle0 with tp := { pathTab := [(41, { suspect := true })] } };
      (s.pathOf 5 1).suspect = true ∧ (s.pathOf 5 0).suspect = false) ∧
    (let s := net0 1 id (fun s => { s with tp := { tx := [(1, tx0 .send (.buddy 0 0))], rates := [(5, { r := 100000, acked := 4, marked := 1 }), (6, { r := 1 })] } });
      s.tp.rates[0]? = some (5, { r := 100000, acked := 4, marked := 1 }) ∧ rateBusy s 5 = true ∧ rateBusy s 6 = false) := by decide

/-- The only packet of a WRITE of four bytes to window 0. -/
def data0 (typ idx : Nat) : Bytes :=
  toBe 1 typ ++ toBe 1 1 ++ zeros 2 ++ toBe 4 1 ++ zeros 4 ++ toBe 4 4 ++ zeros 4 ++ [1, 0] ++ toBe 2 idx ++ toBe 8 (3 * 2 ^ 32 + 5) ++ toBe 8 8 ++ [0, 0] ++
  toBe 2 5 ++ zeros 12 ++ [1, 2, 3, 4]
/-- What the frame carries. -/
def packet0 (typ idx : Nat) : Packet := { chan := 0, src := 9, label := 0, sport := 0xC000, ce := false, bytes := data0 typ idx }

theorem wit_PacketReceived :
    let s := win0 { state := .open_, kind := 1, attr := 3, base := 0x100, len := 64, key32 := 5 };
    (basdoOf s 0 true (frame0 (data0 0x11 0)) = some (packet0 0x11 0) ∧
      (let d := parseData (data0 0x11 0);
        dataOk (data0 0x11 0) = true ∧ s.rxMsg d.key = none ∧ d.op = 1 ∧ d.prev = 0 ∧ d.off = 0 ∧ d.len = d.body.length ∧ successors s d.key = [] ∧
        admission s 0 d = .take (.window 0) false ∧ (s.win 0).notifyEn = false ∧ (s.win 0).eventEn = false ∧ (s.win 0).isOpen = true)) ∧
    (basdoOf s 0 true (frame0 (data0 0x11 256)) = some (packet0 0x11 256) ∧
      (let d := parseData (data0 0x11 256);
        dataOk (data0 0x11 256) = true ∧ s.rxMsg d.key = none ∧ d.op ≠ 4 ∧ admission s 0 d = .refuse .remoteFault ∧ (s.shelf d.tshelf).desc ≠ none)) ∧
    (basdoOf s 0 true (frame0 (data0 0x14 0)) = some (packet0 0x14 0) ∧ dataOk (data0 0x14 0) = false) := by
  refine ⟨⟨?_, ?_⟩, ⟨?_, ?_⟩, ?_, ?_⟩
  case refine_1 => rfl
  case refine_3 => rfl
  case refine_5 => rfl
  case refine_2 => refine ⟨?_, ?_, ?_, ?_, ?_, ?_, ?_, ?_, ?_, ?_, ?_⟩ <;> rfl
  case refine_4 => refine ⟨?_, ?_, ?_, ?_, ?_⟩ <;> first | rfl | decide +kernel
  case refine_6 => decide +kernel

theorem wit_ReceiverTimers :
    let m : RxMsg := { sshelf := 0, tshelf := 0, flow := 0, op := 1, len := 4, index := 0, keyTag := 0, roff := 0, mss := 4096, prev := 0, target := .window 0
                       sinceAck := 1 };
    let s := fun m : RxMsg => net0 1 id (fun s => { s with windows := [(0, { state := .open_, inflight := 1 })], tp := { rx := [(rxKey 5 1, m)] } });
    (∀ m, (s m).rxMsg (rxKey 5 1) = some m) ∧ (m.state = .placing ∧ m.sinceAck ≠ 0 ∧ m.target = .window 0 ∧ ((s m).win 0).isOpen = true) ∧
    { m with sinceAck := 0 }.sinceAck = 0 ∧ { m with state := .linger }.state = .linger ∧ { m with state := .refused }.state = .refused ∧
    { m with state := .held }.state = .held := by
  exact ⟨fun _ => rfl, ⟨rfl, by decide, rfl, rfl⟩, rfl, rfl, rfl, rfl⟩

/-! ### Programs, starts and time -/

/-- An image of one word for two bays (R320). -/
def image0 : Bytes :=
  toLe 4 0x4752504B ++ toLe 2 1 ++ [2, 0] ++ toLe 4 8 ++ zeros 20 ++ toLe 4 0 ++ (List.replicate 7 (toLe 4 0xFFFFFFFF)).flatten ++ zeros 8

theorem loads {e : Except Status Prog} (h : (match e with | .ok _ => true | .error _ => false) = true) : ∃ p, e = .ok p := by
  cases e with
  | ok p => exact ⟨p, rfl⟩
  | error e => cases h

theorem wit_ProgramCommands :
    ((atR 0 x0).shelf 0).round.active = true ∧
    (let s : State := { idle0 with mem := memWrite [] 0 image0 };
      (s.shelf 0).round.active = false ∧ serviceActive s 0 = false ∧ (s.shelf 0).ctx.pending = false ∧ (s.shelf 0).ctx.waiting = false ∧ (∃ p, readImage s 0 0 = .ok p) ∧ readImage s 0 64 = .error .paramUnsupported ∧
      (s.shelf 0).prog.loaded = false) ∧
    (let s : State := { shelves := [(0, { desc := some desc0, prog := { loaded := true, entries := [0] } })] };
      (s.shelf 0).round.active = false ∧ serviceActive s 0 = false ∧ (s.shelf 0).ctx.pending = false ∧ (s.shelf 0).ctx.waiting = false ∧ (s.shelf 0).prog.loaded = true ∧ (s.shelf 0).prog.entries.getD 0 0xFFFFFFFF ≠ 0xFFFFFFFF ∧
      dataHitsCask s 0 = false) ∧
    serviceActive { shelves := [(0, { desc := some desc0, prog := { service := true } })], seqs := [(0, x0)] } 0 = true := by
  exact ⟨rfl, ⟨rfl, rfl, rfl, rfl, loads (by decide +kernel), by rfl, rfl⟩, ⟨rfl, rfl, rfl, rfl, rfl, by decide, rfl⟩, by decide⟩

/-- A device that is powered, and ready as given. -/
def on0 (ready : Bool) : State := { idle0 with dev := { pwrgd := true, perst := true, vaon := true, ready := ready } }

theorem wit_ColdStarts :
    ({ finds with romOk := false }.romOk = false ∧ finds.mirrorOk = true) ∧
    (({ dev := { mirror := some { recs := [], repairs := {}, count := 41 } } } : State).dev.pwrgd = false ∧
      ({ dev := { mirror := some { recs := [], repairs := {}, count := 41 } } } : State).dev.vaon = false) ∧
    (({ dev := { vaon := true } } : State).dev.pwrgd = false ∧ ({ dev := { vaon := true } } : State).dev.vaon = true ∧ ({ dev := { vaon := true } } : State).isl.alarm = false) ∧
    ((on0 true).dev.pwrgd = true ∧ powered (on0 true) = true ∧ powered ({} : State) = false ∧ (on0 true).dev.held = none) ∧
    (let s : State := { dev := { pwrgd := true, held := some .cold } };
      s.dev.pwrgd = true ∧ s.dev.held = some .cold) := by decide

theorem wit_WarmResets :
    (powered (on0 true) = true ∧ (on0 true).dev.ready = true ∧ 
      (∀ k, k < 8 → ((on0 true).shelf k).refSlots = 0) ∧ (∀ k, k < 8 → ∀ e ∈ ((on0 true).shelf k).intake.log, e.state ≠ .arriving)) ∧
    ¬(powered (on0 false) = true ∧ (on0 false).dev.ready = true) ∧
    (∀ i, i < 4 → ((on0 true).port (4 * (3 : BitVec 2).toNat + i)).up < 16) ∧ (∀ k, k < 8 → ((on0 true).tdi k).isLocked = false) := by decide

theorem wit_PowerLoss :
    (let s : State := { on0 true with dev := { (on0 true).dev with recs := [{ count := 1, kind := .powerOn }], newRecord := true } };
      s.dev.pwrgd = true ∧ s.dev.recs = [{ count := 1, kind := .powerOn }] ∧ s.dev.newRecord = true) ∧
    (on0 true).dev.newRecord = false ∧
    (let s : State := { isl := { shares := some (zeros 32, List.replicate 32 7) } };
      s.isl.shares = some (zeros 32, List.replicate 32 7) ∧ (zeros 32).length = 32 ∧ (List.replicate 32 (7 : Byte)).length = 32) := by decide

theorem wit_TamperLockdown : (4 : BitVec 3).toNat < 5 ∧ (on0 true).dev.pwrgd = true ∧ (on0 true).dev.ready = true ∧ (on0 true).isl.alarm = false := by decide

/-- Epoch time b in a state of its clock, PPS_IN on. -/
def time0 (b : Int) (t : Tim) : State := { idle0 with cfg := [(rTimeCfg, 5)], tim := { t with base := b, secondsKnown := true } }

theorem wit_PpsEdges :
    (∀ b t, (time0 b t).dev.atLock = none) ∧ ppsOn (time0 0 {}) = true ∧ (true ≠ (time0 0 {}).timeCfg.getLsbD 1 ∧ false = (time0 0 {}).timeCfg.getLsbD 1) ∧
    (let off := fun s : State => ((s.epoch : Int) + sext 16 (s.timeCfg.toNat / 2 ^ 32 % 2 ^ 16) + 500000000) % 1000000000 - 500000000;
      1000000 < (off (time0 1001000001 {})).natAbs ∧ (off (time0 1001000000 {})).natAbs ≤ 1000000 ∧ (off (time0 999000001 {})).natAbs < 1000000) ∧
    ((time0 0 {}).tim.secondsKnown = true ∧ (time0 0 {}).tim.state = .free ∧ anyRound (time0 0 {}) = false ∧ (time0 0 { state := .locked }).tim.state = .locked) := by
  exact ⟨fun _ _ => rfl, by decide, by decide, by decide, by decide⟩

/-- A PTP message of a type, version and domain, with flags and from port 7 (IEEE 1588), and its frame on channel 0. -/
def ptp0 (typ version domain flags : Byte) : Bytes := [typ, version, 0, 64, domain, 0, flags, 8] ++ zeros 12 ++ zeros 9 ++ [7] ++ zeros 34
def ptpFrame (b : Bytes) : Bytes :=
  zeros 12 ++ [0x86, 0xDD, 0x60, 0, 0, 0] ++ toBe 2 (8 + b.length) ++ [17, 255] ++ toBe 16 9 ++ toBe 16 9 ++ toBe 2 319 ++ toBe 2 319 ++ toBe 2 (8 + b.length) ++ zeros 2 ++ b
def master0 (m : Option Bytes) : State :=
  net0 1 id (fun s => { s with cfg := (rTimeCfg, 5) :: s.cfg, tim := { ptp := { master := m, port := zeros 9 ++ [7] } } })

theorem wit_PtpMessages :
    (∀ m ∈ [none, some (zeros 20)], (master0 m).dev.atLock = none ∧ chanUp (master0 m) 0 = true) ∧
    frameKind (master0 none) 0 true (ptpFrame (ptp0 0 2 1 0)) = .ptp (ptp0 0 2 1 0) ∧ field (ptp0 0 2 1 0) 4 1 ≠ (master0 none).timeCfg.toNat / 2 ^ 16 % 256 ∧
    frameKind (master0 none) 0 true (ptpFrame (ptp0 0 1 0 0)) = .ptp (ptp0 0 1 0 0) ∧ field (ptp0 0 1 0 0) 1 1 % 16 ≠ 2 ∧
    (frameKind (master0 none) 0 true (ptpFrame (ptp0 0xB 2 0 0)) = .ptp (ptp0 0xB 2 0 0) ∧ ptpOk (master0 none) (ptp0 0xB 2 0 0) = true ∧
      field (ptp0 0xB 2 0 0) 0 1 % 16 = 0xB ∧ (field (ptp0 0xB 2 0 0) 7 1).testBit 3 = true ∧ (master0 none).tim.ptp.master = none) ∧
    (let s := master0 (some (zeros 20));
      frameKind s 0 true (ptpFrame (ptp0 0 2 0 2)) = .ptp (ptp0 0 2 0 2) ∧ ptpOk s (ptp0 0 2 0 2) = true ∧ field (ptp0 0 2 0 2) 0 1 % 16 = 0 ∧
      s.tim.ptp.master ≠ none ∧ slice (ptp0 0 2 0 2) 20 10 = s.tim.ptp.port ∧ (field (ptp0 0 2 0 2) 6 1).testBit 1 = true) ∧
    slice (ptp0 0 2 0 2) 20 10 ≠ ({} : Tim).ptp.port := by
  refine ⟨by decide, ?_, by decide, ?_, by decide, ⟨?_, ?_, ?_, ?_, rfl⟩, ⟨?_, ?_, ?_, ?_, ?_, ?_⟩, by decide⟩
  all_goals first | rfl | decide +kernel

theorem wit_EpochChanges :
    ((time0 0 {}).dev.atLock = none ∧ (time0 0 {}).tim.state = .free ∧ anyRound (time0 0 {}) = false) ∧
    (¬((time0 0 { state := .locked }).tim.state = .free ∨ (time0 0 { state := .locked }).tim.state = .holdover) ∧ anyRound (atR 0 x0) = true) ∧
    ((time0 0 { state := .locked }).tim.state = .locked ∧ (time0 0 {}).tim.state ≠ .locked) ∧
    ((time0 0 { stepBy := some 5 }).tim.stepBy = some 5 ∧ (time0 0 {}).tim.stepBy = none) := by decide

theorem wit_LockWaitEnds :
    let s : State := { idle0 with dev := { atLock := some finds, recs := [{ count := 1, kind := .powerOn }] }, tim := { state := .holdover } };
    s.dev.atLock = some finds ∧ s.dev.halted = false ∧ s.tim.state = .holdover ∧ s.dev.recs = [{ count := 1, kind := .powerOn }] ∧
    finds.measureOk = true ∧ finds.attestOk = true ∧ { finds with measureOk := false }.measureOk = false := by decide

/-! ### The schedule, waypoints, restores and contexts -/

/-- Shelf 0 with schedule entry 9, NOTIFY_CFG and chest slot 20, which the shelf may manage. -/
def sched0 (x : SchedEntry) (notify : Word) (y : Slot) : State :=
  { shelves := [(0, { desc := some desc0, sched := [(9, x)], cfg := [(0x1930, notify)] })], chest := [(20, y)] }
def armed0 (kind : Nat) : SchedEntry := { kind := kind, armed := true, arg := 20 }

theorem wit_ScheduleFires :
    (∀ kind c, let s := sched0 (armed0 kind) c {};
      s.schedEntry 0 9 = armed0 kind ∧ (armed0 kind).armed = true ∧ (armed0 kind).kind = kind ∧ (armed0 kind).retry = none ∧
      (s.shelf 0).desc ≠ none ∧ (∀ i, (s.rslot 0 i).state ≠ .gather) ∧ (s.shelf 0).reg 0x1930 = c) ∧
    vstat (sched0 (armed0 5) 1 {}) 0 ((1 : Word).toNat / 2 ^ 11 % 2 ^ 37 * 2048 + 20 * 8) 8 = .ok ∧ (1 : Word).getLsbD 0 = true ∧ (0 : Word).getLsbD 0 = false ∧
    ((sched0 {} 0 {}).schedEntry 0 9).armed = false := by
  refine ⟨fun kind c => ⟨rfl, rfl, rfl, rfl, ?_, ?_, rfl⟩, by decide +kernel, by decide, by decide, rfl⟩
  · show some desc0 ≠ none; simp
  · intro i; show RState.free ≠ .gather; decide

/-- A half that shelf 0 owns, of generation 2. -/
def half0 : Half := { key := [], attr := 0x2_0000_0000 }

theorem wit_ScheduledRetirement :
    (∀ r, (sched0 { armed0 4 with retry := r } 0 {}).schedEntry 0 9 = { armed0 4 with retry := r } ∧ (armed0 4).armed = true ∧ (armed0 4).kind = 4) ∧
    mayManage (sched0 (armed0 4) 0 { cur := some (key0 1 3) }) 1 20 = false ∧
    (∀ n ∈ [0, 1], let y : Slot := { cur := some half0, prev := some half0, prevPages := n };
      let s := sched0 (armed0 4) 0 y;
      mayManage s 1 20 = true ∧ s.slot 20 = y) ∧
    (mayManage (sched0 (armed0 4) 0 {}) 1 20 = true ∧ ((sched0 (armed0 4) 0 {}).slot 20).prev = none ∧ ((sched0 (armed0 4) 0 {}).shelf 0).desc ≠ none) := by
  exact ⟨fun _ => ⟨rfl, rfl, rfl⟩, by decide, by decide, by decide, rfl, by decide⟩

/-- Shelf 0 in OPEN with two waypoint slots of size × 32 KiB from 0x1_0000. -/
def wpt0 (size : Nat) (w : Wpt) (r : Rcv) : State :=
  { shelves := [(0, { desc := some desc0, cfg := [(rWptCfg, reg64 1 size)], round := { active := true, begun := true, phase := .open_ }, wpt := w, rcv := r })] }

theorem wit_WaypointsWritten :
    (∀ size w, ((wpt0 size w {}).shelf 0).round.active = true ∧ ((wpt0 size w {}).shelf 0).round.begun = true ∧ ((wpt0 size w {}).shelf 0).rcv.state = .none) ∧
    (∀ size ∈ [2, 64],
      let s := wpt0 size { due := true } {};
      let s₁ : State := ({ s with dev := { s.dev with wptNum := 1 } }).onWpt 0 (fun w => { w with cuts := w.cuts + 1, due := false });
      let secs := wptSections s₁ 0 s.epoch;
      (s.dev.wptNum + 1) % 2 ^ 32 = 1 ∧ ((s.shelf 0).wpt.due = true ∧ (s.shelf 0).wpt.header = none) ∧ wptUnreadable s₁ 0 = false ∧ (∀ x ∈ secs, x.sealed = false) ∧
      heldFolds s 0 = false ∧ readCasks 0 s = s ∧
      (if size = 64 then (layWpt (secs.map (fun x => (x, x.data))) 0x10000).2.2 ≤ (wptSlot (s.shelf 0) 0).2
       else (wptSlot (s.shelf 0) 0).2 < (layWpt (secs.map (fun x => (x, x.data))) 0x10000).2.2)) ∧
    (((wpt0 64 { header := some [] } {}).shelf 0).wpt.due = false ∧ ((wpt0 64 { header := some [] } {}).shelf 0).wpt.header = some [] ∧
      ((wpt0 64 { header := some [] } {}).shelf 0).wpt.header ≠ none ∧ ((wpt0 64 { header := some [] } {}).shelf 0).round.desc.flags.testBit 3 = false) ∧
    (idle0.shelf 0).round.active = false ∧
    (let s := { wpt0 64 {} {} with bays := [(0, { hold := [{ seq := 0, queue := 0 }] })], queues := [(0, { inflight := [{ kind := 1, desc := cmd 1 [] }] })] };
      (s.shelf 0).round.active = true ∧ (s.shelf 0).rcv.state = .none ∧ (s.shelf 0).wpt.header = none ∧ heldFolds s 0 = true) ∧
    ((wpt0 64 {} { state := .restoring }).shelf 0).rcv.state ≠ .none := by
  refine ⟨fun _ _ => ⟨rfl, rfl, rfl⟩, ?_, by decide, rfl, by decide, by decide⟩
  intro size h
  simp only [List.mem_cons, List.not_mem_nil, or_false] at h
  rcases h with rfl | rfl <;> refine ⟨?_, ?_, ?_, ?_, ?_, rfl, ?_⟩ <;> decide +kernel

theorem wit_BuddyAcknowledges :
    (∀ below ∈ [0, 7], ((wpt0 64 { buddy := [(3, 0, 5, 6, 7, below)] } {}).shelf 0).wpt.buddy = [(3, 0, 5, 6, 7, below)]) ∧
    (let c := ((wpt0 64 {} {}).shelf 0).intake.coveredSeq.toNat;
      (c + 1) % 2 ^ 64 < 7 ∧ 0 ≤ (c + 1) % 2 ^ 64) ∧
    (∀ e ∈ ((wpt0 64 { buddy := [(3, 1, 5, 6, 7, 8)] } {}).shelf 0).wpt.buddy, e.2.1 ≠ 0) := by
  decide

/-- A device of two bays with a spare or none, shelf 0 in it or not. -/
def bays0 (spare : Option Nat) (shelf : Bool) : State :=
  { shelves := if shelf then [(0, { desc := some desc0 })] else [], dev := { phys := [3, 4], spare := spare } }

theorem wit_BayFaults :
    (∀ sp sh, (1 : BitVec 4).toNat < (bays0 sp sh).dev.phys.length ∧ (bays0 sp sh).physOf 1 < 17) ∧ shelfOf (bays0 (some 5) false) 1 = none ∧
    (∀ sp, shelfOf (bays0 sp true) 1 = some 0 ∧ ((bays0 sp true).tdi 0).isLocked = false) ∧ (bays0 (some 5) true).dev.spare = some 5 ∧
    (bays0 none true).dev.spare = none ∧ 17 ≤ ({ dev := { phys := [17] } } : State).physOf 0 := by
  refine ⟨fun sp sh => ⟨?_, ?_⟩, by decide, fun sp => ⟨rfl, rfl⟩, rfl, rfl, by decide⟩
  · show 1 < 2; decide
  · show 4 < 17; decide

/-- Shelf 0 in a restore: its program's image at Cellar offset 0, and at 0x1_0000 a waypoint without sections that names that program. -/
def rcv0 (r : RcvState) (done : Option WptSave) : State :=
  let m := memWrite (memWrite [] 0 image0) 0x40_0020 (toLe 32 372214347862923344648033606536892810634490003260026518725858763846110942090);
  { wpt0 2 { doneCut := 1, cuts := 1, done := done } { state := r } with mem := m }
def save0 : WptSave :=
  { round := { active := true, begun := true, phase := .collect }, sched := [], ledger := {}, recov := {}, verif := {}, sealSt := {}, rel := {}, seqs := [], bays := []
    senders := [], cover := (0, 0) }

theorem wit_ShelfRestores :
    (∀ r, let s := rcv0 r (some save0);
      (s.shelf 0).round.active = true ∧ (s.shelf 0).wpt.done = some save0 ∧ save0.round.phase ≠ .seal ∧ (s.shelf 0).rcv.state = r) ∧
    (let s := rcv0 .restoring (some save0);
      let slot := wptSlot (s.shelf 0) (s.shelf 0).wpt.slot;
      let b := vread s 0 slot.1 slot.2;
      (s.shelf 0).wpt.valid = true ∧ (∃ p, readImage s 0 (s.shelf 0).prog.addr = .ok p ∧ p.digest = slice b 0x20 32) ∧ wptReadable s 0 slot.1 b = true ∧
      wptParse s 0 b = some []) ∧
    (((rcv0 .restoring none).shelf 0).round.active = true ∧ ((rcv0 .restoring none).shelf 0).wpt.done = none) ∧
    (let s : State := { idle0 with shelves := [(0, { desc := some desc0, rcv := { state := .restoring } })] };
      (s.shelf 0).round.active = false ∧ (s.shelf 0).rcv.state = .restoring) ∧
    (entriesBack (rcv0 .wait none) 0 = true ∧
      entriesBack { shelves := [(0, { desc := some desc0, round := { active := true, desc := { mode := 3, keysetId := 7 } } })] } 0 = false ∧
      (idle0.shelf 0).rcv.state = .none) := by
  refine ⟨fun _ => ⟨rfl, rfl, by decide, rfl⟩, ⟨by decide, ?_, by decide +kernel, by decide +kernel⟩, ⟨rfl, rfl⟩, ⟨rfl, rfl⟩, by decide, by decide, rfl⟩
  have h : (match readImage (rcv0 .restoring (some save0)) 0 0 with
      | .ok p => p.digest == slice (vread (rcv0 .restoring (some save0)) 0 0x10000 0x10000) 0x20 32 | .error _ => false) = true := by decide +kernel
  revert h
  show _ → ∃ p, readImage (rcv0 .restoring (some save0)) 0 0 = .ok p ∧ p.digest = slice (vread (rcv0 .restoring (some save0)) 0 0x10000 0x10000) 0x20 32
  cases readImage (rcv0 .restoring (some save0)) 0 0 with
  | ok p => intro h; exact ⟨p, rfl, by simpa using h⟩
  | error e => intro h; cases h

/-- A waypoint image of two bays with one section, kind 1, which holds the round descriptor. -/
def wptImage0 : Bytes :=
  toLe 4 0x5450574B ++ toLe 2 1 ++ [0, 2] ++ zeros 0x38 ++ [2, 1] ++ zeros 190 ++
  ([1, 0] ++ zeros 6 ++ toLe 8 0x140 ++ toLe 8 256 ++ toLe 32 7112558974335400709511909843553417450694378143372753688061062375025840095966 ++ zeros 8) ++ desc256

/-- The same with a CASKS section, kind 6, whose first bay lists a Cask that is not enabled. -/
def wptImage1 : Bytes :=
  toLe 4 0x5450574B ++ toLe 2 1 ++ [0, 2] ++ zeros 0x38 ++ [2, 1] ++ zeros 190 ++
  ([6, 0] ++ zeros 6 ++ toLe 8 0x140 ++ toLe 8 64 ++ toLe 32 14481962533780928758556113647182158844187190709769298408581021487708299834080 ++ zeros 8) ++ ([1] ++ zeros 63)

theorem wit_Takeovers :
    ((atR 0 x0).shelf 0).round.active = true ∧
    ((start0.shelf 0).desc ≠ none ∧ (start0.shelf 0).state = .ready ∧ (start0.shelf 0).round.active = false ∧ serviceActive start0 0 = false) ∧
    field [] 0 4 ≠ 0x5450574B ∧
    (let b := toLe 4 0x5450574B ++ toLe 2 1 ++ zeros 0x3B ++ [1] ++ zeros 0xFE;
      field b 0 4 = 0x5450574B ∧ field b 4 2 = 1 ∧ wptParse start0 0 b = none) ∧
    (let s := start0.onRcv 0 (fun r => { r with cmd := (0 : Word) &&& 0xFFFF_0FFF_0000_0000 });
      ∃ m x, (0 : BitVec 8) = 0 ∧ field wptImage0 0 4 = 0x5450574B ∧ field wptImage0 4 2 = 1 ∧ wptParse s 0 wptImage0 = some m ∧
        takeoverNeeds s 0 (parseDesc ((tget [] m 1).take 256)) = some x ∧ field wptImage0 0x40 1 = (s.shelf 0).bays.length ∧
        slice wptImage0 0x20 32 = (s.shelf 0).prog.digest ∧ field wptImage0 7 1 < 7 ∧ takeBays 0 (imageBays (s.shelf 0).bays.length m) s ≠ none) ∧
    (0x22 : BitVec 8) ≠ 0 ∧ (0x22 : BitVec 8).toNat ∈ statusCodes ∧
    (let s := start0.onRcv 0 (fun r => { r with cmd := (0 : Word) &&& 0xFFFF_0FFF_0000_0000 });
      field wptImage1 0 4 = 0x5450574B ∧ field wptImage1 4 2 = 1 ∧
        ∃ m, wptParse s 0 wptImage1 = some m ∧ takeBays 0 (imageBays (s.shelf 0).bays.length m) s = none) := by
  refine ⟨rfl, by decide, by decide, ⟨by decide +kernel, by decide +kernel, ?_⟩, ?_, by decide, by decide, by decide +kernel, by decide +kernel, ?_⟩
  · decide +kernel
  case refine_3 =>
    have h : (match wptParse (start0.onRcv 0 (fun r => { r with cmd := (0 : Word) &&& 0xFFFF_0FFF_0000_0000 })) 0 wptImage1 with
        | some m => (takeBays 0 (imageBays ((start0.onRcv 0 (fun r => { r with cmd := (0 : Word) &&& 0xFFFF_0FFF_0000_0000 })).shelf 0).bays.length m)
            (start0.onRcv 0 (fun r => { r with cmd := (0 : Word) &&& 0xFFFF_0FFF_0000_0000 }))).isNone
        | none => false) = true := by decide +kernel
    revert h
    show _ → ∃ m, _
    cases wptParse (start0.onRcv 0 (fun r => { r with cmd := (0 : Word) &&& 0xFFFF_0FFF_0000_0000 })) 0 wptImage1 with
    | none => intro h; cases h
    | some m => intro h; exact ⟨m, rfl, Option.isNone_iff_eq_none.mp h⟩
  have h : (match wptParse (start0.onRcv 0 (fun r => { r with cmd := (0 : Word) &&& 0xFFFF_0FFF_0000_0000 })) 0 wptImage0 with
      | some m => (takeoverNeeds (start0.onRcv 0 (fun r => { r with cmd := (0 : Word) &&& 0xFFFF_0FFF_0000_0000 })) 0 (parseDesc ((tget [] m 1).take 256))).isSome &&
          (takeBays 0 (imageBays ((start0.onRcv 0 (fun r => { r with cmd := (0 : Word) &&& 0xFFFF_0FFF_0000_0000 })).shelf 0).bays.length m)
            (start0.onRcv 0 (fun r => { r with cmd := (0 : Word) &&& 0xFFFF_0FFF_0000_0000 }))).isSome
      | none => false) = true := by decide +kernel
  revert h
  show _ → ∃ m x, _
  cases wptParse (start0.onRcv 0 (fun r => { r with cmd := (0 : Word) &&& 0xFFFF_0FFF_0000_0000 })) 0 wptImage0 with
  | none => intro h; cases h
  | some m =>
    intro h
    obtain ⟨hn, hb⟩ := Bool.and_eq_true_iff.mp h
    obtain ⟨x, hx⟩ := Option.isSome_iff_exists.mp hn
    exact ⟨m, x, rfl, by decide +kernel, by decide +kernel, rfl, hx, by decide +kernel, by decide +kernel, by decide +kernel,
      fun e => by rw [Option.isSome_iff_ne_none] at hb; exact hb e⟩

/-- Shelf 0 with room for two context images, its context as given. -/
def ctx0 (c : Ctx) (a : Bool) (st : ShelfState) : State :=
  { shelves := [(0, { desc := some desc0, cfg := [(0x40, 0x1_0000_0001)], ctx := c, round := { active := a }, state := st })] }

theorem wit_ContextCommands :
    (∀ c ∈ [0, 16], let s := ctx0 { current := c } false .ready;
      let h := s.shelf 0;
      let img := ctxImage (readCasks 0 (s.onCtx 0 (fun c => { c with target := 1, waiting := true }))) 0;
      h.ctx.waiting = false ∧ h.fenced = false ∧ h.round.active = false ∧ serviceActive s 0 = false ∧ ctxQuiet s 0 = true ∧ (1 : BitVec 4).toNat < ctxCount h ∧
      inCellar h (ctxSlot h 0).1 (ctxCount h * (ctxSlot h 0).2) = true ∧ 1 ∉ h.ctx.held ∧ 1 ≠ h.ctx.current ∧ (h.ctx.current < 16 → img.1.length ≤ (ctxSlot h 0).2) ∧
      h.ctx.pending = false ∧ inCellar h (ctxSlot h 1).1 (ctxSlot h 1).2 = true) ∧
    (((ctx0 {} true .ready).shelf 0).fenced = false ∧ ((ctx0 {} true .ready).shelf 0).round.active = true) ∧ ((ctx0 {} false .fenced).shelf 0).fenced = true ∧
    ((0 : BitVec 4).toNat = ((ctx0 {} false .ready).shelf 0).ctx.current ∧ ((ctx0 { pending := true } true .ready).shelf 0).ctx.pending = true) := by
  decide +kernel

/-! ### The mailbox -/

/-- A request of function f with an opcode and a payload (R410). -/
def ask0 (f op : Nat) (p : Bytes) (s : State) : State :=
  s.onMbx f (fun _ => { req := toLe 2 op ++ (zeros 2 ++ (toLe 4 7 ++ (toLe 4 p.length ++ (zeros 4 ++ p)))), busy := true })

theorem leNat_toLe2 (n : Nat) (h : n < 65536) : leNat (toLe 2 n) = n := by
  simp [toLe, leNat]; omega

theorem leNat_toLe4 (n : Nat) (h : n < 2 ^ 32) : leNat (toLe 4 n) = n := by
  simp [toLe, leNat]; omega

theorem asks_ask {f op : Nat} {p : Bytes} {s : State} (hp : p.length ≤ 4080) (ho : op < 65536) (hf : fnExists s f = true) (hv : fnServed s f = true)
    (hl : loading s f = false) (hd : (s.dev.halted || s.host.noflit) = false) (hk : s.isl.lockdown = false) : Asks (ask0 f op p s) f op p := by
  have hm : ((ask0 f op p s).fn f).mbx = { req := toLe 2 op ++ (zeros 2 ++ (toLe 4 7 ++ (toLe 4 p.length ++ (zeros 4 ++ p)))), busy := true } := by
    simp [ask0, State.onMbx, State.onFn, State.fn]
  have hop : reqOp ((ask0 f op p s).fn f).mbx = op := by
    rw [hm]
    show leNat (((toLe 2 op ++ _).drop 0).take 2) = op
    rw [List.drop_zero, List.take_append_of_le_length (by simp), List.take_of_length_le (by simp)]
    exact leNat_toLe2 op ho
  have hlen : reqLen ((ask0 f op p s).fn f).mbx = p.length := by
    rw [hm]
    show leNat (((toLe 2 op ++ (zeros 2 ++ (toLe 4 7 ++ (toLe 4 p.length ++ (zeros 4 ++ p))))).drop 8).take 4) = p.length
    rw [show toLe 2 op ++ (zeros 2 ++ (toLe 4 7 ++ (toLe 4 p.length ++ (zeros 4 ++ p)))) =
      (toLe 2 op ++ (zeros 2 ++ toLe 4 7)) ++ (toLe 4 p.length ++ (zeros 4 ++ p)) by simp, List.drop_left' (by simp),
      List.take_append_of_le_length (by simp), List.take_of_length_le (by simp)]
    exact leNat_toLe4 _ (by omega)
  have hpay : reqPay ((ask0 f op p s).fn f).mbx = p := by
    unfold reqPay
    rw [hlen, hm]
    show ((toLe 2 op ++ (zeros 2 ++ (toLe 4 7 ++ (toLe 4 p.length ++ (zeros 4 ++ p)))) ++ zeros mbxSize).drop 16).take p.length = p
    rw [show toLe 2 op ++ (zeros 2 ++ (toLe 4 7 ++ (toLe 4 p.length ++ (zeros 4 ++ p)))) ++ zeros mbxSize =
      (toLe 2 op ++ (zeros 2 ++ (toLe 4 7 ++ (toLe 4 p.length ++ zeros 4)))) ++ (p ++ zeros mbxSize) by simp, List.drop_left' (by simp),
      List.take_left' rfl]
  have hok : reqOk ((ask0 f op p s).fn f).mbx = true := by
    unfold reqOk
    rw [hlen, hm]
    have h2 : slice (toLe 2 op ++ (zeros 2 ++ (toLe 4 7 ++ (toLe 4 p.length ++ (zeros 4 ++ p))))) 2 2 = zeros 2 := by
      rw [slice, List.drop_left' (by simp), List.take_left' (by simp)]
    have h12 : slice (toLe 2 op ++ (zeros 2 ++ (toLe 4 7 ++ (toLe 4 p.length ++ (zeros 4 ++ p))))) 12 4 = zeros 4 := by
      rw [show toLe 2 op ++ (zeros 2 ++ (toLe 4 7 ++ (toLe 4 p.length ++ (zeros 4 ++ p)))) =
        (toLe 2 op ++ (zeros 2 ++ (toLe 4 7 ++ toLe 4 p.length))) ++ (zeros 4 ++ p) by simp, slice, List.drop_left' (by simp), List.take_left' (by simp)]
    simp [zeroAt, h2, h12, hp]
    decide
  have hf' : fnExists (ask0 f op p s) f = true := hf
  have hl' : loading (ask0 f op p s) f = false := hl
  have hd' : ((ask0 f op p s).dev.halted || (ask0 f op p s).host.noflit) = false := hd
  refine ⟨?_, hk, hok, hv, hpay⟩
  show (fnExists (ask0 f op p s) f && ((ask0 f op p s).fn f).mbx.busy && ((ask0 f op p s).fn f).mbx.held.isNone && !loading (ask0 f op p s) f &&
    reqOp ((ask0 f op p s).fn f).mbx == op && (!((ask0 f op p s).dev.halted || (ask0 f op p s).host.noflit) || op == 1)) = true
  rw [hop, hf', hl', hd', hm]
  simp

/-- On a device as it is after reset but for its shelf 0, from the physical function. -/
theorem asks_pf {op : Nat} {p : Bytes} {s : State} (hp : p.length ≤ 4080) (ho : op < 65536) (hl : loading s 0 = false)
    (hd : (s.dev.halted || s.host.noflit) = false) (hk : s.isl.lockdown = false) : Asks (ask0 0 op p s) 0 op p := asks_ask hp ho rfl rfl hl hd hk

/-- Virtual functions 1 and 2, for shelves 0 and 1, beside shelf 0. -/
def vf0 : State := { idle0 with host := { vfEnable := true, numVfs := 2 } }

theorem wit_MailboxAnswers :
    Asks (ask0 0 1 [] idle0) 0 1 [] ∧ Asks (ask0 0 2 [5] idle0) 0 2 [5] ∧
    (let s : State := { ask0 0 2 [] idle0 with isl := { lockdown := true } };
      mbxWaits s 0 2 = true ∧ s.isl.lockdown = true) ∧
    (let s := idle0.onMbx 0 (fun _ => { req := toLe 2 2 ++ zeros 6 ++ toLe 4 5000 ++ zeros 4, busy := true });
      mbxWaits s 0 2 = true ∧ s.isl.lockdown = false ∧ reqOk (s.fn 0).mbx = false) ∧
    (Asks (ask0 1 0x303 [] vf0) 1 0x303 [] ∧ (1 : BitVec 4).toNat ≠ 0) ∧ mbxWaits idle0 0 2 = false ∧
    ((idle0.onMbx 0 (fun m => { m with held := some [1] })).fn 0).mbx.held = some [1] ∧ (idle0.fn 0).mbx.held = none := by
  refine ⟨asks_pf ?_ ?_ rfl rfl rfl, asks_pf ?_ ?_ rfl rfl rfl, ⟨?_, rfl⟩, ⟨?_, rfl, ?_⟩, ⟨asks_ask ?_ ?_ rfl rfl rfl rfl rfl, ?_⟩, ?_, rfl, rfl⟩ <;> decide

/-! #### Keys -/

/-- CHEST_ATTR of a half of a kind, without usage, GEN 1, owned by the physical function. -/
def attr1 (kind : Nat) : Nat := kind * 2 ^ 22 + 15 * 2 ^ 26 + 2 ^ 32

/-- The payload of a load into slot 20: kind 8 in plain, or kind 1 wrapped under slot 17 with its tag, as given. -/
def gen1 (slot : Byte) : Bytes := [slot, 0, 0, 0, 0, 0, 0, 0] ++ toLe 8 (attr1 1)
def plain1 (kat : Nat) : Bytes := [20, 0, 0, 97, 0, 0, 0, 0] ++ toLe 8 (attr1 8) ++ toLe 16 kat ++ zeros 32 ++ zeros 97
def wrapped1 (tag : Nat) : Bytes :=
  [20, 1, 17, 32, 0, 0, 0, 0] ++ toLe 8 (attr1 1) ++ toLe 16 80549195671016563527655672549993099282 ++ zeros 12 ++ zeros 4 ++ toLe 16 tag ++
  toLe 32 1356938545749799165119972480570561420158166088792045191583201176713292677120

/-- HPKE as the relying party seals: what the device's steps open (RFC 9180). -/
def hpkeKey (sk enc info : Bytes) : Bytes × Bytes :=
  let eae := hpkeExtract hpkeKem [] (ascii "eae_prk") (x25519 sk enc);
  let shared := hpkeExpand hpkeKem eae (ascii "shared_secret") (enc ++ x25519 sk basePoint) 32;
  let ctx := [0] ++ hpkeExtract hpkeSuite [] (ascii "psk_id_hash") [] ++ hpkeExtract hpkeSuite [] (ascii "info_hash") info;
  let secret := hpkeExtract hpkeSuite shared (ascii "secret") [];
  (hpkeExpand hpkeSuite secret (ascii "key") ctx 32, hpkeExpand hpkeSuite secret (ascii "base_nonce") ctx 12)

theorem hpkeExpand_length (suite prk label info : Bytes) : (hpkeExpand suite prk label info 32).length = 32 := by
  have h : ∀ x : Bytes, x.length = 32 → ((x ++ []).take 32).length = 32 := fun x hx => by simp [hx]
  exact h _ (hmac256_length _ _)

theorem hpkeKey_length (sk enc info : Bytes) : (hpkeKey sk enc info).1.length = 32 := by
  unfold hpkeKey
  exact hpkeExpand_length _ _ _ _

theorem gcmSeal_lengths (key nonce aad p : Bytes) (h : key.length = 32) :
    (gcmSeal key nonce aad p).1.length = p.length ∧ (gcmSeal key nonce aad p).2.length = 16 :=
  ⟨gcmCtr_length key nonce 2 p h, gcmTag_length key nonce aad _ h⟩

theorem hpkeOpen_eq (sk enc info ct : Bytes) (h : (x25519 sk enc).all (· == 0) = false) :
    hpkeOpen sk enc info ct = gcmOpen (hpkeKey sk enc info).1 (hpkeKey sk enc info).2 [] (ct.take (ct.length - 16)) (ct.drop (ct.length - 16)) := by
  unfold hpkeOpen
  rw [if_neg (by rw [h]; decide)]
  rfl

/-- A sealed message opens with its tag, and with no other of 16 bytes. -/
theorem gcmOpen_with (key nonce aad p tag : Bytes) (h : key.length = 32) :
    gcmOpen key nonce aad (gcmSeal key nonce aad p).1 tag = if (gcmSeal key nonce aad p).2 = tag then some p else none := by
  show (if (gcmSeal key nonce aad p).2 = tag then some (gcmCtr _ _ 2 (gcmCtr _ _ 2 p)) else none) = _
  rw [gcmCtr_twice _ _ _ _ h]

/-- A session key, and a message of R489 for slot 20: an X25519 key of zeros. -/
def sk0 : Bytes := 64 :: zeros 31
def session0 : Session := { key := sk0, nonce := zeros 32, expiry := 100 }
def secret0 : Bytes := zeros 48 ++ toLe 8 (attr1 3) ++ [20] ++ zeros 7
def info0 : Bytes := ascii "KA2 key release" ++ toLe 8 devId ++ session0.nonce
def sealed0 : Bytes × Bytes := gcmSeal (hpkeKey sk0 basePoint info0).1 (hpkeKey sk0 basePoint info0).2 [] secret0
def kat0 : Bytes := katOf 20 1 3 (zeros 32)
def release1 (tag : Bytes) : Bytes := basePoint ++ (sealed0.1 ++ (tag ++ kat0))

theorem dh0 : (x25519 sk0 basePoint).all (· == 0) = false := by decide +kernel
theorem sealed0_lengths : sealed0.1.length = 64 ∧ sealed0.2.length = 16 := by
  unfold sealed0
  obtain ⟨h1, h2⟩ := gcmSeal_lengths (hpkeKey sk0 basePoint info0).1 (hpkeKey sk0 basePoint info0).2 [] secret0 (hpkeKey_length _ _ _)
  exact ⟨h1.trans (by decide), h2⟩
theorem kat0_length : kat0.length ≤ 16 := by
  show ((sha3 _).take 16).length ≤ 16
  simp only [List.length_take]; omega

theorem release1_parts (tag : Bytes) (h : tag.length = 16) :
    slice (release1 tag) 0 32 = basePoint ∧ slice (release1 tag) 32 80 = sealed0.1 ++ tag ∧ slice (release1 tag) 112 16 = kat0 ∧ (release1 tag).length ≤ 128 := by
  have h1 := sealed0_lengths.1
  have hk := kat0_length
  have hb : basePoint.length = 32 := rfl
  refine ⟨?_, ?_, ?_, ?_⟩
  · show ((basePoint ++ _).drop 0).take 32 = basePoint
    rw [List.drop_zero, List.take_left' hb]
  · show ((basePoint ++ _).drop 32).take 80 = _
    rw [List.drop_left' hb, ← List.append_assoc, List.take_left' (by simp [h1, h])]
  · show ((basePoint ++ (sealed0.1 ++ (tag ++ kat0))).drop 112).take 16 = kat0
    rw [show basePoint ++ (sealed0.1 ++ (tag ++ kat0)) = (basePoint ++ (sealed0.1 ++ tag)) ++ kat0 by simp, List.drop_left' (by simp [h1, h, hb]),
      List.take_of_length_le hk]
  · simp only [release1, List.length_append, hb, h1, h]; omega

theorem opens0 (tag : Bytes) (h : tag.length = 16) : hpkeOpen sk0 basePoint info0 (sealed0.1 ++ tag) = if sealed0.2 = tag then some secret0 else none := by
  have hn : (sealed0.1 ++ tag).length - 16 = sealed0.1.length := by rw [List.length_append, h]; omega
  rw [hpkeOpen_eq _ _ _ _ dh0, hn, List.take_left' rfl, List.drop_left' rfl]
  unfold sealed0
  exact gcmOpen_with _ _ _ _ _ (hpkeKey_length _ _ _)

def keys0 (l : Tab Session) (e : Int) : State :=
  { idle0 with chest := [(17, { cur := some (key0 1 (8 + 2 ^ 11 + 2 ^ 15)) })], isl := { sessions := l }, tim := { base := e } }

theorem flip_ne : ∀ b : Byte, ¬b = b ^^^ 1 := by decide +kernel

theorem wit_KeyLoads :
    (∀ s ∈ [(20 : Byte), 3], Asks (ask0 0 0x101 (gen1 s) (keys0 [] 0)) 0 0x101 (gen1 s) ∧ zeroAt (gen1 s) 1 7 = true ∧ field (gen1 s) 8 8 = attr1 1 ∧
      attr1 1 / 2 ^ 22 % 16 = 1) ∧
    (loadRefused (keys0 [] 0) 0 20 (BitVec.ofNat 64 (attr1 1)) (kindBytes 1) = none ∧ loadRefused (keys0 [] 0) 0 3 (BitVec.ofNat 64 (attr1 1)) (kindBytes 1) = some .deniedAttribute) ∧
    (∀ kat ∈ [228718595030709845839984970174845684014, 0], let p := plain1 kat;
      Asks (ask0 0 0x102 p (keys0 [] 0)) 0 0x102 p ∧ (zeroAt p 4 4 = true ∧ zeroAt p 0x2C 4 = true ∧ (slice p 0x40 (field p 3 1)).length = field p 3 1) ∧ field p 1 1 = 0 ∧
      attr1 8 / 2 ^ 22 % 16 = 8 ∧ field p 8 8 = attr1 8 ∧ loadRefused (keys0 [] 0) 0 20 (BitVec.ofNat 64 (attr1 8)) 97 = none ∧ slice p 0x40 97 = zeros 97 ∧ slice p 0x10 16 = toLe 16 kat) ∧
    (katOf 20 1 8 (zeros 97) = toLe 16 228718595030709845839984970174845684014 ∧ toLe 16 228718595030709845839984970174845684014 ≠ toLe 16 0) ∧
    (∀ tag ∈ [1329227995784915872903807060280344576, 0], let p := wrapped1 tag;
      let opened := gcmOpen [] (slice p 0x20 12) (p.take 0x20) (slice p 0x40 (field p 3 1)) (slice p 0x30 16);
      Asks (ask0 0 0x102 p (keys0 [] 0)) 0 0x102 p ∧ (zeroAt p 4 4 = true ∧ zeroAt p 0x2C 4 = true ∧ (slice p 0x40 (field p 3 1)).length = field p 3 1) ∧ field p 1 1 = 1 ∧
      bindCur (keys0 [] 0) (field p 2 1) (mbxUse 0 [uUnwrap] [1]) = .ok (key0 1 (8 + 2 ^ 11 + 2 ^ 15)) ∧ opened = (if tag = 0 then none else some (zeros 32)) ∧
      loadRefused (keys0 [] 0) 0 20 (BitVec.ofNat 64 (attr1 1)) 32 = none ∧ slice p 0x10 16 = toLe 16 80549195671016563527655672549993099282) ∧
    katOf 20 1 1 (zeros 32) = toLe 16 80549195671016563527655672549993099282 ∧
    (Asks (ask0 0 0x202 [] (keys0 [] 0)) 0 0x202 [] ∧ (keys0 [] 0).isl.sessions = []) ∧
    (∀ e tag, tag.length = 16 → Asks (ask0 0 0x202 (release1 tag) (keys0 [(0, session0)] e)) 0 0x202 (release1 tag) ∧ (keys0 [(0, session0)] e).isl.sessions = [(0, session0)]) ∧
    (session0.expiry < (keys0 [(0, session0)] 101).epoch ∧ (keys0 [(0, session0)] 100).epoch ≤ session0.expiry) ∧
    (∃ tag, tag.length = 16 ∧ hpkeOpen session0.key (slice (release1 tag) 0 32) (ascii "KA2 key release" ++ toLe 8 devId ++ session0.nonce) (slice (release1 tag) 32 80) = none) ∧
    (∃ tag, tag.length = 16 ∧ hpkeOpen session0.key (slice (release1 tag) 0 32) (ascii "KA2 key release" ++ toLe 8 devId ++ session0.nonce) (slice (release1 tag) 32 80) = some secret0 ∧
      (let a := BitVec.ofNat 64 (field secret0 0x30 8);
        let kd := a.toNat / 2 ^ 22 % 16;
        let l := kindBytes kd;
        zeroAt secret0 0x39 7 = true ∧ zeroAt secret0 l (48 - l) = true ∧
        loadRefused (endSession 0 (ask0 0 0x202 (release1 tag) (keys0 [(0, session0)] 100))) 0 (field secret0 0x38 1) a (secret0.take l).length = none ∧
        katOf (field secret0 0x38 1) (a.toNat / 2 ^ 32) kd (secret0.take l) = slice (release1 tag) 112 16)) := by
  refine ⟨?_, ?_, ?_, ?_, ?_, ?_, ⟨asks_pf (by decide) (by decide) rfl rfl rfl, rfl⟩, ?_, ?_, ?_, ?_⟩
  · intro s hs
    refine ⟨asks_pf ?_ (by decide) rfl rfl rfl, ?_, ?_, by decide⟩ <;>
    · simp only [List.mem_cons, List.not_mem_nil, or_false] at hs
      rcases hs with rfl | rfl <;> decide +kernel
  · decide +kernel
  · intro kat hk
    refine ⟨asks_pf ?_ (by decide) rfl rfl rfl, ?_, ?_, by decide, ?_, by decide +kernel, ?_, ?_⟩ <;>
    · simp only [List.mem_cons, List.not_mem_nil, or_false] at hk
      rcases hk with rfl | rfl <;> decide +kernel
  · decide +kernel
  · intro tag ht
    refine ⟨asks_pf ?_ (by decide) rfl rfl rfl, ?_, ?_, ?_, ?_, ?_, ?_⟩ <;>
    · simp only [List.mem_cons, List.not_mem_nil, or_false] at ht
      rcases ht with rfl | rfl <;> decide +kernel
  · decide +kernel
  · intro e tag h
    exact ⟨asks_pf (Nat.le_trans (release1_parts tag h).2.2.2 (by decide)) (by decide) rfl rfl rfl, rfl⟩
  · decide
  · refine ⟨sealed0.2.map (· ^^^ 1), by rw [List.length_map]; exact sealed0_lengths.2, ?_⟩
    have hl : (sealed0.2.map (· ^^^ 1)).length = 16 := by rw [List.length_map]; exact sealed0_lengths.2
    obtain ⟨h1, h2, _, _⟩ := release1_parts _ hl
    rw [h1, h2]
    show hpkeOpen sk0 basePoint info0 _ = none
    rw [opens0 _ hl, if_neg]
    intro h
    have hs := sealed0_lengths.2
    revert h hs
    generalize sealed0.2 = t
    intro h hs
    cases t with
    | nil => cases hs
    | cons b r => exact flip_ne b (List.cons.inj h).1
  · refine ⟨sealed0.2, sealed0_lengths.2, ?_, ?_⟩
    · obtain ⟨h1, h2, _, _⟩ := release1_parts _ sealed0_lengths.2
      rw [h1, h2]
      show hpkeOpen sk0 basePoint info0 _ = some secret0
      rw [opens0 _ sealed0_lengths.2, if_pos rfl]
    · refine ⟨by decide, by decide, ?_, ?_⟩
      · decide +kernel
      · rw [(release1_parts _ sealed0_lengths.2).2.2.1]
        rfl

/-- Slot 20 as given, asked of by the physical function with SLOT and flags. -/
def keys1 (op : Nat) (slot force : Byte) (x : Slot) : State := ask0 0 op [slot, force] { idle0 with chest := [(20, x)] }
/-- A half of a kind that the physical function owns, and one of shelf 9's, which no function has. -/
def half1 (kind : Nat) : Half := { key := zeros 32, attr := BitVec.ofNat 64 (attr1 kind) }
def half9 : Half := { key := [], attr := 0x2400_0000 }

theorem wit_KeyManagement :
    (∀ op slot force x, op < 65536 → Asks (keys1 op slot force x) 0 op [slot, force] ∧ (keys1 op slot force x).slot 20 = x ∧ field [slot, force] 0 1 = slot.toNat ∧
      field [slot, force] 1 1 = force.toNat) ∧
    (∀ x ∈ [({} : Slot), { cur := some (half1 1), prev := some (half1 1), prevPages := 2, curPages := 3 }, { cur := some (half1 1), prev := some (half1 1) }],
      mayManage (keys1 0x103 20 0 x) 0 20 = true) ∧
    (mayManage (keys1 0x103 3 0 {}) 0 3 = false ∧ mayManage (keys1 0x105 20 0 { cur := some half9 }) 0 20 = false) ∧
    ((0 : Byte).toNat.testBit 0 = false ∧ (1 : Byte).toNat.testBit 0 = true) ∧
    (∀ kind ∈ [8, 3, 1], mayManage (keys1 0x106 20 0 { cur := some (half1 kind) }) 0 20 = true ∧ (half1 kind).kind = kind) := by
  refine ⟨fun op slot force x ho => ⟨asks_pf (by simp) ho rfl rfl rfl, rfl, ?_, ?_⟩, by decide, by decide, by decide, by decide⟩ <;> rfl

/-- A device with or without attestation keys, a chain and the report of shelf 0's last round. -/
def attest0 (keys : Bool) : State :=
  { idle0 with shelves := [(0, { desc := some desc0, attest := [7] })], isl := { cert := some [1] }, host := { vfEnable := true, numVfs := 2 }
               chest := if keys then [(0, { cur := some (half1 7) }), (1, { cur := some (half1 6) })] else [] }
def attestP (scope fresh : Byte) : Bytes := zeros 32 ++ [scope, fresh]

theorem wit_Attestation :
    (∀ keys, ∀ scope ∈ [(0xFF : Byte), 0], ∀ fresh ∈ [(0 : Byte), 1], let p := attestP scope fresh;
      Asks (ask0 0 0x201 p (attest0 keys)) 0 0x201 p ∧ scopeOk 0 (field p 32 1) = true ∧ (field p 32 1 = 0xFF ∨ field p 32 1 < 8) ∧
      (field p 33 1).testBit 0 = (fresh == 1)) ∧
    (((attest0 true).slot 1).cur = some (half1 6) ∧ ((attest0 true).slot 0).cur = some (half1 7) ∧ ((attest0 false).slot 1).cur = none) ∧
    (Asks (ask0 1 0x201 (attestP 1 0) (attest0 true)) 1 0x201 (attestP 1 0) ∧ scopeOk 1 (field (attestP 1 0) 32 1) = false) ∧
    (Asks (ask0 0 0x203 [0] (attest0 true)) 0 0x203 [0] ∧ scopeOk 0 (field [0] 0 1) = true ∧ field [0] 0 1 < 8 ∧ ((attest0 true).shelf (field [0] 0 1)).attest ≠ []) ∧
    (Asks (ask0 1 0x203 [1] (attest0 true)) 1 0x203 [1] ∧ scopeOk 1 (field [1] 0 1) = false) ∧
    (∀ x ∈ [(0 : Byte), 1], Asks (ask0 0 0x204 [x] (attest0 true)) 0 0x204 [x] ∧ (attest0 true).isl.cert = some [1] ∧ field [x] 0 1 = x.toNat) := by
  refine ⟨?_, ⟨rfl, rfl, rfl⟩, ⟨asks_ask ?_ ?_ rfl rfl rfl rfl rfl, ?_⟩, ⟨asks_pf ?_ ?_ rfl rfl rfl, ?_, ?_, ?_⟩, ⟨asks_ask ?_ ?_ rfl rfl rfl rfl rfl, ?_⟩, ?_⟩
  · intro keys scope hs fresh hf
    refine ⟨asks_pf ?_ (by decide) rfl rfl rfl, rfl, ?_, ?_⟩ <;>
    · simp only [List.mem_cons, List.not_mem_nil, or_false] at hs hf
      rcases hs with rfl | rfl <;> rcases hf with rfl | rfl <;> decide
  case refine_13 =>
    intro x hx
    refine ⟨asks_pf (by simp) (by decide) rfl rfl rfl, rfl, ?_⟩
    rfl
  all_goals decide

/-- Shelf 0 of two pseudo-channels whose model page list of one entry lies at 0x400 and whose model region is m. -/
def model0 (m : Option (Nat × Nat)) (a : Bool) : State :=
  { shelves := [(0, { desc := some { desc0 with pcs := [0, 1] }, model := m, round := { active := a } })], host := { vfEnable := true, numVfs := 2 }
    mem := memWrite [] 0x1_0000 (toLe 8 0x1000 ++ toLe 4 1 ++ toLe 4 0) }
/-- MODEL_LOAD of n pages of 100 bytes in all from that list to 0x1_0000. -/
def modelP (n : Nat) : Bytes := [0, 20, 0, 0] ++ toLe 4 n ++ toLe 8 0x800 ++ toLe 8 0x1_0000 ++ toLe 8 100

theorem wit_ModelLoads :
    (let s := ask0 0 0x210 (modelP 1) (model0 none false);
      let h := s.shelf 0;
      Asks s 0 0x210 (modelP 1) ∧ field (modelP 1) 0 1 = 0 ∧ field (modelP 1) 4 4 = 1 ∧ field (modelP 1) 8 8 = 0x800 ∧ field (modelP 1) 0x10 8 = 0x1_0000 ∧ field (modelP 1) 0x18 8 = 100 ∧
      h.desc ≠ none ∧ h.model = none ∧ h.load = none ∧ zeroAt (modelP 1) 2 2 = true ∧ (1 - 1) * 65488 < 100 ∧ 100 ≤ 1 * 65488 ∧ inCellar h 0x800 16 = true ∧
      inCellar h 0x1_0000 (roundUp 100 0x10000) = true ∧ openRange s 0 0x1_0000 (roundUp 100 0x10000) = true ∧ vstat s 0 0x800 16 = .ok ∧ noteRead 0 0x800 16 s = s ∧
      (∀ e ∈ (chunks 16 (vread s 0 0x800 16)).zipIdx, field e.1 0xC 4 = e.2)) ∧
    (Asks (ask0 2 0x210 (modelP 1) { model0 none false with shelves := [(1, { desc := some desc0 })] }) 2 0x210 (modelP 1) ∧ (2 : BitVec 4).toNat ≠ 0 ∧
      field (modelP 1) 0 1 + 1 ≠ (2 : BitVec 4).toNat) ∧
    (Asks (ask0 0 0x210 (modelP 0) (model0 none false)) 0 0x210 (modelP 0) ∧ field (modelP 0) 4 4 = 0) ∧
    (∀ a, Asks (ask0 0 0x211 [0] (model0 (some (0x1_0000, 0x1_0000)) a)) 0 0x211 [0] ∧ ((model0 (some (0x1_0000, 0x1_0000)) a).shelf 0).model = some (0x1_0000, 0x1_0000) ∧
      ((model0 (some (0x1_0000, 0x1_0000)) a).shelf 0).round.active = a) := by
  refine ⟨⟨asks_pf (by decide) (by decide) rfl rfl rfl, ?_, ?_, ?_, ?_, ?_, ?_, rfl, rfl, ?_, ?_, ?_, ?_, ?_, ?_, ?_, ?_, ?_⟩,
    ⟨asks_ask (by decide) (by decide) rfl rfl rfl rfl rfl, ?_, ?_⟩, ⟨asks_pf (by decide) (by decide) rfl rfl rfl, ?_⟩, fun a =>
    ⟨asks_pf (by decide) (by decide) rfl rfl rfl, rfl, rfl⟩⟩
  case refine_6 => show some { desc0 with pcs := [0, 1] } ≠ none; simp
  case refine_13 => rfl
  all_goals decide +kernel

/-- A load of pages under slot 20 of key ⟨32 zero bytes⟩, GEN 1, of which the first is to come. -/
def load1 (gens : List Nat) : ModelLoad := { fn := 0, tag := 7, slot := 20, dst := 0x1_0000, len := 65488 * (gens.length - 1) + 100, gens := gens, addrs := List.replicate gens.length 0x1000 }
def modelKey : Half := { key := zeros 32, attr := BitVec.ofNat 64 (2 + 2 ^ 8 + 2 ^ 13 + 2 ^ 16 + 2 ^ 22 + 15 * 2 ^ 26 + 2 ^ 32) }
def model1 (gens : List Nat) : State :=
  (ask0 0 0x210 [] { shelves := [(0, { desc := some { desc0 with pcs := [0, 1] }, load := some (load1 gens) })], chest := [(20, { cur := some modelKey })] })
/-- The header of page i with so many bytes (R483), and the page that holds m (65,488 bytes) with its tag as given. -/
def pageHead (i n : Nat) : Bytes := toLe 4 0x47504D4B ++ toLe 2 1 ++ zeros 2 ++ toLe 4 1 ++ toLe 4 i ++ toLe 4 n ++ zeros 12
def pageOf (i n : Nat) (tag : Bytes → Bytes) : Bytes :=
  let x := gcmSeal (zeros 32) (zeros 12) (pageHead i n) (zeros 65488);
  pageHead i n ++ (tag x.2 ++ x.1)

theorem slice_append (a b : Bytes) (off n : Nat) (h : off + n ≤ a.length) : slice (a ++ b) off n = slice a off n := by
  unfold slice
  rw [List.drop_append_of_le_length (by omega), List.take_append_of_le_length (by rw [List.length_drop]; omega)]

theorem pageOf_parts (i n : Nat) (tag : Bytes → Bytes) (ht : ∀ t : Bytes, t.length = 16 → (tag t).length = 16) :
    let x := gcmSeal (zeros 32) (zeros 12) (pageHead i n) (zeros 65488);
    (pageOf i n tag).length = 65536 ∧ (pageOf i n tag).take 0x20 = pageHead i n ∧ (pageOf i n tag).drop 48 = x.1 ∧ slice (pageOf i n tag) 0x20 16 = tag x.2 := by
  intro x
  obtain ⟨h1, h2⟩ := gcmSeal_lengths (zeros 32) (zeros 12) (pageHead i n) (zeros 65488) rfl
  have h3 := ht _ h2
  have hh : (pageHead i n).length = 32 := by simp [pageHead]
  have h1' : x.1.length = 65488 := h1.trans (zeros_length _)
  refine ⟨?_, ?_, ?_, ?_⟩
  · show (pageHead i n ++ (tag x.2 ++ x.1)).length = 65536
    rw [List.length_append, List.length_append, hh, h1']
    show 32 + ((tag x.2).length + 65488) = 65536
    rw [h3]
  · exact List.take_left' hh
  · show (pageHead i n ++ (tag x.2 ++ x.1)).drop 48 = x.1
    rw [← List.append_assoc]
    exact List.drop_left' (by rw [List.length_append, hh, h3])
  · show ((pageHead i n ++ (tag x.2 ++ x.1)).drop 0x20).take 16 = tag x.2
    rw [List.drop_left' hh]
    exact List.take_left' h3

theorem wit_ModelPages :
    (∀ gens ∈ [[1], [1, 1]], let s := model1 gens;
      let l := load1 gens;
      let n := l.plainLen 0;
      (s.shelf 0).load = some l ∧ 0 ∈ l.unread ∧ 0 < l.unread.headD 0 + 8 ∧ l.addrs.getD 0 0 % 4096 = 0 ∧ bindGen s l.slot (l.gens.getD 0 0) (modelUse 0) = .ok modelKey ∧
      (l.unread = [0] ↔ gens = [1]) ∧ (s.fn 0).mbx.busy = true ∧ fixedMbx s 0 = false ∧
      (∀ tag : Bytes → Bytes, (∀ t : Bytes, t.length = 16 → (tag t).length = 16) → (pageOf 0 n tag).length = 65536 ∧
        (field (pageOf 0 n tag) 0 4 = 0x47504D4B ∧ field (pageOf 0 n tag) 4 2 = 1 ∧ field (pageOf 0 n tag) 8 4 = l.gens.getD 0 0 ∧ field (pageOf 0 n tag) 0xC 4 = 0 ∧
          field (pageOf 0 n tag) 0x10 4 = n)) ∧
      (∃ tag : Bytes → Bytes, (∀ t : Bytes, t.length = 16 → (tag t).length = 16) ∧ gcmOpen modelKey.key (slice (pageOf 0 n tag) 0x14 12) ((pageOf 0 n tag).take 0x20)
        ((pageOf 0 n tag).drop 48) (slice (pageOf 0 n tag) 0x20 16) = some (zeros 65488)) ∧
      (∃ tag : Bytes → Bytes, (∀ t : Bytes, t.length = 16 → (tag t).length = 16) ∧ gcmOpen modelKey.key (slice (pageOf 0 n tag) 0x14 12) ((pageOf 0 n tag).take 0x20)
        ((pageOf 0 n tag).drop 48) (slice (pageOf 0 n tag) 0x20 16) = none)) ∧
    (field (pageOf 1 100 id) 0xC 4 ≠ 0 ∧ (pageOf 1 100 id).length = 65536) ∧ 1 ∉ (load1 [1]).unread := by
  have hf : ∀ n ∈ [100, 65488], ∀ tag : Bytes → Bytes, field (pageOf 0 n tag) 0 4 = 0x47504D4B ∧ field (pageOf 0 n tag) 4 2 = 1 ∧ field (pageOf 0 n tag) 8 4 = 1 ∧
      field (pageOf 0 n tag) 0xC 4 = 0 ∧ field (pageOf 0 n tag) 0x10 4 = n ∧ slice (pageOf 0 n tag) 0x14 12 = zeros 12 := by
    intro n hn tag
    have hh : (pageHead 0 n).length = 32 := by simp [pageHead]
    have hs : ∀ off m, off + m ≤ 32 → slice (pageOf 0 n tag) off m = slice (pageHead 0 n) off m := fun off m h => slice_append _ _ off m (by rw [hh]; exact h)
    unfold field
    rw [hs 0 4 (by decide), hs 4 2 (by decide), hs 8 4 (by decide), hs 0xC 4 (by decide), hs 0x10 4 (by decide), hs 0x14 12 (by decide)]
    simp only [List.mem_cons, List.not_mem_nil, or_false] at hn
    rcases hn with rfl | rfl <;> decide
  refine ⟨?_, ⟨?_, (pageOf_parts 1 100 id (fun t h => h)).1⟩, by decide⟩
  · intro gens hg
    have hn : (load1 gens).plainLen 0 ∈ [100, 65488] ∧ (load1 gens).gens.getD 0 0 = 1 := by
      simp only [List.mem_cons, List.not_mem_nil, or_false] at hg
      rcases hg with rfl | rfl <;> decide
    obtain ⟨hn, hgen⟩ := hn
    intro s l n
    refine ⟨rfl, ?_, ?_, ?_, ?_, ?_, rfl, rfl, ?_, ⟨id, fun t h => h, ?_⟩, ⟨List.map (· ^^^ 1), fun t h => by rw [List.length_map]; exact h, ?_⟩⟩
    case refine_6 =>
      intro tag ht
      obtain ⟨a, b, c, d, e, _⟩ := hf n hn tag
      exact ⟨(pageOf_parts 0 n tag ht).1, a, b, by rw [c, hgen], d, e⟩
    case refine_7 =>
      obtain ⟨_, h2, h3, h4⟩ := pageOf_parts 0 n id (fun t h => h)
      rw [h2, h3, h4, (hf n hn id).2.2.2.2.2]
      exact (gcmOpen_with _ _ _ _ _ rfl).trans (if_pos rfl)
    case refine_8 =>
      obtain ⟨_, h2, h3, h4⟩ := pageOf_parts 0 n (List.map (· ^^^ 1)) (fun t h => by rw [List.length_map]; exact h)
      rw [h2, h3, h4, (hf n hn _).2.2.2.2.2]
      refine (gcmOpen_with _ _ _ _ _ rfl).trans (if_neg ?_)
      obtain ⟨_, h5⟩ := gcmSeal_lengths (zeros 32) (zeros 12) (pageHead 0 n) (zeros 65488) rfl
      show ¬(gcmSeal (zeros 32) (zeros 12) (pageHead 0 n) (zeros 65488)).2 = List.map (· ^^^ 1) (gcmSeal (zeros 32) (zeros 12) (pageHead 0 n) (zeros 65488)).2
      revert h5
      generalize (gcmSeal (zeros 32) (zeros 12) (pageHead 0 n) (zeros 65488)).2 = t
      intro h5 h
      cases t with
      | nil => cases h5
      | cons b r => exact flip_ne b (List.cons.inj h).1
    all_goals
      simp only [List.mem_cons, List.not_mem_nil, or_false] at hg
      rcases hg with rfl | rfl <;> decide
  · show field (pageHead 1 100 ++ _) 0xC 4 ≠ 0
    rw [field, slice_append _ _ _ _ (by decide)]
    decide

/-- The physical function's device: fuses blown as given, slot 2 with the device's key; the last 64 bytes of the Cellar as a source. -/
def fw0 (debug : Bool) : State :=
  { idle0 with isl := { svnFuse := some 0, fwImage := zeros 8 ++ toLe 4 1, debug := debug }, chest := [(2, { cur := some (half1 6) })] }

theorem clean_fw (debug : Bool) (f op : Nat) (p : Bytes) (a n : Nat) : ∀ x ∈ linesOf a n, lineMark (ask0 f op p (fw0 debug)) x = none := by
  intro x _
  unfold lineMark fencedAt
  rw [show ((ask0 f op p (fw0 debug)).stack (pcOf x / 64)).fenced = 0 from rfl]
  simp [nbit, markOf, ask0, fw0, State.onMbx, State.onFn, idle0]

theorem wit_FirmwareCommands :
    (∀ op ∈ [0x301, 0x302, 0x303, 0x304, 0x305, 0x306, 0x307], ∀ debug, ∀ p ∈ [toLe 8 0 ++ toLe 8 64, toLe 8 0x40 ++ toLe 8 64, toLe 8 0x90_0000_0000 ++ toLe 8 64],
      Asks (ask0 0 op p (fw0 debug)) 0 op p) ∧
    (∀ debug op p, ∀ d ∈ [0, 0x40], ∀ n ∈ [64, 4787], d + n ≤ cellarEnd ∧ ∀ x ∈ linesOf d n, lineMark (ask0 0 op p (fw0 debug)) x = none) ∧ cellarEnd < 0x90_0000_0000 + 64 ∧
    ((fw0 false).isl.debug = false ∧ (fw0 false).fuseSvn < fwSvn (fw0 false).isl.fwImage ∧ (fw0 false).isl.fellBack = false ∧ (fw0 true).isl.debug = true) ∧
    (field (toLe 8 0 ++ toLe 8 64) 0 8 = 0 ∧ field (toLe 8 0x40 ++ toLe 8 64) 0 8 ≠ 0 ∧ field (toLe 8 0x40 ++ toLe 8 64) 8 8 ≤ 0x10000) ∧
    ((fw0 false).slot 2).cur = some (half1 6) := by
  refine ⟨?_, fun debug op p d hd n hn => ⟨?_, clean_fw debug 0 op p d n⟩, by decide, by decide, by decide, rfl⟩
  · intro op ho debug p hp
    have h1 : op < 65536 := by
      simp only [List.mem_cons, List.not_mem_nil, or_false] at ho
      rcases ho with rfl | rfl | rfl | rfl | rfl | rfl | rfl <;> decide
    have h2 : p.length ≤ 4080 := by
      simp only [List.mem_cons, List.not_mem_nil, or_false] at hp
      rcases hp with rfl | rfl | rfl <;> decide
    exact asks_pf h2 h1 rfl rfl rfl
  · simp only [List.mem_cons, List.not_mem_nil, or_false] at hd hn
    rcases hd with rfl | rfl <;> rcases hn with rfl | rfl <;> decide

/-- A shelf descriptor of bays 0 and 1 and pseudo-channel 0 for shelf i (R443), and one whose WEIGHT is out of range. -/
def shelf1152 (i weight : Byte) : Bytes := toLe 4 0x464C484B ++ toLe 2 1 ++ [i, 0, 1, weight, 0, 2] ++ zeros 52 ++ toLe 2 1 ++ zeros 62 ++ zeros 1024
/-- A device whose shelf i is defined or is locked by its TDI. -/
def tenant0 (l : Tab Shelf) (st : TdiState) : State := { shelves := l, dev := { phys := [0, 1] }, host := { tdis := [(0, { state := st })] } }

theorem wit_ShelfCommands :
    (let p := shelf1152 0 2;
      Asks (ask0 0 0x401 p (tenant0 [] .unlocked)) 0 0x401 p ∧ shelfFields p = true ∧ field p 6 1 = 0 ∧ tdiHolds (tenant0 [] .unlocked) 0 = false ∧
      (parseShelf p).flags.testBit 0 = false ∧ ((tenant0 [] .unlocked).shelf 0).desc = none ∧ shelfOk (tenant0 [] .unlocked) 0 (parseShelf p) = true) ∧
    (let s := tenant0 [(0, { desc := some desc0 })] .unlocked;
      Asks (ask0 0 0x401 (shelf1152 0 2) s) 0 0x401 (shelf1152 0 2) ∧ tdiHolds s 0 = false ∧ (s.shelf 0).desc ≠ none) ∧
    (Asks (ask0 0 0x401 (shelf1152 0 1) (tenant0 [] .unlocked)) 0 0x401 (shelf1152 0 1) ∧ shelfFields (shelf1152 0 1) = false) ∧
    (∀ op ∈ [0x402, 0x403, 0x404], ∀ st ∈ [TdiState.unlocked, .locked], let s := tenant0 [(0, { desc := some desc0 })] st;
      Asks (ask0 0 op (zeros 6) s) 0 op (zeros 6) ∧ field (zeros 6) 0 1 < 8 ∧ (s.shelf (field (zeros 6) 0 1)).desc = some desc0 ∧
      tdiHolds s (field (zeros 6) 0 1) = (st == .locked) ∧ (s.shelf 0).round.active = false ∧ (s.shelf 0).prog.service = false) ∧
    (Asks (ask0 0 0x402 [8] (tenant0 [] .unlocked)) 0 0x402 [8] ∧ 8 ≤ field [8] 0 1) ∧
    (let s := tenant0 [(0, { desc := some desc0 })] .unlocked;
      quietOk s (otherShelves s 0) (desc0.withQuiet false 0 0) = true ∧ quietOk s (otherShelves s 0) (desc0.withQuiet true 650 30) = true ∧
      quietOk s (otherShelves s 0) (desc0.withQuiet true 650 29) = false) := by
  refine ⟨⟨asks_pf ?_ (by decide) rfl rfl rfl, ?_, ?_, ?_, ?_, rfl, ?_⟩, ⟨asks_pf ?_ (by decide) rfl rfl rfl, ?_, ?_⟩, ⟨asks_pf ?_ (by decide) rfl rfl rfl, ?_⟩, ?_,
    ⟨asks_pf ?_ (by decide) rfl rfl rfl, ?_⟩, ?_⟩
  case refine_12 =>
    intro op ho st hs
    have h1 : op < 65536 := by
      simp only [List.mem_cons, List.not_mem_nil, or_false] at ho
      rcases ho with rfl | rfl | rfl <;> decide
    refine ⟨asks_pf (by decide) h1 rfl rfl rfl, by decide, rfl, ?_, rfl, rfl⟩
    simp only [List.mem_cons, List.not_mem_nil, or_false] at hs
    rcases hs with rfl | rfl <;> decide
  case refine_9 => show some desc0 ≠ none; simp
  all_goals decide +kernel

/-! ### The host port -/

theorem wit_SpdmAndMeasurements : idle0.dev.halted = false ∧ ({ dev := { halted := true } } : State).dev.halted = true := by decide

/-- A device with a secured session or none, keys of stream 3 programmed and in use, and shelf 0 confidential with its TDI in a state. -/
def ide0 (session : Bool) (st : TdiState) : State :=
  { shelves := [(0, { desc := some { desc0 with flags := 1 } })]
    host := { session := session, ide := [(3, { keys := [(0, [1])], going := [0, 1, 2, 3, 4, 5] })], tdis := [(0, { state := st, stream := 3 })]
              fns := [(1, { memSpace := true, master := true })] } }

theorem wit_IdeKeys :
    (ide0 true .run).host.session = true ∧ (ide0 false .run).host.session = false ∧
    (tmem ((ide0 true .run).ide (3 : BitVec 4).toNat).keys ((0 : BitVec 1).toNat * 6 + (0 : BitVec 2).toNat * 2 + (if false then 1 else 0)) = true ∧
      tmem ((ide0 true .run).ide (4 : BitVec 4).toNat).keys 0 = false) ∧ ((ide0 true .run).tdi 0).isLocked = true ∧ ((ide0 true .run).tdi 0).stream = (3 : BitVec 4).toNat := by
  decide

theorem wit_TdiRequests :
    (lockOk (ide0 true .unlocked) 0 (3 : BitVec 3).toNat = true ∧ lockOk (ide0 true .unlocked) 0 (2 : BitVec 3).toNat = false) ∧
    (∀ st ∈ [TdiState.unlocked, .locked, .run], (ide0 true st).host.session = true ∧ ((ide0 true st).tdi 0).state = st ∧ ((ide0 true st).shelf 0).desc = some { desc0 with flags := 1 } ∧
      ((ide0 true st).tdi 0).isLocked = (st != .unlocked)) ∧ (ide0 false .locked).host.session = false := by decide

theorem wit_FunctionResets :
    ((1 : BitVec 4).toNat ≠ 0 ∧ fnExists vf0 (1 : BitVec 4).toNat = true ∧ ((completeRequest 1 vf0).shelf 0).desc = some desc0) ∧ fnExists idle0 (1 : BitVec 4).toNat = false ∧
    ((completeRequest 1 (ide0 true .run)).tdi 0).isLocked = true ∧ ((ide0 true .run).tdi 0).isLocked = true ∧ (∀ k, k < 8 → (idle0.tdi k).isLocked = false) ∧
    idle0.dev.recs = [] ∧ tmem ({ count := 1, kind := .powerOn } : JRec).entries 11 = false ∧
    tmem ({ count := 1, kind := .powerOn, entries := [(11, {})] } : JRec).entries 11 = true := by decide

theorem wit_ConfigWrites :
    (fnExists idle0 (0 : BitVec 4).toNat = true ∧ (0 : BitVec 4).toNat = 0) ∧ (fnExists vf0 (1 : BitVec 4).toNat = true ∧ (vf0.tdi 0).isLocked = false) ∧
    (let s := { ide0 true .run with host := { (ide0 true .run).host with vfEnable := true, numVfs := 1 } };
      fnExists s (1 : BitVec 4).toNat = true ∧ cfgLocked s (1 : BitVec 4).toNat (.busMaster false) = true ∧ cfgLocked s (1 : BitVec 4).toNat (.busMaster true) = false) ∧
    fnExists idle0 (1 : BitVec 4).toNat = false ∧ (({ msixEn := true } : Fn).msixEn = true ∧ ({} : Fn).msixEn = false) := by decide

/-- A powered device with a link, two virtual functions, and shelf 0 as given. -/
def linked0 (h : Shelf) (tdis : Tab Tdi) : State :=
  { shelves := [(0, h)], dev := { pwrgd := true, perst := true }, host := { vfEnable := true, numVfs := 2, rate := 6, tdis := tdis } }
def linkShelf (c : Tab Word) : Shelf := { desc := some desc0, cfg := c }

theorem wit_RegisterAccesses :
    (let s := linked0 (linkShelf []) [];
      (gate s 0 0 none = .pass ∧ (gate s 1 (0x100000 + 0x1930) none = .pass ∧ 0 < 1 ∧ 1 ≤ 8)) ∧
      (doorbellAt 0 0 = none ∧ lanesOf 0 4 = some .low ∧ (fnReg s 0 0).isSome = true) ∧ lanesOf 0 2 = none ∧
      (gate s 0 0xFFFF8 none = .pass ∧ doorbellAt 0 0xFFFF8 = none ∧ lanesOf 0xFFFF8 8 ≠ none ∧ (fnReg s 0 0xFFFF8).isNone = true)) ∧
    (gate (linked0 (linkShelf []) [(0, { state := .run, stream := 3 })]) 1 0x101930 none = .nonTee ∧ gate idle0 0 0 none = .silent) ∧
    (∀ c, let s := linked0 (linkShelf [(0x1930, c)]) [];
      (0 : BitVec 3).toNat + 1 = 1 ∧ gate s 1 (0x2000000 + 0 * 0x10000 + (2 : BitVec 8).toNat * 8) none = .pass ∧ (s.shelf 0).reg 0x1930 = c) ∧
    ((1 : Word).getLsbD 0 = true ∧ (0 : Word).getLsbD 0 = false ∧
      vstat (linked0 (linkShelf [(0x1930, 1)]) []) 0 ((1 : Word).toNat / 2 ^ 11 % 2 ^ 37 * 2048 + (2 : BitVec 8).toNat * 8) 8 = .ok) := by
  refine ⟨⟨⟨?_, ?_, ?_, ?_⟩, ⟨?_, ?_, ?_⟩, ?_, ?_, ?_, ?_, ?_⟩, ⟨?_, ?_⟩, fun c => ⟨rfl, rfl, rfl⟩, ?_⟩
  all_goals first | rfl | decide +kernel

theorem wit_Bar2Accesses :
    (let s := linked0 (linkShelf []) [];
      (linked s = true ∧ fnExists s 1 = true ∧ (s.fn 1).d3hot = false ∧ globalOnly s = false ∧ fnServed s 1 = true ∧ teeCheck s 1 none = .pass) ∧
      apertureOf s 1 0x40 (8 : BitVec 13).toNat = some [(0x40, 8, some (0, 0x40))] ∧ apertureBlock s false [(0x40, 8, some (0, 0x40))] = none ∧
      apertureBlock s true [(0x40, 8, some (0, 0x40))] = none ∧ lineMark s (0x40 / 64 * 64) = none ∧ lineMark s 0x40 = none ∧
      apertureOf s 1 pcSize 8 = none) ∧
    (let s := { linked0 (linkShelf []) [] with marks := [(1, .poisoned)] };
      apertureOf s 1 0x40 8 = some [(0x40, 8, some (0, 0x40))] ∧ lineMark s (0x40 / 64 * 64) = some .poisoned ∧ apertureBlock s false [(0x40, 8, some (0, 0x40))] = none) ∧
    (let s := { linked0 (linkShelf []) [] with stackTab := [(0, { retired := 1 })] };
      apertureOf s 1 0x40 8 = some [(0x40, 8, some (0, 0x40))] ∧ retiredAt s 0x40 = true) ∧
    (let s := linked0 { linkShelf [(0xC10, 0), (0xC18, reg64 0 8)] with round := { active := true, begun := true, phase := .unmask, desc := { mode := 3 } } } [];
      apertureOf s 1 0x40 8 = some [(0x40, 8, some (0, 0x40))] ∧ retiredAt s 0x40 = false ∧ closedToHost s true 0 0x40 8 = true) ∧ linked idle0 = false ∧
    ((({ idle0 with host := { fns := [(1, { d3hot := true })] } } : State).fn 1).d3hot = true) := by
  refine ⟨⟨?_, ?_, ?_, ?_, ?_, ?_, ?_⟩, ⟨?_, ?_, ?_⟩, ⟨?_, ?_⟩, ⟨?_, ?_, ?_⟩, ?_, ?_⟩
  case refine_3 => rfl
  case refine_4 => rfl
  case refine_10 => rfl
  all_goals decide +kernel

/-! ### Power, upkeep and the management port -/

/-- Physical bay 3 is logical bay 0; its clock and the group point are as given. -/
def clk0 (x : BayClk) (g : Nat) : State := { idle0 with dev := { phys := 3 :: List.replicate 15 17 }, pow := { group := g, bays := [(3, x)] } }

theorem wit_BayClocks :
    (∀ x g, 3 ∈ activeBays (clk0 x g) ∧ quietShelf (clk0 x g) 3 = none ∧ runPoint (clk0 x g) g = g ∧ (clk0 x g).clkOf (3 : BitVec 5).toNat = x ∧ (clk0 x g).pow.edpOn = false) ∧
    (({ mhz := 800 } : BayClk).stepping = false ∧ ({ mhz := 800 } : BayClk).stretched = false ∧ ({ mhz := 800 } : BayClk).droopAt = none ∧ 800 < 600 + 100 * 5 ∧ 600 + 100 * 0 < 800) ∧
    (({ mhz := 800, stretched := true } : BayClk).stretched = true ∧ ({ mhz := 800, stretched := true } : BayClk).stepping = false) ∧ ({ stepping := true } : BayClk).stepping = true ∧
    4 ∉ activeBays (clk0 {} 0) ∧ ({ pow := { edpOn := true } } : State).pow.edpOn = true := by
  refine ⟨fun x g => ⟨?_, ?_, ?_, rfl, rfl⟩, by decide, by decide, rfl, by decide, rfl⟩
  · show 3 ∈ activeBays (clk0 {} 0); decide
  · show quietShelf (clk0 {} 0) 3 = none; decide
  · show (if paceEn (clk0 {} 0) && paceFav (clk0 {} 0) then _ else g) = g
    rw [if_neg (by decide)]

theorem wit_PowerLimits :
    idle0.peakW < 1401 ∧ (({ pow := { edpOn := true } } : State).pow.edpOn = true ∧ 100 * 1329 < 95 * ({ pow := { edpOn := true } } : State).peakW) ∧
    (1330 ≤ idle0.peakW ∧ 95 * idle0.peakW ≤ 100 * 1330) ∧
    (logicalOf (clk0 {} 0) (3 : BitVec 5).toNat = some 0 ∧ ((clk0 {} 0).dreg 0xC00018 0x3201).getLsbD 0 = true ∧ latticeBusy (clk0 {} 0) 0 = false) ∧
    (({ cfg := [(0xC00018, 0x3200)] } : State).dreg 0xC00018 0x3201).getLsbD 0 = false ∧ (((clk0 { latGated := true } 0).clkOf 3).latGated = true ∧ ((clk0 {} 0).clkOf 3).latGated = false) ∧
    (300 ≤ (300 : Word).toNat % 2 ^ 16 ∧ (300 : Word).toNat % 2 ^ 16 ≤ idle0.capTop ∧ (299 : Word).toNat % 2 ^ 16 < 300 ∧ idle0.capTop < (1051 : Word).toNat % 2 ^ 16) := by decide

theorem wit_PowerPrediction :
    (let s : State := { idle0 with pow := { tj := 101, ceiling := 4 } };
      s.throttle < s.pow.tj ∧ s.pow.thermal = false ∧ 1 ≤ min s.pow.ceiling (thermalTop s)) ∧ idle0.pow.tj ≤ idle0.throttle - 3 ∧
    (let s : State := { shelves := [(0, { desc := some { desc0 with flags := 2, quietMhz := 700 }, counts := { quietMhz := 600 } })] };
      (s.shelf 0).desc = some { desc0 with flags := 2, quietMhz := 700 } ∧ { desc0 with flags := 2, quietMhz := 700 }.flags.testBit 1 = true ∧ (s.shelf 0).counts.quietMhz < 700 ∧ s.pow.thermal = false) ∧
    (idle0.shelf 1).desc = none := by decide

/-- A member of a pace group, itself its only member (R513), and a pace packet of a SEQ and an EFFECTIVE time. -/
def pace0 (x : Member) (cfg : Word) : State :=
  net0 1 id (fun s => { s with cfg := (0xC0_0400, cfg) :: (0xC0_0500, 0x1_0000) :: s.cfg, pow := { members := [(0, x)], raise := some (4, 9) } })
def pacePkt (seq eff : Nat) : Bytes := [0x13, 1] ++ toBe 2 5 ++ zeros 4 ++ toBe 4 seq ++ [6, 0, 0, 0] ++ zeros 16 ++ toBe 8 eff

theorem wit_PaceGroups :
    (paceEn (pace0 {} 0x00C8_0000_0014_0521) = true ∧ (pace0 {} 0x00C8_0000_0014_0521).tpEn = true ∧ paceEn (pace0 {} 0x00C8_0000_0014_0520) = false) ∧
    ((pace0 {} 0).pow.raise = some (4, 9) ∧ idle0.pow.raise = none) ∧
    (((pace0 { next := [(3, 7)] } 0).member (0 : BitVec 6).toNat).next = [(3, 7)] ∧ ((pace0 {} 0).member 0).next = []) ∧
    (((pace0 { live := true } 0).member 0).live = true ∧ (memberReg (pace0 {} 0) 0).getLsbD 16 = true ∧ ((pace0 {} 0).member 0).live = false) ∧
    (∀ eff ∈ [0, 10], ∃ q, basdoOf (pace0 { seq := some 7 } 0x00C8_0000_0014_0521) 0 true (frame0 (pacePkt 8 eff)) = some q ∧ field q.bytes 0 1 = 0x13 ∧
      paceFrom (pace0 { seq := some 7 } 0x00C8_0000_0014_0521) q.bytes = some 0 ∧ (beNat (slice q.bytes 0x20 8) ≤ 0 ↔ eff = 0)) ∧
    (∃ q, basdoOf (pace0 { seq := some 7 } 0x00C8_0000_0014_0521) 0 true (frame0 (pacePkt 7 0)) = some q ∧ field q.bytes 0 1 = 0x13 ∧
      paceFrom (pace0 { seq := some 7 } 0x00C8_0000_0014_0521) q.bytes = none) ∧
    (pace0 { seq := some 7 } 0x00C8_0000_0014_0521).epoch = 0 ∧ basdoOf idle0 0 true [] = none := by
  refine ⟨by decide, ⟨rfl, rfl⟩, ⟨rfl, rfl⟩, ⟨rfl, by decide, rfl⟩, ?_, ?_, by decide, by rfl⟩
  · intro eff he
    refine got (f := fun q => decide (field q.bytes 0 1 = 0x13 ∧ paceFrom (pace0 { seq := some 7 } 0x00C8_0000_0014_0521) q.bytes = some 0 ∧
      (beNat (slice q.bytes 0x20 8) ≤ 0 ↔ eff = 0))) (fun q h => of_decide_eq_true h) ?_
    simp only [List.mem_cons, List.not_mem_nil, or_false] at he
    rcases he with rfl | rfl <;> decide +kernel
  · exact got (f := fun q => decide (field q.bytes 0 1 = 0x13 ∧ paceFrom (pace0 { seq := some 7 } 0x00C8_0000_0014_0521) q.bytes = none))
      (fun q h => of_decide_eq_true h) (by decide +kernel)

theorem wit_CellarUpkeep :
    (∀ l, let s : State := { idle0 with marks := l };
      1 * 64 / stackSize = 0 ∧ (0 : Nat) < 8 ∧ scrubOn s 0 = true ∧ (s.stack 0).retired.testBit (pcOf (1 * 64) % 64) = false ∧ fencedAt s (1 * 64) = false ∧ lastPatrolled s 0 1 = false) ∧
    (markOf idle0 64 = none ∧ markOf { idle0 with marks := [(1, .corrected)] } 64 = some .corrected ∧ markOf { idle0 with marks := [(1, .uncorrectable)] } 64 = some .uncorrectable) ∧
    (let line := (stackSize - 0x4000 + 63 * 256 + 192) / 64;
      line * 64 / stackSize = 0 ∧ (idle0.stack 0).retired.testBit (pcOf (line * 64) % 64) = false ∧ fencedAt idle0 (line * 64) = false ∧ lastPatrolled idle0 0 line = true ∧
      markOf idle0 (line * 64) = none) ∧ 8 ≤ 8 * stackSize / 64 * 64 / stackSize ∧
    ((idle0.stack 0).retired &&& 3 * 4 ^ (0 : BitVec 5).toNat ≠ 3 * 4 ^ (0 : BitVec 5).toNat ∧ (idle0.stack 0).fenced.testBit 0 = false ∧ pcOwner idle0 (0 * 64 + 0) = some 0) ∧
    (({ stackTab := [(0, { retired := 3 })] } : State).stack 0).retired &&& 3 * 4 ^ (0 : BitVec 5).toNat = 3 * 4 ^ (0 : BitVec 5).toNat := by
  refine ⟨fun l => ⟨by decide, by decide, ?_, ?_, ?_, ?_⟩, by decide +kernel, ?_, by decide, by decide +kernel, by decide⟩
  · show scrubOn idle0 0 = true; decide
  · show (idle0.stack 0).retired.testBit _ = false; decide
  · show fencedAt idle0 64 = false; decide
  · show lastPatrolled idle0 0 1 = false; decide +kernel
  · refine ⟨?_, ?_, ?_, ?_, ?_⟩ <;> decide +kernel

theorem wit_HealthHistory :
    ((16 : BitVec 7).toNat < 17 ∧ 17 ≤ (17 : BitVec 7).toNat) ∧
    ((67 : BitVec 7).toNat < 68 ∧ laneUp { idle0 with cfg := [(0x40_F000, 3)], ports := [(15, { up := 2, laneOk := 2, spareHere := true, spareLane := 1 })] } (67 : BitVec 7).toNat = true) ∧
    (let s : State := { idle0 with health := { today := [(256, [1, 3])] } };
      s.health.hist = [] ∧ s.health.today = [(256, [1, 3])] ∧ ([1, 3] : List Rat) ≠ [] ∧ 256 / 256 ≠ 5 ∧ 256 / 256 ≠ 6) ∧
    (∀ k, k < 8 → (idle0.stack k).errs = []) ∧
    (let s : State := { idle0 with cfg := [(0xE0_0018, 0)], stackTab := [(0, { errs := [{ at_ := 0, line := 0, bad := false }] })] };
      s.hlthCfg.toNat / 2 ^ 16 % 2 ^ 16 <
        ((s.stack 0).errs.filter (fun e => !e.bad && decide (s.clk < e.at_ + 3600000000000) && pcOf (e.line * 64) == 0 * 64 + 0)).length) := by decide

theorem wit_ManagementPort :
    ((on0 true).dev.pwrgd = true ∧ ({} : State).dev.pwrgd = false) ∧ [0, 0].length = 2 ∧
    (let b := toLe 2 0x28 ++ toLe 8 400;
      b.length = 10 ∧ field b 0 2 = 0x28 ∧ 300 ≤ field b 2 2 ∧ field b 2 2 ≤ (on0 true).capTop) ∧ ([0, 0, 0].length ≠ 2 ∧ [0, 0, 0].length ≠ 10) ∧
    ((on0 true).i3c.off = 0 ∧ 0x50 ≤ ({ i3c := { off := 0x50 } } : State).i3c.off) := by decide

/-! ### The machine as a whole -/

theorem wit_StepRunsCommand : ({ pending := [.freeze 0] } : State).pending = [.freeze 0] ∧ ({} : State).pending = [] := by decide

theorem wit_MemoryForm : memWf State.reset.mem = true ∧ ∃ t, step State.reset = .next t := ⟨by decide, ⟨_, rfl⟩⟩

end Sys2Proof.Tests
end

section
/-!
The sequencer's branch faults (R309, R317, R318) and descriptor registers (R308): O7 and O8.

The layers, in order: what a handled fault leaves, when a fetch runs past the text, the descriptor fields in the terms of R308, the words whose
field number names no field, and the two obligations.
-/
namespace Sys2Proof.Machine

/-! ### Handled faults (R318) -/

/-- The handler's address, EVEC[16:3] × 8, by division (R318). -/
theorem bits_handler (w : Word) : bits w 16 3 = w.toNat / 8 % 2 ^ 14 := by
  simp [bits, Nat.shiftRight_eq_div_pow]

/-- What FETCH leaves with a handler enabled: sequencer q is at its handler with EADDR the address and EPC the PC at the fault, and nothing else
has changed (R309, R318). -/
def FetchFaulted (q : Nat) (addr : Word) (s t : State) : Prop :=
  OnlySeq q s t ∧ t.seq q = { s.seq q with
    epc := BitVec.ofNat 64 (s.seq q).pc, ecause := 2, eaddr := addr, wait := .none, hmode := true, run := .running
    pc := (s.seq q).evec.toNat / 8 % 2 ^ 14 * 8 }

/-- Raising FETCH with a handler enabled meets FetchFaulted. -/
theorem fetchFaulted_raise {q : Nat} {s : State} (addr : Word) (hm : (s.seq q).hmode = false) (he : (s.seq q).evec.getLsbD 0 = true) :
    FetchFaulted q addr s (raise q cFetch addr 0 s) := by
  rw [raise_handled q cFetch addr 0 s hm he]
  refine ⟨onlySeq_onSeq _ _ _, ?_⟩
  rw [State.onSeq_seq_same, bits_handler]
  rfl

/-- A fault that concerns no address, with a handler enabled: the sequencer goes to the handler, EADDR and the free values apart nothing else
changes (R300, R318). -/
theorem raiseBare_handled {q : Nat} {s : State} (cause trap : Nat) (hm : (s.seq q).hmode = false) (he : (s.seq q).evec.getLsbD 0 = true) :
    let t := raiseBare q cause trap s
    t = { s with seqs := t.seqs, draw := t.draw } ∧ (∀ r, r ≠ q → t.seq r = s.seq r) ∧
    t.seq q = { s.seq q with
      epc := BitVec.ofNat 64 (s.seq q).pc, ecause := ecauseWord cause trap, eaddr := (t.seq q).eaddr, wait := .none, hmode := true, run := .running
      pc := (s.seq q).evec.toNat / 8 % 2 ^ 14 * 8 } := by
  have hseq : ∀ r, (draw 64 s).2.seq r = s.seq r := fun _ => rfl
  have hraise : raiseBare q cause trap s = _ :=
    raise_handled q cause (BitVec.ofNat 64 (draw 64 s).1) trap (draw 64 s).2 hm he
  intro t
  rw [show t = _ from hraise]
  refine ⟨rfl, fun r hr => (State.onSeq_seq_other _ _ _ _ hr).trans (hseq r), ?_⟩
  rw [State.onSeq_seq_same, bits_handler, hseq]

/-! ### Branches and the end of the text (R309) -/

/-- A branch whose predicate holds, to no multiple of 8 below TEXT_LEN, raises FETCH before it writes anything. -/
theorem fetchFaulted_kis_branch {q : Nat} {w : Word} {p : Pred} {s : State} (target : State → Word) (f : Seq → Seq) (hr : Runs s q w p)
    (ht : ¬((target s).toNat % 8 = 0 ∧ (target s).toNat < textLen s q)) (hm : (s.seq q).hmode = false) (he : (s.seq q).evec.getLsbD 0 = true) :
    FetchFaulted q (target s) s (kis q w p (fun s => branch q (target s) f s) s) := by
  rw [kis_runs hr, branch_illegal q _ f s ht]
  exact fetchFaulted_raise _ hm he

/-- A PC at or above TEXT_LEN is past the text. -/
theorem fetch_past {s : State} {q : Nat} (h : textLen s q ≤ (s.seq q).pc) : fetch s q = .past := by
  unfold fetch
  unfold textLen at h
  cases hk : shelfOf s (q / 4) with
  | none => rfl
  | some k =>
    rw [hk] at h
    have hend : (s.shelf k).prog.text[(s.seq q).pc / 8]? = none := List.getElem?_eq_none (by dsimp only at h; omega)
    simp only [hend]

/-- Settles O7: each branch form is fetchFaulted_kis_branch at its target, and running past the text raises the same fault at the PC. -/
theorem branchFaults : Obligations.BranchFaults := by
  intro q p a imm s x rel legal faults hm he
  refine ⟨fun hr ht => ?_, fun hr ht => ?_, fun hr ht => ?_, fun hr ht => ?_, fun hrun hpast => ?_⟩
  · exact ⟨_, rfl, fetchFaulted_kis_branch (fun s => relTarget s q imm) _ hr ht hm he⟩
  · exact ⟨_, rfl, fetchFaulted_kis_branch (fun s => relTarget s q imm) _ hr ht hm he⟩
  · exact ⟨_, rfl, fetchFaulted_kis_branch (fun s => (s.seq q).gr a) _ hr ht hm he⟩
  · exact ⟨_, rfl, fetchFaulted_kis_branch (fun s => (s.seq q).gr a) _ hr ht hm he⟩
  · refine ⟨_, rfl, ?_⟩
    rw [fetch_past hpast, if_pos (beq_iff_eq.mpr hrun)]
    exact fetchFaulted_raise _ hm he

/-! ### Descriptor fields (R308) -/

/-- The field numbers that R308 lists. -/
theorem fieldNumber_cases : ∀ f : BitVec 4, f.toNat ≤ 8 →
    f = 0 ∨ f = 1 ∨ f = 2 ∨ f = 3 ∨ f = 4 ∨ f = 5 ∨ f = 6 ∨ f = 7 ∨ f = 8 := by decide

/-- DSET field by field: the field of that number keeps the low bits that it holds, the others stay. -/
theorem VDesc.set_eq (v : VDesc) (w : Word) {f : BitVec 4} (hf : f.toNat ≤ 8) :
    v.set f.toNat w =
      { base := if f = 0 then BitVec.ofNat 48 w.toNat else v.base
        len := if f = 1 then BitVec.ofNat 32 w.toNat else v.len
        rows := if f = 2 then BitVec.ofNat 32 w.toNat else v.rows
        stride := if f = 3 then BitVec.ofNat 32 w.toNat else v.stride
        off := if f = 4 then BitVec.ofNat 32 w.toNat else v.off
        etype := if f = 5 then BitVec.ofNat 8 w.toNat else v.etype
        scaleE := if f = 6 then BitVec.ofNat 8 w.toNat else v.scaleE
        ring := if f = 7 then BitVec.ofNat 6 w.toNat else v.ring
        rsrc := if f = 8 then w.getLsbD 0 else v.rsrc } := by
  simp only [BitVec.ofNat_toNat]
  rcases fieldNumber_cases f hf with rfl | rfl | rfl | rfl | rfl | rfl | rfl | rfl | rfl <;> rfl

/-- The low n bits of gA × STRIDE, the product of the two signed numbers. -/
theorem setWidth_mul_stride (w : Word) (stride : BitVec 32) {n : Nat} (hn : n ≤ 64) :
    (w * stride.signExtend 64).setWidth n = BitVec.ofInt n (w.toInt * stride.toInt) := by
  have low : ∀ y : Word, BitVec.ofInt n y.toInt = y.setWidth n := fun y => BitVec.signExtend_eq_setWidth_of_le y hn
  have hstride : (stride.signExtend 64).toInt = stride.toInt := BitVec.toInt_signExtend_of_le (by decide)
  rw [BitVec.setWidth_mul _ _ hn, BitVec.ofInt_mul, ← hstride, low, low]

/-- DADV in integers: OFF of a ring source, BASE of any other steps by gA × STRIDE, in the field's width. -/
theorem VDesc.adv_eq (v : VDesc) (w : Word) :
    v.adv w = { v with
      base := if v.rsrc then v.base else BitVec.ofInt 48 (v.base.toNat + w.toInt * v.stride.toInt)
      off := if v.rsrc then BitVec.ofInt 32 (v.off.toNat + w.toInt * v.stride.toInt) else v.off } := by
  unfold VDesc.adv
  cases hs : v.rsrc <;>
    simp [setWidth_mul_stride, BitVec.ofInt_add, BitVec.ofInt_natCast]

/-! ### Field numbers above 8 (R308) -/

theorem bits_wordI_major (major minor : Nat) (p : Pred) (d a : BitVec 5) (imm : BitVec 32) :
    bits (wordI major minor p d a imm) 63 56 = major % 2 ^ 8 := by
  have h : (wordI major minor p d a imm).extractLsb' 56 8 = BitVec.ofNat 8 major := by
    iterate 6 refine (BitVec.extractLsb'_append_eq_of_le (by decide)).trans ?_
    exact BitVec.extractLsb'_append_eq_left
  exact congrArg BitVec.toNat h

theorem bits_wordI_minor (major minor : Nat) (p : Pred) (d a : BitVec 5) (imm : BitVec 32) :
    bits (wordI major minor p d a imm) 55 48 = minor % 2 ^ 8 := by
  have h : (wordI major minor p d a imm).extractLsb' 48 8 = BitVec.ofNat 8 minor := by
    iterate 6 refine (BitVec.extractLsb'_append_eq_of_le (by decide)).trans ?_
    exact BitVec.extractLsb'_append_eq_right
  exact congrArg BitVec.toNat h

theorem bits_wordI_imm (major minor : Nat) (p : Pred) (d a : BitVec 5) (imm : BitVec 32) :
    bits (wordI major minor p d a imm) 31 0 = imm.toNat := by
  have h : (wordI major minor p d a imm).extractLsb' 0 32 = imm := BitVec.extractLsb'_append_eq_right
  exact congrArg BitVec.toNat h

/-- An IMM with a bit that R303 wants zero is an encoding error. -/
theorem wordOk_wordI_of_imm_gt {major minor m : Nat} {p : Pred} {d a : BitVec 5} {imm : BitVec 32} {ud ua ub : Use}
    (hs : shape (major % 2 ^ 8) (minor % 2 ^ 8) = some (true, ud, ua, ub, m)) (hm : m < imm.toNat) :
    wordOk (wordI major minor p d a imm) = false := by
  have hall : m ≠ 2 ^ 32 - 1 := by omega
  unfold wordOk
  rw [bits_wordI_major, bits_wordI_minor, hs]
  simp only [bits_wordI_imm, if_true, if_neg hall, decide_eq_false (Nat.not_le.mpr hm), Bool.and_false]

/-- A running sequencer that fetches a word that is no defined instruction raises ILLEGAL (R317). -/
theorem execInstructionFetchFault_undefined {q : Nat} {s : State} {w : Word} (hrun : (s.seq q).run = .running) (hfix : fixedAt s q = false)
    (hw : fetch s q = .word w) (hbad : wordOk w = false) : execInstructionFetchFault q s = .next (raiseBare q cIllegal 0 s) := by
  simp [execInstructionFetchFault, hrun, hw, hbad, fetched_sound hfix]

/-- Settles O8: the four instructions retire with one register write each, whose value the lemmas on the fields give, and a field number above 8
is an encoding error of the word. -/
theorem descriptorRegisters : Obligations.DescriptorRegisters := by
  intro q p d a f s x
  refine ⟨fun hr hf => ?_, fun hr hf => ?_, fun hr => ?_, fun hr => ?_, fun hf hm he hrun hfix hfetch => ?_⟩
  · refine ⟨_, congrArg Host.Outcome.next (if_pos hf), ?_⟩
    rw [kis_runs hr]
    convert writesG_retireWith q d (fun x => (x.dr a).get f.toNat) s using 1
    simp only [BitVec.ofNat_toNat]
    rcases fieldNumber_cases f hf with rfl | rfl | rfl | rfl | rfl | rfl | rfl | rfl | rfl
    on_goal 9 => exact (apply_ite (BitVec.ofNat 64) _ _ _).symm
    all_goals rfl
  · refine ⟨_, ⟨_, congrArg Host.Outcome.next (if_pos hf), ?_⟩, VDesc.set_eq _ _ hf⟩
    rw [kis_runs hr]
    exact writesD_retireWith q d (fun x => (x.dr d).set f.toNat (x.gr a)) s
  · refine ⟨_, ⟨_, rfl, ?_⟩, VDesc.adv_eq _ _⟩
    rw [kis_runs hr]
    exact writesD_retireWith q d (fun x => (x.dr d).adv (x.gr a)) s
  · refine ⟨_, rfl, ?_⟩
    rw [kis_runs hr]
    exact writesD_retireWith q d (fun x => x.dr a) s
  · have hbig : 8 < (f.zeroExtend 32).toNat := by rw [BitVec.toNat_setWidth_of_le (by decide)]; exact hf
    obtain ⟨w, hw, hbad⟩ : ∃ w, fetch s q = .word w ∧ wordOk w = false := by
      rcases hfetch with hw | hw
      · exact ⟨_, hw, wordOk_wordI_of_imm_gt rfl hbig⟩
      · exact ⟨_, hw, wordOk_wordI_of_imm_gt rfl hbig⟩
    refine ⟨_, execInstructionFetchFault_undefined hrun hfix hw hbad, ?_⟩
    obtain ⟨hstate, hother, hseq⟩ := raiseBare_handled cIllegal 0 hm he
    exact ⟨hstate, hother, hseq.trans (by rw [← hrun]; rfl)⟩

end Sys2Proof.Machine
end

section
/-!
The context switch (R449): O53 fails in the clause that gives memory after a switch that saves the current context.

The layers, in order: the parts and lengths of a context image, what a write of whole lines and of part of a line leaves, zeroising, the switch
that saves, and the state that refutes the obligation.
-/
namespace Sys2Proof.Machine

/-! ### Lengths of images (R299, R319, R448) -/

@[simp] theorem imgBytes_length (d : VDesc) : (imgBytes d).length = 32 := by simp [imgBytes]

@[simp] theorem seqImage_length (x : Seq) : (seqImage x).length = 896 := by simp [seqImage, List.length_flatMap]

@[simp] theorem ctxMid_length (s : State) (b : Nat) : (ctxMid s b).length = 3616 := by simp [ctxMid]

/-- A bay block before its Cask images. -/
def bayHead (s : State) (b : Nat) (mid : Bytes) : Bytes :=
  toLe 8 (caskMask s b) ++ zeros 56 ++ (List.range 64).flatMap (fun i => toLe 8 (tget 0 (s.bay b).mods i).toNat) ++ mid

@[simp] theorem bayHead_length (s : State) (b : Nat) (mid : Bytes) : (bayHead s b mid).length = 576 + mid.length := by
  simp [bayHead, List.length_flatMap]
  omega

theorem bayImage_of_no_cask {s : State} {b : Nat} (mid : Bytes) (h : enabledCasks s b = []) : bayImage s b mid = (bayHead s b mid, []) := by
  unfold bayImage
  rw [h]
  rfl

theorem bayImage_of_one_cask {s : State} {b ci : Nat} {c : Cask} (mid : Bytes) (h : enabledCasks s b = [(ci, c)]) (hk : c.kegBad = []) :
    bayImage s b mid = (bayHead s b mid ++ (withOld s b c).image, []) := by
  unfold bayImage
  rw [h]
  simp [Cask.imageBad, hk, bayHead]

/-- The bay blocks of the image of shelf k, with a program of n bytes before them, and their poisoned ranges. -/
def ctxBlocks (s : State) (k n : Nat) : Bytes × List (Nat × Nat) :=
  (s.shelf k).bays.foldl (fun a b =>
    let i := bayImage s b (ctxMid s b)
    (a.1 ++ i.1, a.2 ++ i.2.map (fun r => (128 + n + a.1.length + r.1, r.2)))) ([], [])

theorem ctxBlocks_of_two_bays {s : State} {k n b c : Nat} {x y : Bytes} (h : (s.shelf k).bays = [b, c]) (hx : bayImage s b (ctxMid s b) = (x, []))
    (hy : bayImage s c (ctxMid s c) = (y, [])) : ctxBlocks s k n = (x ++ y, []) := by
  simp [ctxBlocks, h, hx, hy]

/-- A context image: its header of 128 bytes, the program, and the bay blocks (R448). -/
theorem ctxImage_parts {s : State} {k : Nat} (h : (s.shelf k).prog.loaded = true) :
    let p := progImage (s.shelf k).prog
    ∃ head, head.length = 128 ∧ ctxImage s k = (head ++ p ++ (ctxBlocks s k p.length).1, (ctxBlocks s k p.length).2) := by
  refine ⟨_, ?_, by simp only [ctxImage, h, if_true]; rfl⟩
  simp

/-! ### Whole lines written (R423) -/

/-- Nothing but memory and its marks differs between s and t, and byte x and the mark of its line do not. -/
structure KeepsByte (x : Nat) (s t : State) : Prop where
  frame : t = { s with mem := t.mem, marks := t.marks }
  byte : memGet t.mem x = memGet s.mem x
  mark : markOf t x = markOf s x

theorem KeepsByte.refl (x : Nat) (s : State) : KeepsByte x s s := ⟨rfl, rfl, rfl⟩

theorem KeepsByte.trans {x : Nat} {s t u : State} (h : KeepsByte x s t) (g : KeepsByte x t u) : KeepsByte x s u := by
  refine ⟨?_, g.byte.trans h.byte, g.mark.trans h.mark⟩
  rw [g.frame, h.frame]

theorem KeepsByte.shelf {x : Nat} {s t : State} (h : KeepsByte x s t) (k : Nat) : t.shelf k = s.shelf k := by rw [h.frame]; rfl

/-- The address map knows nothing but the shelf. -/
theorem dev?_congr {s t : State} {k : Nat} (h : t.shelf k = s.shelf k) (a : Nat) : dev? t k a = dev? s k a := by
  unfold dev?; rw [h]

/-- The mark of another line stays when one is taken away. -/
theorem markOf_unmark {l x : Nat} (h : x / 64 ≠ l) (s : State) : markOf (unmark l s) x = markOf s x := by
  unfold markOf unmark tdel
  rw [List.find?_filter]
  congr 2
  funext e
  by_cases he : e.1 = x / 64 <;> simp [he, h]

/-- A whole line below byte x is written. -/
theorem keepsByte_putLine {d x : Nat} {bs : Bytes} (s : State) (hl : bs.length = 64) (hd : d + 64 ≤ x) : KeepsByte x s (putLine d bs s) := by
  rw [putLine, if_pos hl]
  split
  · exact .refl x s
  · refine ⟨rfl, ?_, markOf_unmark (by omega) _⟩
    rw [unmark_mem, memGet_memWrite, if_neg (by omega)]

/-- Writing at the start of a line goes line by line. -/
theorem vwriteAux_line (f : Nat) (s : State) (k a : Nat) (bs : Bytes) (ha : a % 64 = 0) (hb : 64 ≤ bs.length) :
    vwriteAux (f + 1) s k a bs =
      vwriteAux f ((dev? s k a).elim s (fun d => putLine d (bs.take 64) s)) k (a + 64) (bs.drop 64) := by
  have hne : bs.isEmpty = false := by cases bs <;> simp at hb ⊢
  have hm : min (64 - a % 64) bs.length = 64 := by omega
  rw [vwriteAux, hne, if_neg Bool.false_ne_true, hm]
  cases dev? s k a <;> rfl

/-- The rest of a byte string, less than a line. -/
theorem vwriteAux_rest (f : Nat) (s : State) (k a x : Nat) (bs : Bytes) (ha : a % 64 = 0) (h0 : 0 < bs.length) (hb : bs.length < 64)
    (hx : dev? s k a = some x) : vwriteAux (f + 1) s k a bs = putLine x bs s := by
  have hne : bs.isEmpty = false := by cases bs <;> simp at h0 ⊢
  have hm : min (64 - a % 64) bs.length = bs.length := by omega
  rw [vwriteAux, hne, if_neg Bool.false_ne_true, hm, hx]
  simp only [List.take_length, List.drop_length]
  cases f <;> rfl

/-- Whole lines that lie below byte x leave it, and what follows them is written next. -/
theorem vwriteAux_lines (n : Nat) : ∀ (f : Nat) (s : State) (k a x : Nat) (bs : Bytes), a % 64 = 0 → 64 * n ≤ bs.length →
    (∀ i < n, ∀ d, dev? s k (a + 64 * i) = some d → d + 64 ≤ x) →
    ∃ t, KeepsByte x s t ∧ vwriteAux (f + n) s k a bs = vwriteAux f t k (a + 64 * n) (bs.drop (64 * n)) := by
  induction n with
  | zero => exact fun f s k a x bs _ _ _ => ⟨s, .refl x s, rfl⟩
  | succ n ih =>
    intro f s k a x bs ha hb hx
    have hu : KeepsByte x s ((dev? s k a).elim s (fun d => putLine d (bs.take 64) s)) := by
      cases hd : dev? s k a with
      | none => exact .refl x s
      | some d => exact keepsByte_putLine s (by rw [List.length_take]; omega) (hx 0 (by omega) d hd)
    obtain ⟨t, ht, he⟩ := ih f _ k (a + 64) x (bs.drop 64) (by omega) (by rw [List.length_drop]; omega) (fun i hi d hd =>
      hx (i + 1) (by omega) d (by rw [← dev?_congr (hu.shelf k), ← hd]; congr 1; omega))
    refine ⟨t, hu.trans ht, ?_⟩
    rw [← Nat.add_assoc, vwriteAux_line _ s k a bs ha (by omega), he, List.drop_drop,
      show a + 64 + 64 * n = a + 64 * (n + 1) by omega, show 64 + 64 * n = 64 * (n + 1) by omega]

/-- A byte string of n whole lines below byte x and less than a line that goes to x. -/
theorem vwrite_lines_rest {s : State} {k a x n : Nat} {p r : Bytes} (ha : a % 64 = 0) (hp : p.length = 64 * n) (h0 : 0 < r.length) (hr : r.length < 64)
    (hlow : ∀ i < n, ∀ d, dev? s k (a + 64 * i) = some d → d + 64 ≤ x) (hx : dev? s k (a + 64 * n) = some x) :
    ∃ t, KeepsByte x s t ∧ vwrite s k a (p ++ r) = putLine x r t := by
  obtain ⟨m, hm⟩ : ∃ m, (p ++ r).length = (m + 1) + n := ⟨p.length + r.length - n - 1, by rw [List.length_append]; omega⟩
  obtain ⟨t, ht, he⟩ := vwriteAux_lines n (m + 1) s k a x (p ++ r) ha (by rw [List.length_append]; omega) hlow
  refine ⟨t, ht, ?_⟩
  rw [vwrite, hm, he, ← hp, List.drop_left]
  exact vwriteAux_rest m t k _ x r (by omega) h0 hr (by rw [dev?_congr (ht.shelf k), hp]; exact hx)

/-- Part of a line without a mark, outside the Cellar. -/
theorem putLine_part {d : Nat} {bs : Bytes} {s : State} (hd : loftBase ≤ d) (hl : bs.length < 64) (hm : markOf s d = none) :
    putLine d bs s = { s with mem := memWrite s.mem d bs } := by
  have hf : fencedAt s d = false := by simp [fencedAt, Nat.not_lt.mpr hd]
  rw [putLine, hf, if_neg Bool.false_ne_true, if_neg (by omega), hm]

/-- Part of a poisoned line: it is discarded (R423). -/
theorem putLine_poisoned {d : Nat} {bs : Bytes} {s : State} (hl : bs.length < 64) (hm : markOf s d = some .poisoned) :
    (putLine d bs s).mem = s.mem := by
  rw [putLine]
  split
  · rfl
  · rw [if_neg (by omega), hm, mark_mem, notePoison_mem]

/-! ### Zeroising (R449, R592) -/

/-- The byte read after a range was zeroised. -/
theorem memGet_memZero (s : State) (a n x : Nat) : memGet (memZero s a n).mem x = if a ≤ x ∧ x < a + n then 0 else memGet s.mem x := by
  unfold memZero memGet
  induction s.mem with
  | nil => simp
  | cons e r ih =>
    obtain ⟨i, v⟩ := e
    rw [List.filter_cons]
    by_cases hi : a ≤ i ∧ i < a + n
    · simp only [hi, decide_true, Bool.and_self, Bool.not_true, Bool.false_eq_true, if_false, ih, tget]
      by_cases hx : i = x
      · rw [if_pos (hx ▸ hi), if_pos (hx ▸ hi)]
      · rw [if_neg hx]
    · rw [if_pos (by simp only [Bool.not_eq_true', Bool.and_eq_false_iff, decide_eq_false_iff_not]; omega)]
      simp only [tget, ih]
      by_cases hx : i = x
      · rw [if_pos hx, if_pos hx, if_neg (hx ▸ hi)]
      · rw [if_neg hx, if_neg hx]

/-- A byte that reads 0 reads 0 after a shelf is emptied: nothing but zeroes is written. -/
theorem ctxEmpty_keeps_zero {k x : Nat} {s : State} (h : memGet s.mem x = 0) : memGet (ctxEmpty k s).mem x = 0 := by
  have zeroed : ∀ a n (t : State), memGet t.mem x = 0 → memGet (memZero t a n).mem x = 0 := fun a n t ht => by
    rw [memGet_memZero, ht, ite_self]
  unfold ctxEmpty
  refine foldl_keeps (fun t : State => memGet t.mem x = 0) _ _ _ ?_ (fun t q ht => ht)
  refine foldl_keeps (fun t : State => memGet t.mem x = 0) _ _ _ h fun t b ht => ?_
  refine foldl_keeps (fun t : State => memGet t.mem x = 0) _ _ _ ht fun t e ht => ?_
  split
  · exact zeroed _ _ _ (zeroed _ _ _ ht)
  · exact ht

/-! ### The switch (R449) -/

theorem tput_tput {α : Type} (t : Tab α) (k : Nat) (v w : α) : tput (tput t k v) k w = tput t k w := by
  induction t with
  | nil => simp [tput]
  | cons e r ih =>
    obtain ⟨i, u⟩ := e
    simp only [tput]
    split
    · simp [tput]
    · split
      · simp [tput]
      · rename_i hlt hne
        simp only [tput, if_neg hlt, if_neg hne, ih]

theorem State.onShelf_onShelf (s : State) (k : Nat) (f g : Shelf → Shelf) : (s.onShelf k f).onShelf k g = s.onShelf k (fun h => g (f h)) := by
  have h := State.onShelf_shelf_same s k f
  unfold State.onShelf at h ⊢
  rw [h]
  simp only [tput_tput]

/-- A switch is asked for while none waits, on a shelf that is not fenced and runs no round (R449). -/
theorem ctxCmdWrite_switch {k : Nat} {v : Word} {s : State} (hw : (s.shelf k).ctx.waiting = false) (hv : bits v 1 0 = 1) (hf : (s.shelf k).fenced = false)
    (hr : (s.shelf k).round.active = false) :
    ctxCmdWrite k v s = ctxSettle k (s.onCtx k (fun c => { c with target := bits v 11 8, waiting := true })) := by
  unfold ctxCmdWrite
  simp only [hw, hv, hf, hr, Bool.false_eq_true, if_false, State.onCtx_eq, State.onShelf_onShelf]

/-- A switch that waits, with nothing to hold it back, is made. -/
theorem ctxSettle_quiet {k : Nat} {s : State} (hw : (s.shelf k).ctx.waiting = true) (hr : (s.shelf k).round.active = false)
    (hs : serviceActive s k = false) (hq : ctxQuiet s k = true) : ctxSettle k s = ctxSwitch k s := by
  simp [ctxSettle, hw, hr, hs, hq]

/-- A switch that saves the current context and enters a slot without image: memory is what the image leaves, written into the state after
the reads of the Casks, and the areas of the Casks zeroised. -/
theorem ctxSwitch_mem_of_saved {k : Nat} {s r p : State} {img : Bytes} {bad : List (Nat × Nat)} (hr : readCasks k s = r)
    (hi : ctxImage r k = (img, bad)) (hp : putImage k (ctxSlot (r.shelf k) (r.shelf k).ctx.current).1 img bad r = p) :
    let h := r.shelf k
    let e := ctxEmpty k (p.onCtx k (fun c => { c with held := insSet h.ctx.current c.held }))
    h.ctx.target < ctxCount h → inCellar h (ctxSlot h 0).1 (ctxCount h * (ctxSlot h 0).2) = true → h.ctx.current < 16 →
    img.length ≤ (ctxSlot h 0).2 → h.ctx.target ∉ (e.shelf k).ctx.held → (ctxSwitch k s).mem = e.mem := by
  intro h e ht hc hcur hl hh
  have hfits : (!decide (h.ctx.target < ctxCount h) || !inCellar h (ctxSlot h 0).1 (ctxCount h * (ctxSlot h 0).2) ||
      (decide (h.ctx.current < 16) && decide ((ctxSlot h 0).2 < img.length))) = false := by
    simp [ht, hc, Nat.not_lt.mpr hl]
  have hnew : (e.shelf k).ctx.held.contains h.ctx.target = false := by simpa using hh
  unfold ctxSwitch
  simp only [hr, hi, hp]
  rw [if_neg (by rw [hfits]; exact Bool.false_ne_true), if_pos (decide_eq_true hcur), if_neg (by rw [hnew]; exact Bool.false_ne_true)]
  rfl

/-! ### A switch whose image reaches a row that the save has read -/

/-- A line of the store of bay 1: bytes 128 to 191 of row 0x840. -/
def strayLine : Nat := storeAddr 1 0x84080

/-- Bays 0 and 1, and a Cellar that reaches into the bay stores: no stack has pseudo-channel 960. -/
def strayDesc : ShelfDesc := { bayPairs := 1, contexts := 2, pcs := [960] }

/-- A Cask without elements, whose first row is live all the same; it would stand at row 0x840. -/
def strayCask (bad : List Nat) : Cask := { cfg := 1, area := 0x840, inexact := 1, live := [0], bad := bad }

/-- Shelf 0 has that descriptor, and context slots from Cellar offset 0x804_0000 on. Bay 1 has that Cask, with the poisoned marker over
strayLine. -/
def strayState : State :=
  { shelves := [(0, { desc := some strayDesc, cfg := [(0x40, 0x1_0000_0804)], prog := { loaded := true } })]
    bays := [(1, { casks := [(0, strayCask [])] })]
    marks := [(strayLine / 64, .poisoned)] }

/-- The switch to context 1 waits. -/
def strayAsked : State := strayState.onCtx 0 (fun c => { c with target := 1, waiting := true })

/-- The Casks have been read: the marker has gone from the line to the row. -/
def strayRead : State :=
  { strayAsked with bays := [(1, { casks := [(0, strayCask [0])] })], marks := [] }

theorem readCasks_strayAsked : readCasks 0 strayAsked = strayRead := rfl

/-- The last 32 bytes of the context's image, from INEXACT of the Cask on. -/
def strayTail : Bytes := toLe 8 1 ++ zeros 24

theorem strayCask_image : (strayCask [0]).image = toLe 8 1 ++ toLe 8 0x840 ++ zeros 16 ++ strayTail := by
  have hrows : (strayCask [0]).rows = 0 := rfl
  have hstates : (strayCask [0]).stateLen = 0 := rfl
  have hkeg : (strayCask [0]).kegAt.2 = 0 := rfl
  rw [Cask.image, hrows, hstates, hkeg]
  rfl

/-- The bay blocks, up to the Cask's image. -/
def strayBlocks : Bytes := bayHead strayRead 0 (ctxMid strayRead 0) ++ bayHead strayRead 1 (ctxMid strayRead 1)

theorem ctxBlocks_strayRead (n : Nat) : ctxBlocks strayRead 0 n = (strayBlocks ++ (strayCask [0]).image, []) := by
  have hold : withOld strayRead 1 (strayCask [0]) = strayCask [0] := rfl
  have hempty := bayImage_of_no_cask (s := strayRead) (b := 0) (ctxMid strayRead 0) rfl
  have hone := bayImage_of_one_cask (s := strayRead) (b := 1) (c := strayCask [0]) (ctxMid strayRead 1) rfl rfl
  rw [ctxBlocks_of_two_bays rfl hempty hone, hold, strayBlocks, List.append_assoc]

theorem ctxImage_strayRead : ∃ p, p.length = 64 * 134 ∧ ctxImage strayRead 0 = (p ++ strayTail, []) := by
  obtain ⟨head, hlen, himage⟩ := ctxImage_parts (s := strayRead) (k := 0) rfl
  have hprog : (progImage (strayRead.shelf 0).prog).length = 32 := rfl
  refine ⟨head ++ (progImage (strayRead.shelf 0).prog ++ (strayBlocks ++ (toLe 8 1 ++ (toLe 8 0x840 ++ zeros 16)))), ?_, ?_⟩
  · simp only [strayBlocks, List.length_append, hlen, hprog, bayHead_length, ctxMid_length, toLe_length, zeros_length]
  · rw [himage, ctxBlocks_strayRead, strayCask_image]
    simp only [List.append_assoc]

theorem exec_strayState : exec (.contextSwitch 0 1) strayState = .next (ctxSwitch 0 strayAsked) :=
  congrArg Host.Outcome.next ((ctxCmdWrite_switch rfl rfl rfl rfl).trans (ctxSettle_quiet rfl rfl rfl (by decide)))

theorem dev?_of_strayDesc {s : State} {a : Nat} (h : (s.shelf 0).desc = some strayDesc) (ha : a < pcSize) : dev? s 0 a = some (pcAddr 960 a) := by
  have hlow : a < loftBase := by unfold pcSize at ha; unfold loftBase; omega
  unfold dev?
  simp only [h, if_pos hlow]
  simp [strayDesc, cellarRegions, cellarXlate, nbit, ha, Nat.div_add_mod', Nat.mod_one]

/-- The image is written at Cellar offset 0x804_0000: its whole lines go below strayLine, and its tail goes there. -/
theorem putImage_stray {s : State} {p : Bytes} (h : (s.shelf 0).desc = some strayDesc) (hp : p.length = 64 * 134) :
    ∃ t, KeepsByte strayLine s t ∧ putImage 0 0x8040000 (p ++ strayTail) [] s = putLine strayLine strayTail t := by
  refine vwrite_lines_rest (by decide) hp (by decide) (by decide) (fun i hi d hd => ?_) ?_
  · rw [dev?_of_strayDesc h (by unfold pcSize; omega), Option.some.injEq] at hd
    subst hd
    unfold pcAddr strayLine storeAddr storeBase storeStep stackSize
    omega
  · rw [dev?_of_strayDesc h (by decide)]
    rfl

/-- The image written into the state after the reads: the line takes the tail. -/
theorem putImage_strayRead {p : Bytes} (hp : p.length = 64 * 134) : ∃ m marks, memGet m strayLine = 1 ∧
    putImage 0 0x8040000 (p ++ strayTail) [] strayRead = { strayRead with mem := m, marks := marks } := by
  obtain ⟨t, ht, himage⟩ := putImage_stray (s := strayRead) rfl hp
  refine ⟨memWrite t.mem strayLine strayTail, t.marks, ?_, ?_⟩
  · rw [memGet_memWrite, if_pos (by decide)]
    rfl
  · rw [himage, putLine_part (by decide) (by decide) (ht.mark.trans rfl), ht.frame]

/-- The image written into the state before the reads: the line discards the tail. -/
theorem putImage_strayState {p : Bytes} (hp : p.length = 64 * 134) : memGet (putImage 0 0x8040000 (p ++ strayTail) [] strayState).mem strayLine = 0 := by
  obtain ⟨t, ht, himage⟩ := putImage_stray (s := strayState) rfl hp
  rw [himage, putLine_poisoned (by decide) (ht.mark.trans rfl), ht.byte]
  rfl

/-- Emptying the shelf zeroises no byte: the Cask has no rows. -/
theorem ctxEmpty_stray_mem (m : List Host.Cell) (marks : List (Nat × LineMark)) (f : Ctx → Ctx) (x : Nat) :
    memGet (ctxEmpty 0 (({ strayRead with mem := m, marks := marks } : State).onCtx 0 f)).mem x = memGet m x := by
  have h : (ctxEmpty 0 (({ strayRead with mem := m, marks := marks } : State).onCtx 0 f)).mem =
      (zeroAreas 1 (0x84000, 0) (0, 0) { strayRead with mem := m, marks := marks }).mem := rfl
  rw [h, zeroAreas, memGet_memZero, memGet_memZero, if_neg (by omega), if_neg (by omega)]

theorem ctxSwitch_strayAsked : memGet (ctxSwitch 0 strayAsked).mem strayLine = 1 := by
  obtain ⟨p, hp, himage⟩ := ctxImage_strayRead
  obtain ⟨m, marks, hbyte, hput⟩ := putImage_strayRead hp
  have hfits : (p ++ strayTail).length ≤ 0x10000 := by rw [List.length_append, hp]; decide
  have hnew : (1 : Nat) ∉ [0] := by decide
  rw [ctxSwitch_mem_of_saved readCasks_strayAsked himage hput (by decide) (by decide) (by decide) hfits hnew, ctxEmpty_stray_mem, hbyte]

/-- Refutes O53: where a switch saves the current context, the statement writes the image into the state before the switch, and the switch writes it
into the state after the reads of R449's save (ctxSwitch_mem_of_saved). Those reads have taken the poisoned marker from strayLine, where the
image ends in part of a line: the switch writes INEXACT of the Cask there, and in the statement's memory the line discards it (R423).
The statement asks it of every state, and strayState breaks two invariants that it does not ask for: a listed pseudo-channel exists, and a live
row is a row of its Cask. With the state after the reads in its place the equation is ctxSwitch_mem_of_saved. -/
theorem not_contextsAndShelves : ¬ Obligations.ContextsAndShelves := by
  unfold Obligations.ContextsAndShelves Claim.ContextCommands
  rintro ⟨hctx, -⟩
  obtain ⟨p, hp, himage⟩ := ctxImage_strayRead
  have hfits : (p ++ strayTail).length ≤ 0x10000 := by rw [List.length_append, hp]; decide
  have hread : readCasks 0 (strayState.onCtx 0 (fun c => { c with target := (1 : BitVec 4).toNat, waiting := true })) = strayRead := rfl
  obtain ⟨t, ht, -, -, -, -, -, -, hsaved, -⟩ := (hctx 0 1 strayState rfl).1 rfl rfl rfl (by decide) (by decide) (by decide) (by decide) (by decide)
    (fun _ => by rw [hread, himage]; exact hfits)
  obtain rfl := Host.Outcome.next.inj (exec_strayState.symm.trans ht)
  have hmem := (hsaved (by decide)).2
  rw [hread, himage] at hmem
  have hzero := ctxEmpty_keeps_zero (k := 0) (putImage_strayState hp)
  have hone : memGet _ strayLine = 1 := hmem ▸ ctxSwitch_strayAsked
  exact absurd (hone.symm.trans hzero) (by decide)

end Sys2Proof.Machine
end
